-- ==== Sys2Proof/Word.lean ====
section
/-!
DEFINITION. Sys2Proof/Word.lean: the words of the model and their plainest arithmetic.
-/

namespace Sys2Proof

/-- One byte. -/
abbrev Byte := BitVec 8

/-- A scalar register or any 64-bit value. -/
abbrev Word := BitVec 64

/-- A 64-byte line, byte i in bits 8i to 8i+7. -/
abbrev Line := BitVec 512

/-- A 256-byte brick, byte i in bits 8i to 8i+7. -/
abbrev Brick := BitVec 2048

/-- A wide register or a 512-byte transfer, byte i in bits 8i to 8i+7. -/
abbrev Wide := BitVec 4096

/-- An accumulator tile of 32 by 32 FP32 elements, element (i, j) in bits 32(32i+j) and up. -/
abbrev Tile := BitVec 32768

end Sys2Proof
end

