-- ==== Sys2Proof/Syntax.lean ====
section
/-!
DEFINITION. Sys2Proof/Syntax.lean: the commands of the block, one constructor for each row of the spec's table, and the
types of their operands. A command is something the outside world or the media do to the module: a frame or message that
arrives, a timer or threshold that is reached, a media operation that ends, an event on a pin.
-/

namespace Sys2Proof

/-- Where a management frame arrives (R450): an M-port, I3C, a rack MAC address, the service UART, or a Relay message
of a member module (R489). -/
inductive Arrival where
  | port (p : Fin 32)
  | i3c
  | rack (mac : BitVec 48)
  | uart
  | relay (member : BitVec 12)
  deriving DecidableEq, Repr

/-- The part every object-dictionary request frame has in common (R444): where it arrived and its SEQUENCE. -/
structure Rq where
  src : Arrival
  seq : BitVec 16
  deriving DecidableEq, Repr

/-- The functions that are switched through function states (R457, R458). -/
inductive FnId where
  | port (p : Fin 32)
  | core (c : Fin 32)
  | room (k : Fin 64)
  | stair (s : Fin 256)
  | scrubber
  | cellar (c : Fin 32)
  deriving DecidableEq, Repr

/-- What the sensors give at a course boundary: mean input power of the course just ended and demand projected for the
next, in W (R38); the supplies in mV (R514); die temperatures in 0.1 °C in the order of DIE_TEMPS (R514); the Cistern's
cell voltages in mV and cell temperatures in 0.1 °C (R388); the sensors of R428 tripped at present, a bit each. A list that is short
leaves the readings it does not reach. -/
structure Env where
  power : BitVec 16
  demand : BitVec 16
  vin : BitVec 16
  aux : BitVec 16
  dieTemps : List (BitVec 16)
  cellMv : List (BitVec 16)
  cellTemps : List (BitVec 16)
  sensors : BitVec 6 := 0
  deriving DecidableEq, Repr

/-- A TimeBeacon flit (R58, R105): a request or a reply, the sender's hop count and whether it is Locked, and the four
link-layer stamps of the exchange (of a request, t1 alone counts). -/
structure Beacon where
  reply : Bool
  locked : Bool
  hops : Byte
  t1 : Word
  t2 : Word
  t3 : Word
  t4 : Word
  deriving DecidableEq, Repr

/-- The data set of a received PTP Announce message (IEEE 1588-2019, named by R58). -/
structure Announce where
  priority1 : Byte
  clockClass : Byte
  accuracy : Byte
  variance : BitVec 16
  priority2 : Byte
  identity : Word
  stepsRemoved : BitVec 16
  deriving DecidableEq, Repr

/-- The causes of a pack fault (R392, R407). -/
inductive PackCause where
  | voltage | temperature | openTap | loopOpen | charger
  deriving DecidableEq, Repr

/-- What a capacity check finds of one cell (R391): the charge it delivered in mC, its voltage change in mV, and its
voltage step in µV when the 3.0 A began. -/
structure CellCheck where
  charge : BitVec 32
  drop : BitVec 16
  step : BitVec 32
  deriving DecidableEq, Repr

/-- Port roles (R73), coded as PORT_ROLE of R104. -/
inductive PortRole where
  | off | companion | host | peer
  deriving DecidableEq, Repr

/-- What a partner advertises in Configure (R78, R86): its role, whether it is hold-capable, its module index, and the
credits it grants by type code 0 to 7. -/
structure Partner where
  role : PortRole
  hold : Bool
  modIdx : BitVec 12
  credits : List (BitVec 16)
  deriving DecidableEq, Repr

/-- What takes an Up port to Retrain (R77): the replay limit, a lane error threshold, a governor width step or a Steward
command. -/
inductive RetrainCause where
  | replay | lane | governor | steward
  deriving DecidableEq, Repr



/-- A 34-byte unit of a region bay (R313) that a copy finds uncorrectable (R329). -/
structure BayUnit where
  bay : BitVec 31
  unit : Fin 8
  deriving DecidableEq, Repr

/-- The copy off a dead slot of a region (R330), and the units that it could not correct (R329). -/
structure SlotCopy where
  region : Fin 4
  marked : List BayUnit
  deriving DecidableEq, Repr

/-- How a codeword that failed hard decoding was recovered (R354). -/
inductive Recovery where
  | retry | soft | rebuilt | lost
  deriving DecidableEq, Repr

/-- Which block of a row failed its program or erase status (R356). -/
structure BlockFail where
  channel : Fin 32
  way : Fin 8
  plane : Fin 4
  block : BitVec 12
  deriving DecidableEq, Repr

/-- A zone row whose program failed in a flush (R356): the row, counted from the first of its set's ERASED zone superblocks, and the block. -/
structure ZoneFail where
  row : BitVec 20
  fail : BlockFail
  deriving DecidableEq, Repr

/-- What a flush reached beside its list (R399): how many VOLATILE pages were programmed, and the zone rows whose programs failed. -/
structure ZoneFlush where
  volatile : BitVec 40
  lost : List ZoneFail
  deriving DecidableEq, Repr

/-- Byte errors of one 34-byte Store unit as the media give it (R369): the unit, 0 to 7 in the brick's sectors and 8 to 11
a quarter of the page group, and the bytes in error with the pattern that each is out by. -/
structure UnitErr where
  unit : Fin 12
  bytes : List (Fin 34 × Byte)
  deriving DecidableEq, Repr

/-- What goes wrong on the way of one Store read (R328, R365, R373): units in error, how many transfers in a row fail
link ECC, how many passes in a row meet a datapath parity error. -/
structure ReadFaults where
  units : List UnitErr
  link : Fin 3
  parity : Fin 3
  deriving DecidableEq, Repr

/-- A unit that a scrub pass found in error (R380): region bay, unit of the bay, error bytes. -/
structure ScrubFind where
  region : Fin 4
  bay : BitVec 31
  unit : Fin 8
  bytes : List (Fin 34 × Byte)
  deriving DecidableEq, Repr

/-- What an uncorrectable Loft word holds, in the row order of R368. -/
inductive LoftArea where
  | hotPage (room : Fin 64) (page : BitVec 34)
  | landing (room : Fin 64) (line : BitVec 40)
  | directory
  | indexCache
  | footing (room : Fin 64) (brick : BitVec 38)
  | mapCache
  | heat (room : Fin 64) (page : BitVec 34)
  | stair (stair : Fin 256)
  | fetchQueue
  | tallyRing (back : BitVec 21)
  deriving DecidableEq, Repr

/-- An uncorrectable Loft word met in a scrub pass (R367, R368): region, bank group 0 to 63, word address, area. -/
structure LoftBad where
  region : Fin 4
  group : Fin 64
  word : BitVec 40
  area : LoftArea
  deriving DecidableEq, Repr

/-- Corrected words of a Loft bank group in a scrub pass (R367). -/
structure LoftCount where
  region : Fin 4
  group : Fin 64
  words : BitVec 32
  deriving DecidableEq, Repr

/-- A page: a room's page number, address bits [45:12]; copy 0 is the live page, another a version's copy (R245). -/
structure PageId where
  room : Fin 64
  page : BitVec 34
  copy : BitVec 32 := 0
  deriving DecidableEq, Repr

/-- The data of a port's write, and whether a parity error strikes it between the link layer and the landing slot (R366). -/
structure WriteData where
  bits : BitVec 512
  parity : Bool
  deriving DecidableEq, Repr

/-- How the program of a row ends: a block of it fails program status (R356), or it passes; then with the pages whose read for it met a
parity error, and whether the second read did too (R366). -/
inductive RowEnd where
  | failed (block : BlockFail)
  | passed (parity : List (PageId × Bool))
  deriving DecidableEq, Repr

/-- A brick: a room's brick address bits [45:8], of the live page or of a version's copy (R160, R245). -/
structure BrickId where
  room : Fin 64
  brick : BitVec 38
  copy : BitVec 32 := 0
  deriving DecidableEq, Repr



/-- The fields of a Gopepen instruction word beside its opcode (R279). -/
structure Fields where
  mod : Byte := 0
  d : BitVec 6 := 0
  a : BitVec 6 := 0
  b : BitVec 6 := 0
  c : BitVec 6 := 0
  x : BitVec 24 := 0
  imm : Word := 0
  deriving DecidableEq, Repr


/-- What the exchanges of a join bring of a peer (R487): whether its RSA and its SLH-DSA signature verify, the SHA-384 of its device
certificate, its VAULT_EPOCH, VAULT_DIGEST and COMPAT_BAND, and whether it is adrift. -/
structure PeerView where
  member : BitVec 12
  rsa : Bool
  pq : Bool
  cert : List Byte
  epoch : Word
  digest : List Byte
  band : BitVec 16
  adrift : Bool
  deriving DecidableEq, Repr

/-- How a start step ends, with what its work found (R465, R469, R470): the ROM's self-check; whether a copy of the persisted values
checks; bond blocks not repaired; bank groups that fail the march test of the alternate; failed attempts of Store channels, in order;
the rubble rows that post-package repair has repaired, as the words of RUBBLE_BLOCK, by region; failed attempts of Cellar channels; the
cells' mV, temperatures in 0.1 °C and ESR in µΩ, and a pack fault; what the members present; the handles of program images whose digest
fails. -/
inductive StepEnd where
  | s01 (romOk : Bool)
  | s02 (persistOk : Bool)
  | s03 (blocks : List (Fin 4 × Fin 8))
  | s04 (groups : List (Fin 4 × Fin 64))
  | s05 (failed : List (Fin 128))
  | s06 (repaired : List (Fin 4 × BitVec 32))
  | s07 (failed : List (Fin 32))
  | s08 (mv temps esr : List (BitVec 16)) (fault : Option (Byte × PackCause))
  | s09
  | s10
  | s11
  | s12 (views : List PeerView)
  | s13 (removed : List (BitVec 32))
  deriving DecidableEq, Repr

/-- The commands. -/
inductive Instr where
  /-- COURSE_BOUNDARY (R48). -/
  | courseBoundary (env : Env)
  /-- CAPPED_RETURN_FULL (R35). -/
  | cappedReturnFull
  /-- DIE_AT_LIMIT (R27). -/
  | dieAtLimit (die : Fin 53)
  /-- REGION_FAULT (R25). -/
  | regionFault (region : Fin 4)
  /-- KEEPER_WATCHDOG (R31). -/
  | keeperWatchdog
  /-- KEEPER_RESTART_DONE (R31). -/
  | keeperRestartDone
  /-- QUIET_ENTER (R36). -/
  | quietEnter (rq : Rq) (payload : List Byte)
  /-- QUIET_FREEZE (R36). -/
  | quietFreeze
  /-- QUIET_ENTERED (R36). -/
  | quietEntered
  /-- QUIET_EXIT (R37). -/
  | quietExit (rq : Rq) (payload : List Byte)
  /-- QUIET_EXIT_END (R37). -/
  | quietExitEnd
  /-- ZEROING_PASS_END (R327). -/
  | zeroingPassEnd
  /-- POWER_CAP (R41). -/
  | powerCap (rq : Rq) (payload : List Byte)
  /-- PWRFAIL_N_ASSERTED (R35). -/
  | pwrfailNAsserted
  /-- INPUT_BELOW_38V (R35). -/
  | inputBelow38v
  /-- BRACE_END (R398). -/
  | braceEnd
  /-- BRACE_LIMIT (R398). -/
  | braceLimit
  /-- FLUSH_COMPLETE (R399). -/
  | flushComplete (drawn : BitVec 32) (zone : ZoneFlush)
  /-- RAILS_FALL (R35). -/
  | railsFall (listed : Bool) (programmed : BitVec 40)
  /-- POWER_RETURN (R35). -/
  | powerReturn
  /-- PTP_MEASUREMENT (R60). -/
  | ptpMeasurement (domain : Byte) (offset : BitVec 32) (tai : Word)
  /-- TIME_BEACON (R58). -/
  | timeBeacon (port : Fin 32) (b : Beacon)
  /-- BEACON_SEND (R58). -/
  | beaconSend
  /-- TIME_HOLDOVER (R60). -/
  | timeHoldover
  /-- HOLDOVER_ESTIMATE_ADRIFT (R60). -/
  | holdoverEstimateAdrift
  /-- TALLY_PAGE_DRAIN (R66). -/
  | tallyPageDrain
  /-- TALLY_BLOCK (R516). -/
  | tallyBlock (rq : Rq)
  /-- PORT_ROLE (R74). -/
  | portRole (rq : Rq) (port : Fin 32) (payload : List Byte)
  /-- RECEIVER_DETECTED (R77). -/
  | receiverDetected (port : Fin 32) (lanes : BitVec 4)
  /-- DETECT_TIMEOUT (R77). -/
  | detectTimeout (port : Fin 32)
  /-- DETECT_RETRY (R77). -/
  | detectRetry (port : Fin 32)
  /-- EQUALISE_DONE (R77). -/
  | equaliseDone (port : Fin 32)
  /-- EQUALISE_LIMIT (R77). -/
  | equaliseLimit (port : Fin 32) (agreed : BitVec 4)
  /-- CONFIGURE_EXCHANGE (R78). -/
  | configureExchange (port : Fin 32) (partner : Partner) (reversed : Bool) (polarity : BitVec 4)
  /-- CONFIGURE_TIMEOUT (R77). -/
  | configureTimeout (port : Fin 32)
  /-- RETRAIN (R77). -/
  | retrain (port : Fin 32) (cause : RetrainCause)
  /-- RETRAIN_DONE (R77). -/
  | retrainDone (port : Fin 32) (lanes : BitVec 4)
  /-- RETRAIN_TIMEOUT (R77). -/
  | retrainTimeout (port : Fin 32)
  /-- FLIT_RECEIVED (R81). -/
  | flitReceived (port : Fin 32) (flit : List Byte) (corrected : List (BitVec 8)) (fecOk : Bool)
  /-- NACK (R81). -/
  | nack (port : Fin 32) (ackSeq : BitVec 12)
  /-- ACK_TIMEOUT (R81). -/
  | ackTimeout (port : Fin 32)
  /-- LANE_FEC_LIMIT (R100). -/
  | laneFecLimit (port : Fin 32) (lane : Fin 4)
  /-- RD_LINE (R89). -/
  | rdLine (port : Fin 32) (tag : BitVec 12) (room : Fin 64) (line : BitVec 40)
  /-- RD_OWN (R89). -/
  | rdOwn (port : Fin 32) (tag : BitVec 12) (room : Fin 64) (line : BitVec 40)
  /-- WR_LINE (R90). -/
  | wrLine (port : Fin 32) (tag : BitVec 12) (room : Fin 64) (line : BitVec 40) (poison : Bool) (data : WriteData)
  /-- WR_MASK (R90). -/
  | wrMask (port : Fin 32) (tag : BitVec 12) (room : Fin 64) (line : BitVec 40) (mask : BitVec 64) (data : WriteData)
  /-- HOLD_THRESHOLD_PASSED (R95). -/
  | holdThresholdPassed (port : Fin 32) (tag : BitVec 12)
  /-- PIN_LAPSE (R96). -/
  | pinLapse (port : Fin 32) (room : Fin 64) (line : BitVec 40)
  /-- COMPLETION_TIMEOUT (R98). -/
  | completionTimeout (port : Fin 32) (tag : BitVec 12)
  /-- BACK_INV_ANSWER (R94). -/
  | backInvAnswer (port : Fin 32) (tag : BitVec 12) (data : Option (BitVec 512))
  /-- BACK_INV_TIMEOUT (R94). -/
  | backInvTimeout (port : Fin 32) (tag : BitVec 12)
  /-- CALL (R93). -/
  | call (port : Fin 32) (tag : BitVec 12) (room : Fin 64) (line : BitVec 40) (w1 : Word) (args : List Byte)
  /-- PUBLISH (R243). -/
  | publish (port : Fin 32) (tag : BitVec 12) (room : Fin 64) (line : BitVec 40) (region : Byte) (base : BitVec 32)
  /-- PUBLISH_DECIDE (R243). -/
  | publishDecide (region : Byte)
  /-- PUB_SEALED (R244). -/
  | pubSealed (region : Byte) (version : BitVec 32)
  /-- PUB_RELEASED (R242). -/
  | pubReleased (region : Byte) (version : BitVec 32)
  /-- OPEN (R247). -/
  | openView (port : Fin 32) (tag : BitVec 12) (room : Fin 64) (line : BitVec 40) (region : Byte) (version : BitVec 32) (close : Bool)
  /-- CONFIG_COMMIT (R117). -/
  | configCommit (rq : Rq) (payload : List Byte)
  /-- CONFIG_APPLY (R118). -/
  | configApply
  /-- CONFIG_DISCARD (R117). -/
  | configDiscard (rq : Rq) (payload : List Byte)
  /-- ROOM_ERASE (R108). -/
  | roomErase (rq : Rq) (room : Fin 64) (payload : List Byte)
  /-- FETCH_COMPLETE (R149). -/
  | fetchComplete (page : PageId)
  /-- WRITEBACK_IDLE (R145). -/
  | writebackIdle (page : PageId)
  /-- WRITEBACK_AGE_MAX (R145). -/
  | writebackAgeMax (page : PageId)
  /-- WRITEBACK_LAG (R145). -/
  | writebackLag (page : PageId)
  /-- LANDING_DWELL (R194). -/
  | landingDwell (brick : BrickId)
  /-- LANDING_FILL_DONE (R192). -/
  | landingFillDone (brick : BrickId) (faults : ReadFaults)
  /-- LANDING_SLOT_FREED (R194). -/
  | landingSlotFreed (brick : BrickId) (parity : Fin 3)
  /-- STORE_READ_COMPLETE (R148). -/
  | storeReadComplete (brick : BrickId) (faults : ReadFaults)
  /-- STAIR_DEADLINE_PREFETCH (R153). -/
  | stairDeadlinePrefetch (stair : Fin 256) (step : Byte)
  /-- TABLE_LOAD_IMAGE (R202). -/
  | tableLoadImage (rq : Rq) (payload : List Byte)
  /-- TABLE_BIND (R202). -/
  | tableBind (rq : Rq) (room : Fin 64) (id : Fin 32) (payload : List Byte)
  /-- TABLE_FREE (R202). -/
  | tableFree (rq : Rq) (payload : List Byte)
  /-- TABLE_BUILT (R203). -/
  | tableBuilt (room : Fin 64) (window : Fin 16) (byteImage expImage : List Byte)
  /-- PACKED_LOAD_GO (R205). -/
  | packedLoadGo (rq : Rq) (room : Fin 64) (payload : List Byte)
  /-- PACKED_LOAD_PAGE (R205). -/
  | packedLoadPage (room : Fin 64)
  /-- SHELF_ROOM (R210). -/
  | shelfRoom (rq : Rq) (payload : List Byte)
  /-- SHELF_RANGES (R210). -/
  | shelfRanges (rq : Rq) (payload : List Byte)
  /-- SHELVE (R214). -/
  | shelve (rq : Rq) (payload : List Byte)
  /-- SHELVE_FREEZE (R214). -/
  | shelveFreeze (shelf : BitVec 12)
  /-- SHELVE_COMMIT (R214). -/
  | shelveCommit (shelf : BitVec 12)
  /-- UNSHELVE (R219). -/
  | unshelve (rq : Rq) (payload : List Byte)
  /-- UNSHELVE_SWITCH (R219). -/
  | unshelveSwitch (shelf : BitVec 12)
  /-- UNSHELVE_END (R221). -/
  | unshelveEnd (shelf : BitVec 12)
  /-- SHELF_RELEASE (R213). -/
  | shelfRelease (rq : Rq) (payload : List Byte)
  /-- MANIFEST_BLOCK (R226). -/
  | manifestBlock (rq : Rq)
  /-- HOST_FAILED (R234). -/
  | hostFailed (rq : Rq) (payload : List Byte)
  /-- HOST_CRASH_SCAN_START (R235). -/
  | hostCrashScanStart (port : Fin 32)
  /-- HOST_CRASH_SCAN_END (R239). -/
  | hostCrashScanEnd (port : Fin 32)
  /-- CRASH_BLOCK (R249). -/
  | crashBlock (rq : Rq)
  /-- PUB_DEFINE (R240). -/
  | pubDefine (rq : Rq) (index : BitVec 16) (sub : Byte) (payload : List Byte)
  /-- PUB_DELETE (R240). -/
  | pubDelete (rq : Rq) (region : Byte) (payload : List Byte)
  /-- VIEW_REGION (R246). -/
  | viewRegion (rq : Rq) (room : Fin 64) (window : Fin 16) (payload : List Byte)
  /-- CALL_UNPARK (R264). -/
  | callUnpark (call : BitVec 32)
  /-- CALL_TIMEOUT (R264). -/
  | callTimeout (call : BitVec 32)
  /-- CALL_COMPLETION (R267). -/
  | callCompletion (call : BitVec 32)
  /-- PROG_INSTALL (R274). -/
  | progInstall (rq : Rq) (payload : List Byte)
  /-- PROG_REMOVE (R274). -/
  | progRemove (rq : Rq) (payload : List Byte)
  /-- NOP (R289). -/
  | nop (core : Fin 32) (f : Fields)
  /-- J (R289). -/
  | j (core : Fin 32) (f : Fields)
  /-- JAL (R289). -/
  | jal (core : Fin 32) (f : Fields)
  /-- JR (R289). -/
  | jr (core : Fin 32) (f : Fields)
  /-- BR (R289). -/
  | br (core : Fin 32) (f : Fields)
  /-- FENCE (R289). -/
  | fence (core : Fin 32) (f : Fields)
  /-- STEPEND (R307). -/
  | stepend (core : Fin 32) (f : Fields)
  /-- CYC (R289). -/
  | cyc (core : Fin 32) (f : Fields)
  /-- STAMP (R289). -/
  | stamp (core : Fin 32) (f : Fields)
  /-- ADD (R289). -/
  | add (core : Fin 32) (f : Fields)
  /-- SUB (R289). -/
  | sub (core : Fin 32) (f : Fields)
  /-- MUL (R289). -/
  | mul (core : Fin 32) (f : Fields)
  /-- MULH (R289). -/
  | mulh (core : Fin 32) (f : Fields)
  /-- MULHU (R289). -/
  | mulhu (core : Fin 32) (f : Fields)
  /-- DIV (R290). -/
  | div (core : Fin 32) (f : Fields)
  /-- DIVU (R290). -/
  | divu (core : Fin 32) (f : Fields)
  /-- REM (R290). -/
  | rem (core : Fin 32) (f : Fields)
  /-- REMU (R290). -/
  | remu (core : Fin 32) (f : Fields)
  /-- AND (R289). -/
  | and (core : Fin 32) (f : Fields)
  /-- OR (R289). -/
  | or (core : Fin 32) (f : Fields)
  /-- XOR (R289). -/
  | xor (core : Fin 32) (f : Fields)
  /-- SHL (R289). -/
  | shl (core : Fin 32) (f : Fields)
  /-- SHR (R289). -/
  | shr (core : Fin 32) (f : Fields)
  /-- SAR (R289). -/
  | sar (core : Fin 32) (f : Fields)
  /-- SLT (R289). -/
  | slt (core : Fin 32) (f : Fields)
  /-- SLTU (R289). -/
  | sltu (core : Fin 32) (f : Fields)
  /-- MIN (R289). -/
  | min (core : Fin 32) (f : Fields)
  /-- MAX (R289). -/
  | max (core : Fin 32) (f : Fields)
  /-- LI (R289). -/
  | li (core : Fin 32) (f : Fields)
  /-- FADD (R289). -/
  | fadd (core : Fin 32) (f : Fields)
  /-- FMUL (R289). -/
  | fmul (core : Fin 32) (f : Fields)
  /-- FMAX (R292). -/
  | fmax (core : Fin 32) (f : Fields)
  /-- LDS (R291). -/
  | lds (core : Fin 32) (f : Fields)
  /-- STS (R291). -/
  | sts (core : Fin 32) (f : Fields)
  /-- LDW (R291). -/
  | ldw (core : Fin 32) (f : Fields)
  /-- STW (R291). -/
  | stw (core : Fin 32) (f : Fields)
  /-- MVW (R291). -/
  | mvw (core : Fin 32) (f : Fields)
  /-- WINS (R291). -/
  | wins (core : Fin 32) (f : Fields)
  /-- WEXT (R291). -/
  | wext (core : Fin 32) (f : Fields)
  /-- VADD (R292). -/
  | vadd (core : Fin 32) (f : Fields)
  /-- VSUB (R292). -/
  | vsub (core : Fin 32) (f : Fields)
  /-- VMUL (R292). -/
  | vmul (core : Fin 32) (f : Fields)
  /-- VFMA (R292). -/
  | vfma (core : Fin 32) (f : Fields)
  /-- VMAX (R292). -/
  | vmax (core : Fin 32) (f : Fields)
  /-- VMIN (R292). -/
  | vmin (core : Fin 32) (f : Fields)
  /-- VBCAST (R291). -/
  | vbcast (core : Fin 32) (f : Fields)
  /-- VCVT (R293). -/
  | vcvt (core : Fin 32) (f : Fields)
  /-- VRSUM (R291). -/
  | vrsum (core : Fin 32) (f : Fields)
  /-- VRMAX (R291). -/
  | vrmax (core : Fin 32) (f : Fields)
  /-- VQMX (R299). -/
  | vqmx (core : Fin 32) (f : Fields)
  /-- MXSPLIT (R300). -/
  | mxsplit (core : Fin 32) (f : Fields)
  /-- MMA (R294). -/
  | mma (core : Fin 32) (f : Fields)
  /-- MVAW (R297). -/
  | mvaw (core : Fin 32) (f : Fields)
  /-- MVWA (R297). -/
  | mvwa (core : Fin 32) (f : Fields)
  /-- MVAT (R297). -/
  | mvat (core : Fin 32) (f : Fields)
  /-- MVTA (R297). -/
  | mvta (core : Fin 32) (f : Fields)
  /-- TCLR (R297). -/
  | tclr (core : Fin 32) (f : Fields)
  /-- TSTAT (R297). -/
  | tstat (core : Fin 32) (f : Fields)
  /-- SMX (R301). -/
  | smx (core : Fin 32) (f : Fields)
  /-- EXP2 (R302). -/
  | exp2 (core : Fin 32) (f : Fields)
  /-- TKINIT (R303). -/
  | tkinit (core : Fin 32) (f : Fields)
  /-- TOPK (R303). -/
  | topk (core : Fin 32) (f : Fields)
  /-- SCFG (R304). -/
  | scfg (core : Fin 32) (f : Fields)
  /-- SGO (R305). -/
  | sgo (core : Fin 32) (f : Fields)
  /-- SWAIT (R304). -/
  | swait (core : Fin 32) (f : Fields)
  /-- SSTAT (R304). -/
  | sstat (core : Fin 32) (f : Fields)
  /-- SSTOP (R304). -/
  | sstop (core : Fin 32) (f : Fields)
  /-- STREAM_END (R262). -/
  | streamEnd (core : Fin 32) (ctx : Fin 8)
  /-- STREAM_STOP (R262). -/
  | streamStop (core : Fin 32) (ctx : Fin 8)
  /-- REFRESH_FORCED (R322). -/
  | refreshForced (channel : Fin 128) (rank : Fin 2)
  /-- ROW_IDLE (R319). -/
  | rowIdle (channel : Fin 128) (rank : Fin 2) (bank : Fin 16)
  /-- URGENCY_UPDATE (R320). -/
  | urgencyUpdate
  /-- WRITE_QUEUE_DRAIN (R321). -/
  | writeQueueDrain (channel : Fin 128)
  /-- ROW_HAMMER_REFRESH (R323). -/
  | rowHammerRefresh (channel : Fin 128) (rank : Fin 2) (bank : Fin 16) (row : BitVec 18)
  /-- RH_TABLE_CLEAR (R323). -/
  | rhTableClear
  /-- TRAINING_SWEEP (R324). -/
  | trainingSweep (channel : Fin 128)
  /-- TRAINING_SWEEP_END (R324). -/
  | trainingSweepEnd (channel : Fin 128) (narrowest : BitVec 16) (failedLanes : BitVec 2)
  /-- STORE_SET_POINT_MAX (R325). -/
  | storeSetPointMax (rq : Rq) (payload : List Byte)
  /-- SET_POINT_WAVE (R325). -/
  | setPointWave (wave : Fin 4)
  /-- SET_POINT_RESUME (R325). -/
  | setPointResume (channel : Fin 128)
  /-- RANK_MIGRATION_START (R329). -/
  | rankMigrationStart (region : Fin 4)
  /-- RANK_MIGRATION_END (R329). -/
  | rankMigrationEnd (region : Fin 4) (marked : List BayUnit)
  /-- SLOT_DEAD_COPY_END (R330). -/
  | slotDeadCopyEnd (copy : SlotCopy)
  /-- BANK_MASK (R314). -/
  | bankMask (rq : Rq) (payload : List Byte)
  /-- ROW_PROGRAM_TIMER (R339). -/
  | rowProgramTimer (set relocation : Bool)
  /-- ROW_PROGRAM_DONE (R340). -/
  | rowProgramDone (set relocation : Bool) (ends : RowEnd)
  /-- SUPERBLOCK_ERASE_DONE (R341). -/
  | superblockEraseDone (set : Bool) (way : Fin 8) (block : BitVec 12) (failed : Option BlockFail)
  /-- RELOCATION_START (R351). -/
  | relocationStart (set : Bool)
  /-- READ_DISTURB_RELOCATE (R353). -/
  | readDisturbRelocate (channel : Fin 32) (way : Fin 8) (block : BitVec 12)
  /-- PATROL (R353). -/
  | patrol (set : Bool) (way : Fin 8) (block : BitVec 12) (worn : Bool)
  /-- CELLAR_READ_RECOVERED (R354). -/
  | cellarReadRecovered (slot : BitVec 34) (how : Recovery) (bits : BitVec 32)
  /-- CELLAR_REBUILD_END (R358). -/
  | cellarRebuildEnd (set : Bool)
  /-- MAP_CHECKPOINT (R346). -/
  | mapCheckpoint
  /-- CELLAR_CHANNEL_TRAINING (R337). -/
  | cellarChannelTraining (channel : Fin 32)
  /-- LOFT_SCRUB_PASS (R367). -/
  | loftScrubPass (counts : List LoftCount) (bad : List LoftBad)
  /-- SCRUB_PASS (R380). -/
  | scrubPass (finds : List ScrubFind)
  /-- BRICK_REPAIR (R375). -/
  | brickRepair (brick : BrickId)
  /-- REFERRER_SEARCH_END (R376). -/
  | referrerSearchEnd (slot : BitVec 34)
  /-- REPEAT_ENTRY_EXPIRE (R382). -/
  | repeatEntryExpire (region : Fin 4) (bay : BitVec 31) (unit : Fin 8)
  /-- ROW_WEAK (R383). -/
  | rowWeak (region : Fin 4) (bay : BitVec 31) (unit : Fin 8)
  /-- CEILING_RECOMPUTE (R393). -/
  | ceilingRecompute
  /-- CHARGE_COMPLETE (R389). -/
  | chargeComplete
  /-- CHARGE_RESUME (R389). -/
  | chargeResume (steps : List (BitVec 16))
  /-- CISTERN_FAULT (R392). -/
  | cisternFault (cell : Byte) (cause : PackCause)
  /-- CISTERN_FAULT_CLEAR (R392). -/
  | cisternFaultClear
  /-- CHECK_NOW (R391). -/
  | checkNow (rq : Rq) (payload : List Byte)
  /-- CHECK_INTERVAL (R391). -/
  | checkInterval
  /-- CHECK_DISCHARGE_START (R391). -/
  | checkDischargeStart
  /-- CHECK_DEFER (R391). -/
  | checkDefer
  /-- CISTERN_CHECK (R391). -/
  | cisternCheck (cells : List CellCheck)
  /-- CISTERN_RESERVE (R396). -/
  | cisternReserve (rq : Rq) (payload : List Byte)
  /-- LC_ADVANCE (R410). -/
  | lcAdvance (rq : Rq) (payload : List Byte)
  /-- ALARM (R428). -/
  | alarm (sensors : BitVec 6) (lidLoop : Bool)
  /-- ERASE_DONE (R432). -/
  | eraseDone
  /-- LOCK_RELEASE (R431). -/
  | lockRelease (rq : Rq) (payload : List Byte)
  /-- ALARM_RESPONSE (R429). -/
  | alarmResponse (rq : Rq) (sensor : Fin 6) (payload : List Byte)
  /-- FW_STAGE (R416). -/
  | fwStage (rq : Rq) (image : List Byte)
  /-- FW_ACTIVATE (R416). -/
  | fwActivate (rq : Rq) (payload : List Byte)
  /-- FW_RESTART (R416). -/
  | fwRestart (rq : Rq) (payload : List Byte)
  /-- FW_COMMIT (R416). -/
  | fwCommit (rq : Rq) (payload : List Byte)
  /-- ROOM_KEY_GENERATE (R423). -/
  | roomKeyGenerate (rq : Rq) (room : Fin 64) (payload : List Byte)
  /-- ROOM_KEY_IMPORT (R423). -/
  | roomKeyImport (rq : Rq) (room : Fin 64) (payload : List Byte)
  /-- GET_VERSION (R420). -/
  | getVersion (rq : Rq) (sid : Option (BitVec 32)) (msg : List Byte)
  /-- GET_CAPABILITIES (R420). -/
  | getCapabilities (rq : Rq) (sid : Option (BitVec 32)) (msg : List Byte)
  /-- NEGOTIATE_ALGORITHMS (R420). -/
  | negotiateAlgorithms (rq : Rq) (sid : Option (BitVec 32)) (msg : List Byte)
  /-- GET_DIGESTS (R420). -/
  | getDigests (rq : Rq) (sid : Option (BitVec 32)) (msg : List Byte)
  /-- GET_CERTIFICATE (R420). -/
  | getCertificate (rq : Rq) (sid : Option (BitVec 32)) (msg : List Byte)
  /-- CHALLENGE (R420). -/
  | challenge (rq : Rq) (sid : Option (BitVec 32)) (msg : List Byte)
  /-- GET_MEASUREMENTS (R422). -/
  | getMeasurements (rq : Rq) (sid : Option (BitVec 32)) (msg : List Byte)
  /-- KEY_EXCHANGE (R420). -/
  | keyExchange (rq : Rq) (sid : Option (BitVec 32)) (msg : List Byte)
  /-- FINISH (R420). -/
  | finish (rq : Rq) (sid : Option (BitVec 32)) (msg : List Byte)
  /-- HEARTBEAT (R420). -/
  | heartbeat (rq : Rq) (sid : Option (BitVec 32)) (msg : List Byte)
  /-- KEY_UPDATE (R420). -/
  | keyUpdate (rq : Rq) (sid : Option (BitVec 32)) (msg : List Byte)
  /-- END_SESSION (R420). -/
  | endSession (rq : Rq) (sid : Option (BitVec 32)) (msg : List Byte)
  /-- GET_PQ_CHAIN (R421). -/
  | getPqChain (rq : Rq) (sid : Option (BitVec 32)) (msg : List Byte)
  /-- GET_PQ_SIGNATURE (R421). -/
  | getPqSignature (rq : Rq) (sid : Option (BitVec 32)) (msg : List Byte)
  /-- SPDM_UNSUPPORTED_REQUEST (R420). -/
  | spdmUnsupportedRequest (rq : Rq) (sid : Option (BitVec 32)) (msg : List Byte)
  /-- WRITE (R439). -/
  | write (rq : Rq) (index : BitVec 16) (sub : Byte) (payload : List Byte)
  /-- BLOCK_START (R448). -/
  | blockStart (rq : Rq) (index : BitVec 16) (sub : Byte) (payload : List Byte)
  /-- BLOCK_DATA (R448). -/
  | blockData (rq : Rq) (index : BitVec 16) (sub : Byte) (payload : List Byte)
  /-- BLOCK_END (R448). -/
  | blockEnd (rq : Rq) (index : BitVec 16) (sub : Byte) (payload : List Byte)
  /-- BLOCK_READ (R448). -/
  | blockRead (rq : Rq) (index : BitVec 16) (sub : Byte) (payload : List Byte)
  /-- BLOCK_TRANSFER_TIMEOUT (R448). -/
  | blockTransferTimeout (src : Arrival) (index : BitVec 16) (sub : Byte)
  /-- SESSION_IDLE_TIMEOUT (R449). -/
  | sessionIdleTimeout (mac : BitVec 48)
  /-- UART_FRAME_GAP (R454). -/
  | uartFrameGap
  /-- ENTDAA (R452). -/
  | entdaa (addr : BitVec 7)
  /-- SETDASA (R452). -/
  | setdasa (target addr : BitVec 7)
  /-- RSTDAA (R452). -/
  | rstdaa
  /-- ENEC (R452). -/
  | enec (events : Byte)
  /-- DISEC (R452). -/
  | disec (events : Byte)
  /-- GETPID (R452). -/
  | getpid
  /-- GETBCR (R452). -/
  | getbcr
  /-- GETDCR (R452). -/
  | getdcr
  /-- GETMWL (R452). -/
  | getmwl
  /-- SETMWL (R452). -/
  | setmwl (len : BitVec 16)
  /-- GETMRL (R452). -/
  | getmrl
  /-- SETMRL (R452). -/
  | setmrl (len : BitVec 16)
  /-- GETSTATUS (R452). -/
  | getstatus
  /-- RSTACT (R452). -/
  | rstact (action : Byte)
  /-- PRIVATE_READ (R452). -/
  | privateRead
  /-- FUNCTION_ENABLE (R459). -/
  | functionEnable (rq : Rq) (fn : FnId)
  /-- FUNCTION_DISABLE (R459). -/
  | functionDisable (rq : Rq) (fn : FnId)
  /-- FUNCTION_STARTED (R459). -/
  | functionStarted (fn : FnId)
  /-- FUNCTION_SAFE_POINT (R460). -/
  | functionSafePoint (fn : FnId)
  /-- FUNCTION_STOPPED (R459). -/
  | functionStopped (fn : FnId)
  /-- START_BEGIN (R464). -/
  | startBegin
  /-- START_STEP (R465). -/
  | startStep (e : StepEnd)
  /-- START_STEP_LIMIT (R466). -/
  | startStepLimit (step : Fin 14) (unfinished : List (BitVec 8))
  /-- LEDGER_CLEAR_COUNTS (R480). -/
  | ledgerClearCounts (rq : Rq) (payload : List Byte)
  /-- SLICE_START (R475). -/
  | sliceStart
  /-- SLICE_END (R477). -/
  | sliceEnd (pass : Bool) (measured limit : BitVec 32)
  /-- SELFTEST_FULL (R473). -/
  | selftestFull (rq : Rq) (payload : List Byte) (failed untested : List (BitVec 12))
  /-- BENCH_RESTORE (R479). -/
  | benchRestore (rq : Rq) (payload : List Byte) (pass : Bool)
  /-- VAULT_JOIN (R486). -/
  | vaultJoin (rq : Rq) (payload : List Byte) (views : List PeerView)
  /-- VAULT_LEAVE (R501). -/
  | vaultLeave (rq : Rq) (payload : List Byte)
  /-- PEER_FAILED (R498). -/
  | peerFailed (rq : Rq) (payload : List Byte)
  /-- POOL_GATHER (R501). -/
  | poolGather (rq : Rq) (room : Fin 64) (payload : List Byte)
  /-- JOIN_RETRY (R487). -/
  | joinRetry (views : List PeerView)
  /-- ALIVE_SEND (R498). -/
  | aliveSend
  /-- PEER_SILENCE (R498). -/
  | peerSilence (member : BitVec 12)
  /-- PAGE_MOVE_RESEND (R489). -/
  | pageMoveResend
  /-- MOVE_REQ (R493). -/
  | moveReq (port : Fin 32) (tag : BitVec 12) (src : BitVec 12) (room : Fin 64) (page : BitVec 34)
  /-- MOVE_ORDER (R492). -/
  | moveOrder (port : Fin 32) (tag : BitVec 12) (src : BitVec 12) (room : Fin 64) (page : BitVec 34) (target : BitVec 12)
  /-- MOVE_DATA (R492). -/
  | moveData (port : Fin 32) (tag : BitVec 12) (src : BitVec 12) (room : Fin 64) (page : BitVec 34) (generation : BitVec 32) (data : List Byte)
  /-- MOVE_EMPTY (R492). -/
  | moveEmpty (port : Fin 32) (tag : BitVec 12) (src : BitVec 12) (room : Fin 64) (page : BitVec 34)
  /-- MOVE_SOON (R491). -/
  | moveSoon (port : Fin 32) (tag : BitVec 12) (src : BitVec 12) (room : Fin 64) (page : BitVec 34) (landing : Word)
  /-- MOVE_ACK (R492). -/
  | moveAck (port : Fin 32) (tag : BitVec 12) (src : BitVec 12) (room : Fin 64) (page : BitVec 34) (pinEnd : Word)
  /-- MOVE_RELEASE (R492). -/
  | moveRelease (port : Fin 32) (tag : BitVec 12) (src : BitVec 12) (room : Fin 64) (page : BitVec 34) (done : Bool)
  /-- MOVE_DEFER (R491). -/
  | moveDefer (port : Fin 32) (tag : BitVec 12) (src : BitVec 12) (room : Fin 64) (page : BitVec 34) (cause : BitVec 8) (retry : Word)
  /-- MOVE_REFUSED (R499). -/
  | moveRefused (port : Fin 32) (tag : BitVec 12) (src : BitVec 12) (room : Fin 64) (page : BitVec 34) (cause : BitVec 8)
  /-- MOVE_QUERY (R495). -/
  | moveQuery (port : Fin 32) (tag : BitVec 12) (src : BitVec 12) (room : Fin 64) (page : BitVec 34)
  /-- ALIVE (R488). -/
  | alive (port : Fin 32) (tag : BitVec 12) (src : BitVec 12) (epoch : Word)
  /-- RELAY (R489). -/
  | relay (port : Fin 32) (tag : BitVec 12) (src : BitVec 12) (frame : List Byte)
  /-- THERM_TRIP_N_ASSERTED (R508). -/
  | thermTripNAsserted
  /-- RESET_N_ASSERTED (R508). -/
  | resetNAsserted
  /-- RESET_N_DEASSERTED (R507). -/
  | resetNDeasserted
  /-- SEAT_LOST (R508). -/
  | seatLost
  /-- INPUT_TOGGLING (R509). -/
  | inputToggling (input : Fin 5) (edges : BitVec 16)
  /-- INPUT_FAULTY (R510). -/
  | inputFaulty (input : Fin 2)
  /-- INPUT_REARM (R510). -/
  | inputRearm (rq : Rq) (payload : List Byte)
  /-- INPUT_OVERVOLTAGE (R506). -/
  | inputOvervoltage (peak : BitVec 16)
  /-- INPUT_SWITCH_CLOSE (R506). -/
  | inputSwitchClose
  /-- AUX_LOST (R506). -/
  | auxLost (mv : BitVec 16)
  /-- BENCH_EN_N_ASSERTED (R504). -/
  | benchEnNAsserted
  /-- BENCH_EN_N_DEASSERTED (R427). -/
  | benchEnNDeasserted
  /-- PTP_ANNOUNCE (R58). -/
  | ptpAnnounce (domain : Byte) (a : Announce)
  /-- RUBBLE_BLOCK (R385). -/
  | rubbleBlock (rq : Rq)
  /-- PRESENT_N_ASSERTED (R508). -/
  | presentNAsserted
  /-- INPUT_DEASSERTED (R510). -/
  | inputDeasserted (input : Fin 5)
  /-- BYPASS (R427). -/
  | bypass
  /-- IDCODE (R427). -/
  | idcode
  /-- SAMPLE_PRELOAD (R427). -/
  | samplePreload (data : BitVec 512)
  /-- EXTEST (R427). -/
  | extest
  deriving DecidableEq, Repr

end Sys2Proof
end

