-- ==== Sys2Proof/Config.lean ====
section
/-!
DEFINITION. Sys2Proof/Config.lean: what an implementation fixes and the values the spec leaves open, each an opaque constant of which
nothing can be known. A free value of an event is drawn by the number of the draw.
-/

namespace Sys2Proof.Config

/-- The cycles in a step for which engines stalled on an expander lane (R190): by draw. -/
opaque expandStall : Nat → Nat

/-- The initial threshold of the LPDDR5X device's refresh management, in activates beyond one (R323). -/
opaque refreshThreshold : Nat

/-- The bank pair whose rows the controller precharges for a forced refresh (R322): by draw. -/
opaque refreshPair : Nat → Nat

/-- Which of the values left VRSUM adds next (R292): by draw and choice. -/
opaque sumOrder : Nat → Nat → Nat

/-- Where the 2^x unit lies within its 2 units in the last place (R302): by draw and element. -/
opaque exp2Pick : Nat → Nat → Nat

/-- The output of the Keystone's DRBG (R411): by draw. -/
opaque drbg : Nat → BitVec 512

/-- The unique device secret (R411). -/
opaque deviceSecret : List Byte

/-- The fused SHA-384 of the firmware RSA key and of the firmware SLH-DSA key (R411). -/
opaque fwRsaHash : List Byte
/-- See `fwRsaHash`. -/
opaque fwPqHash : List Byte

/-- An RSA signature over a message verifies under a modulus (R415): modulus, signature, message. -/
opaque rsaVerifies : List Byte → List Byte → List Byte → Bool

/-- An SLH-DSA signature over a message verifies under a public key (R415): key, signature, message. -/
opaque pqVerifies : List Byte → List Byte → List Byte → Bool

/-- The certificate chains that the provisioning station installed verify up to their fused root hashes (R419). -/
opaque chainsVerify : Bool

/-- The RSA chain and the SLH-DSA chain of certificates (R419). -/
opaque rsaChain : List Byte
/-- See `rsaChain`. -/
opaque pqChain : List Byte

/-- The device certificate of the RSA chain (R419, R483). -/
opaque rsaCert : List Byte

/-- A signature of the device's RSA key, and of its SLH-DSA key (R420, R421): by draw, of a message. -/
opaque rsaSign : Nat → List Byte → List Byte
/-- See `rsaSign`. -/
opaque pqSign : Nat → List Byte → List Byte

/-- A member that authenticates itself to this module signs a transcript (R420): transcript, signature. -/
opaque peerSigns : List Byte → List Byte → Bool

/-- The SHA-384 of the root certificate of the RSA chain (R419). -/
opaque rsaRootHash : List Byte

/-- What CAPABILITIES and KEY_EXCHANGE_RSP say of the responder's timing and message sizes (SPDM 1.3, named by R420). -/
opaque spdmCtExponent : Byte
/-- See `spdmCtExponent`. -/
opaque spdmMessageSize : BitVec 32
/-- See `spdmCtExponent`. -/
opaque spdmHeartbeat : Byte

/-- The module's share of a key exchange (R420): by draw. -/
opaque dheShare : Nat → List Byte
/-- The secret that it and the requester's share give: by draw, of that share. -/
opaque dheSecret : Nat → List Byte → List Byte

/-- The 8 parity bytes of an RS(128,120) codeword over GF(2^8), first byte least significant (R79): of its 120 message bytes. -/
opaque fecParity : List Byte → BitVec 64

/-- SHA-384 of the boot ROM (R422). -/
opaque romDigest : List Byte

/-- Umaxawell's enterprise number (R421). -/
opaque vendorId : BitVec 32

/-- The fused serial number (R434) and rack MAC address (R453). -/
opaque serial : List Byte
/-- See `serial`. -/
opaque rackMac : BitVec 48

/-- The 48-bit provisional ID for I3C drawn from the fused serial, and the bus and device characteristics (R452). -/
opaque i3cPid : BitVec 48
/-- See `i3cPid`. -/
opaque i3cBcr : Byte
/-- See `i3cPid`. -/
opaque i3cDcr : Byte

/-- What GETSTATUS answers (R452, R510): with PRESENT_N asserted or not, and with frames waiting or not. -/
opaque i3cStatus : Bool → Bool → BitVec 16

/-- The 32-bit IDCODE of the IEEE 1149.1 port (R427). -/
opaque idcode : BitVec 32

/-- What the boundary-scan cells capture at the pins (R427): by draw. -/
opaque boundarySample : Nat → BitVec 512

/-- The factor of R390's fused table for a cell at a temperature in 0.1 °C, in 1/1,000, but at 25 °C, where it is 1. -/
opaque tempFactor : Nat → Int → Nat

/-- The cause that RANK_MIGRATION_START gives for a rank of a package at its temperature limit, for which R334 lists no code. -/
opaque packageCause : Nat

/-- The bytes a course by which an excess in W reduces the budget, at the modelled energy per byte, which R38 does not give. -/
opaque energyCut : Nat → Nat

/-- What POWER_STATE reads while a start runs, for which R41 lists no code. -/
opaque startPowerState : BitVec 16

/-- PARTNER_INFO, whose layout R104 does not give: by role, hold capability, module index and grants. -/
opaque partnerInfo : Nat → Nat → Nat → List Nat → BitVec 128

/-- The equalisation that training found for a port (R104 TX_EQ). -/
opaque txTrained : Nat → BitVec 160

/-- What the exchanges of a join, a full self-test and a restore bring where the command that asks for them arrives in a frame: the members'
views (R487), the units that fail and those not tested (R473), whether the unit passes (R479); by draw. -/
opaque peerViews : Nat → List PeerView
/-- See `peerViews`. -/
opaque selftestFailed : Nat → List (BitVec 12)
/-- See `peerViews`. -/
opaque selftestUntested : Nat → List (BitVec 12)
/-- See `peerViews`. -/
opaque restorePasses : Nat → Bool

/-- The fused identity of a die or package (R26), in the order of DIE_TEMPS: the logic die, 4 Loft dies, 32 Store packages, 16 Cellar
packages. The spec gives it no width; 128 bits stand for it. -/
opaque dieIdentity : Nat → BitVec 128

/-- The identity in the ONFI parameter page of a NAND die (R26), by 8 times the channel plus the way. -/
opaque nandIdentity : Nat → BitVec 128

/-- The blocks of a NAND die that are marked bad in the factory (R355), by 8 times the channel plus the way; each as 4,096 times the plane plus the
block. -/
opaque factoryMarks : Nat → List Nat

/-- What the centre block and the Keeper draw, in mW (R40). -/
opaque centreLoad : Nat
/-- See `centreLoad`. -/
opaque keeperLoad : Nat

/-- What a region would draw in a course, in mW (R40): by course, region and the core-clock steps it has taken. -/
opaque regionDemand : Nat → Nat → Nat → Nat

/-- The courses without an Announce message after which a PTP master counts as silent (IEEE 1588-2019, named by R58). -/
opaque announceTimeout : Nat

end Sys2Proof.Config
end

