-- ==== Sys2Proof/Machine/Table.lean ====
section
/-!
DEFINITION. Sys2Proof/Machine/Table.lean: sparse tables keyed by a number, and the one canonical byte store.
-/

namespace Sys2Proof.Machine

/-- A sparse table: pairs of key and value, keys rising. -/
abbrev Tbl (α : Type) := List (Nat × α)

/-- The value at a key. -/
def Tbl.find {α : Type} : Tbl α → Nat → Option α
  | [], _ => none
  | (k', v) :: t, k => if k = k' then some v else if k < k' then none else Tbl.find t k

/-- The value at a key, or a default. -/
def Tbl.get {α : Type} (t : Tbl α) (k : Nat) (d : α) : α := (Tbl.find t k).getD d

/-- The table with a value set at a key. -/
def Tbl.put {α : Type} : Tbl α → Nat → α → Tbl α
  | [], k, v => [(k, v)]
  | (k', v') :: t, k, v =>
    if k = k' then (k, v) :: t
    else if k < k' then (k, v) :: (k', v') :: t
    else (k', v') :: Tbl.put t k v

/-- The table without a key. -/
def Tbl.del {α : Type} : Tbl α → Nat → Tbl α
  | [], _ => []
  | (k', v') :: t, k =>
    if k = k' then t else if k < k' then (k', v') :: t else (k', v') :: Tbl.del t k

/-- The value at a key changed by a function, the default where none stands. -/
def Tbl.upd {α : Type} (t : Tbl α) (k : Nat) (d : α) (f : α → α) : Tbl α := Tbl.put t k (f (Tbl.get t k d))

/-- The entries whose key and value pass. -/
def Tbl.keep {α : Type} (t : Tbl α) (p : Nat → α → Bool) : Tbl α := t.filter fun e => p e.1 e.2

/-- Every value changed by a function of its key. -/
def Tbl.each {α : Type} (t : Tbl α) (f : Nat → α → α) : Tbl α := t.map fun e => (e.1, f e.1 e.2)

/-- The sum of a measure over the entries. -/
def Tbl.total {α : Type} (t : Tbl α) (f : Nat → α → Nat) : Nat := t.foldl (fun n e => n + f e.1 e.2) 0

/-- The number of entries that pass. -/
def Tbl.count {α : Type} (t : Tbl α) (p : Nat → α → Bool) : Nat := (Tbl.keep t p).length

/-- The canonical form of a table: keys strictly rising. -/
def Tbl.wf {α : Type} : Tbl α → Bool
  | [] => true
  | [_] => true
  | (k, _) :: (k', v') :: t => decide (k < k') && Tbl.wf ((k', v') :: t)

/-- The byte store of one core's tile store (R271): byte cells, addresses rising, no cell zero. An unlisted address
reads as zero, the content the spec gives a cleared tile store (R273). -/
abbrev Memory := List Host.Cell

/-- The byte at an address. -/
def Memory.read (m : Memory) (a : Nat) : Byte := Tbl.get m a 0

/-- The store with one byte written; writing what an unlisted address reads as removes the cell. -/
def Memory.write (m : Memory) (a : Nat) (b : Byte) : Memory := if b = 0 then Tbl.del m a else Tbl.put m a b

/-- The canonical form of a byte store: addresses strictly rising, and no listed byte is zero. -/
def Memory.wf (m : Memory) : Bool := Tbl.wf m && m.all fun c => decide (c.2 ≠ 0)

/-- The `n` bytes from an address. -/
def Memory.readBytes (m : Memory) (a : Nat) : Nat → List Byte
  | 0 => []
  | n + 1 => Memory.read m a :: Memory.readBytes m (a + 1) n

/-- The store with bytes written from an address up. -/
def Memory.writeBytes (m : Memory) (a : Nat) : List Byte → Memory
  | [] => m
  | b :: bs => Memory.writeBytes (Memory.write m a b) (a + 1) bs

end Sys2Proof.Machine
end

