-- ==== Sys2Proof/Machine/Bits.lean ====
section
/-!
DEFINITION. Sys2Proof/Machine/Bits.lean: bytes, byte order, bit fields, sign extension and the cyclic checks the spec names.
-/

namespace Sys2Proof.Machine

/-- The low `n` bytes of a value, least significant first (R438: values travel little-endian). -/
def leBytes : Nat → Nat → List Byte
  | 0, _ => []
  | n + 1, v => BitVec.ofNat 8 v :: leBytes n (v / 256)

/-- The value of bytes, least significant first. -/
def ofLe : List Byte → Nat
  | [] => 0
  | b :: bs => b.toNat + 256 * ofLe bs

/-- The bits hi down to lo of a value. -/
def bitsOf (v hi lo : Nat) : Nat := (v >>> lo) % 2 ^ (hi + 1 - lo)

/-- Bit n of a value. -/
def bitOf (v n : Nat) : Bool := (v >>> n) % 2 == 1

/-- One bit of a Bool. -/
def bit01 (b : Bool) : Nat := if b then 1 else 0

/-- A value with bit n set or cleared. -/
def setBit (v n : Nat) (b : Bool) : Nat := if b then v ||| (1 <<< n) else if bitOf v n then v ^^^ (1 <<< n) else v

/-- The two's complement reading of the low `n` bits. -/
def signed (n v : Nat) : Int := let w := v % 2 ^ n; if n ≠ 0 ∧ 2 ^ (n - 1) ≤ w then (w : Int) - 2 ^ n else w

/-- The `n`-bit two's complement form of an integer. -/
def unsign (n : Nat) (v : Int) : Nat := (v % (2 ^ n : Int)).toNat

/-- Bytes padded with zeros, or cut, to a length. -/
def fit (n : Nat) (bs : List Byte) : List Byte := (bs ++ List.replicate (n - bs.length) 0).take n

/-- Zero bytes up to a multiple of `m`. -/
def padTo (m : Nat) (bs : List Byte) : List Byte := bs ++ List.replicate ((m - bs.length % m) % m) 0

/-- The bytes of a vector of `8n` bits, byte 0 lowest. -/
def bytesOfBits (n : Nat) (v : Nat) : List Byte := leBytes n v

/-- Eight shift steps of a reflected cyclic check. -/
def reflStep (poly : Nat) : Nat → Nat → Nat
  | 0, c => c
  | n + 1, c => reflStep poly n (if c % 2 = 1 then (c / 2) ^^^ poly else c / 2)

/-- A reflected cyclic check over bytes. -/
def reflCrc (poly : Nat) (c : Nat) : List Byte → Nat
  | [] => c
  | b :: bs => reflCrc poly (reflStep poly 8 (c ^^^ b.toNat)) bs

/-- CRC-32C (R167): polynomial 0x1EDC6F41, reflected, initial value and final XOR all ones. -/
def crc32c (bs : List Byte) : Nat := reflCrc 0x82F63B78 0xFFFFFFFF bs ^^^ 0xFFFFFFFF

/-- Shift steps of an unreflected cyclic check of `w` bits. -/
def plainStep (w poly : Nat) : Nat → Nat → Nat
  | 0, c => c
  | n + 1, c => plainStep w poly n (if 2 ^ (w - 1) ≤ c then (c * 2 % 2 ^ w) ^^^ poly else c * 2)

/-- An unreflected cyclic check of `w` bits over bytes. -/
def plainCrc (w poly : Nat) (c : Nat) : List Byte → Nat
  | [] => c
  | b :: bs => plainCrc w poly (plainStep w poly 8 (c ^^^ (b.toNat <<< (w - 8)))) bs

/-- CRC-16 of a tally entry (R62): polynomial 0x1021, initial value 0xFFFF, unreflected, no final XOR. -/
def crc16 (bs : List Byte) : Nat := plainCrc 16 0x1021 0xFFFF bs

/-- All numbers below `n`, rising, by structural recursion. -/
def upTo (n : Nat) : List Nat := List.range n

/-- The ceiling of a quotient; 0 for a divisor of 0. -/
def ceilDiv (a b : Nat) : Nat := if b = 0 then 0 else (a + b - 1) / b

end Sys2Proof.Machine
end

