-- ==== Sys2Proof/Machine/Aes.lean ====
section
/-!
DEFINITION. Sys2Proof/Machine/Aes.lean: the ciphers that R11 names: AES-256 (FIPS 197), AES-256-XTS (IEEE 1619) over whole blocks,
AES-256-GCM (SP 800-38D), AES key wrap (RFC 3394), HMAC-SHA-384 (FIPS 198-1), the counter-mode KDF over it (SP 800-108) and the expansion of
HKDF that SPDM's key schedule uses. Bytes stand as numbers below 256.
-/

namespace Sys2Proof.Machine

/- ## AES-256 on one block -/

/-- A byte times x in the field of AES (polynomial 0x11B). -/
def aesTwo (a : Nat) : Nat := if 128 ≤ a then (2 * a) ^^^ 0x11B else 2 * a

/-- The substitution of all bytes, byte a in bits 8a to 8a+7. -/
def aesBox : Nat :=
  0x16bb54b00f2d99416842e6bf0d89a18cdf2855cee9871e9b948ed9691198f8e19e1dc186b95735610ef6034866b53e708a8bbd4b1f74dde8c6b4a61c2e2578ba08ae7a65eaf4566ca94ed58d6d37c8e779e4959162acd3c25c2406490a3a32e0db0b5ede14b8ee4688902a22dc4f816073195d643d7ea7c41744975fec130ccdd2f3ff1021dab6bcf5389d928f40a351a89f3c507f02f94585334d43fbaaefd0cf584c4a39becb6a5bb1fc20ed00d153842fe329b3d63b52a05a6e1b1a2c830975b227ebe28012079a059618c323c7041531d871f1e5a534ccf73f362693fdb7c072a49cafa2d4adf04759fa7dc982ca76abd7fe2b670130c56f6bf27b777c63

/-- The inverse substitution of all bytes, likewise. -/
def aesUnbox : Nat :=
  0x7d0c2155631469e126d677ba7e042b17619953833cbbebc8b0f52aae4d3be0a0ef9cc9939f7ae52d0d4ab519a97f51605fec8027591012b131c7078833a8dd1ff45acd78fec0db9a2079d2c64b3e56fc1bbe18aa0e62b76f89c5291d711af1476edf751ce837f9e28535ade72274ac9673e6b4f0cecff297eadc674f4111913a6b8a130103bdafc1020f3fca8f1e2cd00645b3b80558e4f70ad3bc8c00abd890849d8da75746155edab9edfd5048706c92b6655dcc5ca4d41698688664f6f87225d18b6d49a25b76b224d92866a12e084ec3fa420b954cee3d23c2a632947b54cbe9dec444438e3487ff2f9b8239e37cfbd7f3819ea340bf38a53630d56a0952

/-- The substitution of a byte. -/
def aesSub (a : Nat) : Nat := (aesBox >>> (8 * a)) % 256

/-- The inverse substitution of a byte. -/
def aesUnsub (a : Nat) : Nat := (aesUnbox >>> (8 * a)) % 256

/-- Bytes added. -/
def aesXor (a b : List Nat) : List Nat := List.zipWith (· ^^^ ·) a b

/-- The words of the key schedule of AES-256 after the first eight, newest first; `rc` is the round constant. -/
def aesExpand : Nat → Nat → Nat → List (List Nat) → List (List Nat)
  | 0, _, _, ws => ws
  | n + 1, i, rc, ws =>
    let last := ws.headD []
    let old := ws.getD 7 []
    let t := if i % 8 = 0 then aesXor ((last.drop 1 ++ last.take 1).map aesSub) [rc, 0, 0, 0]
      else if i % 8 = 4 then last.map aesSub else last
    aesExpand n (i + 1) (if i % 8 = 0 then aesTwo rc else rc) (aesXor old t :: ws)

/-- Fifteen round keys of 16 bytes. -/
def aesKeys (key : List Nat) : List (List Nat) :=
  let ws := ((upTo 8).map fun i => (key.drop (4 * i)).take 4).reverse
  let all := (aesExpand 52 8 1 ws).reverse
  (upTo 15).map fun r => ((all.drop (4 * r)).take 4).flatten

/-- The rows of a state in columns shifted. -/
def aesShift (st : List Nat) : List Nat := (upTo 16).map fun i => st.getD ((i + 4 * (i % 4)) % 16) 0

/-- The shift taken back. -/
def aesUnshift (st : List Nat) : List Nat := (upTo 16).map fun i => st.getD ((i + 12 * (i % 4)) % 16) 0

/-- One column mixed. -/
def aesColumn (c : List Nat) : List Nat :=
  (upTo 4).map fun i =>
    let g (k : Nat) : Nat := c.getD ((i + k) % 4) 0
    aesTwo (g 0) ^^^ aesTwo (g 1) ^^^ g 1 ^^^ g 2 ^^^ g 3

/-- The columns mixed. -/
def aesMix (st : List Nat) : List Nat := (upTo 4).flatMap fun i => aesColumn ((st.drop (4 * i)).take 4)

/-- The columns unmixed: the mixing is of order four. -/
def aesUnmix (st : List Nat) : List Nat := aesMix (aesMix (aesMix st))

/-- One block encrypted under round keys. -/
def aesBlock (keys : List (List Nat)) (block : List Nat) : List Nat :=
  match keys with
  | [] => block
  | k :: ks =>
    let mid := (ks.take 13).foldl (fun st k => aesXor (aesMix (aesShift (st.map aesSub))) k) (aesXor block k)
    aesXor (aesShift (mid.map aesSub)) (ks.getLastD [])

/-- One block decrypted under round keys. -/
def aesUnblock (keys : List (List Nat)) (block : List Nat) : List Nat :=
  match keys.reverse with
  | [] => block
  | k :: ks =>
    let first := (aesUnshift (aesXor block k)).map aesUnsub
    let mid := (ks.take 13).foldl (fun st k => (aesUnshift (aesUnmix (aesXor st k))).map aesUnsub) first
    aesXor mid (ks.getLastD [])

/-- One block encrypted under a key of 32 bytes. -/
def aes256 (key block : List Nat) : List Nat := aesBlock (aesKeys key) block

/-- Bytes as numbers. -/
def natsOf (bs : List Byte) : List Nat := bs.map (·.toNat)

/-- Numbers as bytes. -/
def bytesOfNats (ns : List Nat) : List Byte := ns.map (BitVec.ofNat 8)

/- ## AES-256-XTS (R195, R196) -/

/-- The tweak of the next block of a data unit (IEEE 1619): times x in GF(2^128), byte 0 the least significant. -/
def xtsNext (t : Nat) : Nat := if 2 ^ 127 ≤ t then (2 * t % 2 ^ 128) ^^^ 0x87 else 2 * t

/-- `n` blocks of a data unit in order, each between two additions of its tweak. -/
def xtsBlocks (f : List Nat → List Nat) : Nat → Nat → List Nat → List Nat
  | 0, _, _ => []
  | n + 1, t, bs =>
    let tw := natsOf (leBytes 16 t)
    aesXor (f (aesXor (bs.take 16) tw)) tw ++ xtsBlocks f n (xtsNext t) (bs.drop 16)

/-- The first block's tweak: the tweak value encrypted under key2, the upper half of the pair (R195). -/
def xtsFirst (key : BitVec 512) (tweak : Nat) : Nat :=
  ofLe (bytesOfNats (aes256 (natsOf (leBytes 32 (key.toNat / 2 ^ 256))) (natsOf (leBytes 16 tweak))))

/-- A data unit encrypted under a key pair and a tweak value; it is whole blocks, so no ciphertext is stolen (R195). -/
def xtsSeal (key : BitVec 512) (tweak : Nat) (plain : List Byte) : List Byte :=
  if plain.isEmpty then []
  else bytesOfNats (xtsBlocks (aesBlock (aesKeys (natsOf (leBytes 32 (key.toNat % 2 ^ 256))))) (plain.length / 16) (xtsFirst key tweak)
    (natsOf plain))

/-- A data unit decrypted. -/
def xtsOpen (key : BitVec 512) (tweak : Nat) (cipher : List Byte) : List Byte :=
  if cipher.isEmpty then []
  else bytesOfNats (xtsBlocks (aesUnblock (aesKeys (natsOf (leBytes 32 (key.toNat % 2 ^ 256))))) (cipher.length / 16) (xtsFirst key tweak)
    (natsOf cipher))

/-- The 128-bit tweak value (R196): room, page, unit, generation and version above 35 zero bits. -/
def tweakOf (room page unit gen version : Nat) : Nat :=
  room % 2 ^ 6 * 2 ^ 122 + page % 2 ^ 34 * 2 ^ 88 + unit % 2 ^ 5 * 2 ^ 83 + gen % 2 ^ 32 * 2 ^ 51 + version % 2 ^ 16 * 2 ^ 35

/- ## Key wrap (RFC 3394, R424) -/

/-- The bytes of a number, most significant first. -/
def beOf (n v : Nat) : List Nat := (natsOf (leBytes n v)).reverse

/-- One step of a wrap: the register A and the eight-byte words R, of which word `i` is taken at step `t`. -/
def wrapStep (keys : List (List Nat)) (n t : Nat) (x : List Nat × List (List Nat)) : List Nat × List (List Nat) :=
  let i := (t - 1) % n
  let b := aesBlock keys (x.1 ++ x.2.getD i [])
  (aesXor (b.take 8) (beOf 8 t), x.2.set i (b.drop 8))

/-- One step of an unwrap. -/
def unwrapStep (keys : List (List Nat)) (n t : Nat) (x : List Nat × List (List Nat)) : List Nat × List (List Nat) :=
  let i := (t - 1) % n
  let b := aesUnblock keys (aesXor x.1 (beOf 8 t) ++ x.2.getD i [])
  (b.take 8, x.2.set i (b.drop 8))

/-- The initial value of RFC 3394. -/
def wrapIv : List Nat := List.replicate 8 0xA6

/-- Bytes wrapped under a key: 8 bytes longer. -/
def keyWrap (kek : List Byte) (plain : List Byte) : List Byte :=
  let keys := aesKeys (natsOf kek)
  let n := plain.length / 8
  let r := (upTo n).map fun i => ((natsOf plain).drop (8 * i)).take 8
  let x := (upTo (6 * n)).foldl (fun x t => wrapStep keys n (t + 1) x) (wrapIv, r)
  bytesOfNats (x.1 ++ x.2.flatten)

/-- Wrapped bytes unwrapped; none where the initial value does not come back. -/
def keyUnwrap (kek : List Byte) (wrapped : List Byte) : Option (List Byte) :=
  let keys := aesKeys (natsOf kek)
  let n := wrapped.length / 8 - 1
  let ws := natsOf wrapped
  let r := (upTo n).map fun i => (ws.drop (8 * (i + 1))).take 8
  let x := (upTo (6 * n)).reverse.foldl (fun x t => unwrapStep keys n (t + 1) x) (ws.take 8, r)
  if x.1 = wrapIv then some (bytesOfNats x.2.flatten) else none

/- ## HMAC and the KDF (FIPS 198-1, SP 800-108, R413) -/

/-- HMAC-SHA-384. -/
def hmac384 (key msg : List Byte) : List Byte :=
  let k := fit 128 (if 128 < key.length then sha384 key else key)
  sha384 (k.map (· ^^^ 0x5C) ++ sha384 (k.map (· ^^^ 0x36) ++ msg))

/-- A key of 256 bits by the counter-mode KDF over HMAC-SHA-384, of which one turn suffices: the counter and the length in bits as
32-bit big-endian numbers, a zero byte after the label (PRESUMED: the encodings SP 800-108 gives as examples, which R413 leaves open). -/
def kdf256 (secret label context : List Byte) : List Byte :=
  (hmac384 secret (bytesOfNats (beOf 4 1) ++ label ++ [0] ++ context ++ bytesOfNats (beOf 4 256))).take 32

/- ## AES-256-GCM (NIST SP 800-38D; R11, R420) -/

/-- Bytes, most significant first, as a number. -/
def ofBe (bs : List Nat) : Nat := bs.foldl (fun n b => 256 * n + b) 0

/-- A product in the field of GHASH; bit 127 of a number is the coefficient of 1. `n` bits of `x` are still to be taken. -/
def ghashMul (x : Nat) : Nat → Nat → Nat → Nat
  | 0, _, z => z
  | n + 1, v, z => ghashMul x n (if v % 2 = 1 then (v / 2) ^^^ (0xE1 * 2 ^ 120) else v / 2) (if x / 2 ^ n % 2 = 1 then z ^^^ v else z)

/-- GHASH of `n` blocks. -/
def ghash (h : Nat) : Nat → Nat → List Nat → Nat
  | 0, y, _ => y
  | n + 1, y, bs => ghash h n (ghashMul (y ^^^ ofBe (bs.take 16)) 128 h 0) (bs.drop 16)

/-- Bytes padded with zeros to whole blocks. -/
def blockPad (bs : List Nat) : List Nat := bs ++ List.replicate ((16 - bs.length % 16) % 16) 0

/-- The key stream of GCM from counter `c` on, over `n` blocks. -/
def gcmStream (keys : List (List Nat)) (iv : List Nat) : Nat → Nat → List Nat
  | 0, _ => []
  | n + 1, c => aesBlock keys (iv ++ beOf 4 c) ++ gcmStream keys iv n (c + 1)

/-- Bytes under the key stream: encryption and decryption are the same. -/
def gcmCrypt (key iv data : List Nat) : List Nat := aesXor data (gcmStream (aesKeys key) iv ((data.length + 15) / 16) 2)

/-- The tag of a ciphertext and of what is authenticated beside it. -/
def gcmTag (key iv aad cipher : List Nat) : List Nat :=
  let keys := aesKeys key
  let h := ofBe (aesBlock keys (List.replicate 16 0))
  let all := blockPad aad ++ blockPad cipher ++ beOf 8 (8 * aad.length) ++ beOf 8 (8 * cipher.length)
  aesXor (beOf 16 (ghash h (all.length / 16) 0 all)) (aesBlock keys (iv ++ beOf 4 1))

/-- Bytes encrypted with their tag of 16 bytes behind. -/
def gcmSeal (key iv aad plain : List Byte) : List Byte :=
  let c := gcmCrypt (natsOf key) (natsOf iv) (natsOf plain)
  bytesOfNats (c ++ gcmTag (natsOf key) (natsOf iv) (natsOf aad) c)

/-- The plaintext of such bytes; none where the tag is another. -/
def gcmOpen (key iv aad sealed_ : List Byte) : Option (List Byte) :=
  let c := (natsOf sealed_).take (sealed_.length - 16)
  if 16 ≤ sealed_.length ∧ (natsOf sealed_).drop (sealed_.length - 16) = gcmTag (natsOf key) (natsOf iv) (natsOf aad) c then
    some (bytesOfNats (gcmCrypt (natsOf key) (natsOf iv) c))
  else none

/-- HKDF-Expand over HMAC-SHA-384 (RFC 5869), of at most 48 bytes. -/
def hkdfExpand (secret info : List Byte) (n : Nat) : List Byte := (hmac384 secret (info ++ [1])).take n

end Sys2Proof.Machine
end

