-- ==== Sys2Proof/Machine/Catalogue.lean ====
section
/-!
DEFINITION. Sys2Proof/Machine/Catalogue.lean: the object dictionary's entries (R437, R438, R441 and the entry tables of
every chapter): index, sub-index, type, access, port-class mask, default and range, one row an entry.
-/

namespace Sys2Proof.Machine

/-- The types of R438. -/
inductive Ty where
  | bool | u8 | u16 | u32 | u64 | i32 | stamp | enum | octets | string
  deriving DecidableEq, Repr

/-- The access kinds of R439. -/
inductive Acc where
  | ro | rw | wo | cmd
  deriving DecidableEq, Repr

/-- How far a mask admits a Tenant port (R441). -/
inductive TenantScope where
  | none | any | own | owner | publisher | query
  deriving DecidableEq, Repr

/-- How far a mask admits the Vault class (R441). -/
inductive VaultScope where
  | no | ro | rw
  deriving DecidableEq, Repr

/-- A port-class mask (R441). -/
structure Mask where
  steward : Bool
  tenant : TenantScope
  tenantRO : Bool
  vault : VaultScope
  board : Bool
  rack : Bool
  bench : Bool
  deriving DecidableEq, Repr

/-- The values an entry takes on a write, as its Meaning column lists them. -/
inductive Rng where
  | any
  | within (lo hi : Nat)
  | pow2 (lo hi : Nat)
  | oneOf (vs : List Nat)
  deriving DecidableEq, Repr

/-- One row of an entry table (R437). Index instances lie `istep` apart, sub-index instances `sstep` apart; with `wide`
the upper half of the sub-index instances stands at the next index (windows 8 to 15, chapter Rooms). -/
structure Row where
  index : Nat
  istep : Nat
  icount : Nat
  sub : Nat
  sstep : Nat
  scount : Nat
  wide : Bool
  ty : Ty
  acc : Acc
  octets : Nat
  dflt : Nat
  rng : Rng
  mask : Mask
  persist : Bool
  staged : Bool
  session : Bool
  deriving DecidableEq, Repr

/-- The entries of the object dictionary, by name. -/
inductive Ent where
  | powerState
  | powerCap
  | quietEnter
  | quietExit
  | inputPower
  | governorStep
  | stampNow
  | epochTai
  | epochHistory
  | timeState
  | timeOffset
  | timeSource
  | ptpDomain
  | tallyWritten
  | tallyDrained
  | tallyOldest
  | tallyCursor
  | tallyBlock
  | tallyFilter
  | notifyMinSeverity
  | portRole
  | portWidth
  | portLinkState
  | holdEnable
  | holdThreshold
  | laneMap
  | fecCorrected
  | crcReplays
  | retrainCount
  | partnerInfo
  | portMinWidth
  | txEq
  | laneFecLimit
  | roomSize
  | roomLoftQuota
  | roomStoreQuota
  | roomCellarQuota
  | roomOverdraft
  | roomOwnerPorts
  | roomRawThreshold
  | roomErase
  | loftUsed
  | storeUsed
  | cellarUsed
  | overdraftBorrowed
  | quotaRefusals
  | loftSpillCount
  | expandStall
  | storeQuotaEffective
  | windowBase
  | windowSize
  | windowAttr
  | windowPages
  | classFloor
  | classCeiling
  | classLatencyTarget
  | classFloorEffective
  | classServed
  | missCount
  | configCommit
  | configStatus
  | configDetail
  | configDiscard
  | deliverableBudget
  | admitPercent
  | floorSum
  | overdraftReserve
  | overdraftFree
  | budgetDetail
  | loftHotCapacity
  | loftHotUsed
  | loftQuotaScale
  | loftPromoteHeat
  | heatHalfLife
  | storeOvershoot
  | storeLowWater
  | writebackIdle
  | writebackAgeMax
  | dirtyStored
  | landingUsed
  | cellarReadBacklog
  | pageQuery
  | pageStatus
  | promoteRate
  | stairRoom
  | stairMode
  | stairStepCount
  | stairLookahead
  | stairLookaheadMax
  | stairClass
  | stairTarget
  | stairWrap
  | stairPosition
  | stairLateCount
  | stairLastLateness
  | stairStatus
  | stairStep
  | brickMismatches
  | brickQuery
  | brickRecord
  | pageGeneration
  | tableSlotsUsed
  | tableQuery
  | tableBinding
  | tableImage
  | landingDwell
  | tableLoadSlot
  | tableLoadImage
  | tableFree
  | codecLanes
  | roomTableMode
  | packedLoadSrc
  | packedLoadDst
  | packedLoadPages
  | packedLoadGo
  | packedLoadStatus
  | tableBind
  | windowTables
  | shelfSelect
  | shelfRoom
  | shelfRanges
  | shelfClass
  | shelfFlags
  | shelfDeltaTable
  | shelfState
  | shelfLastVersion
  | shelfVersions
  | shelfCommand
  | shelfResult
  | shelfDigest
  | manifestVersion
  | manifestCursor
  | manifestBlock
  | shelfRecordersFree
  | unshelveStairsFree
  | dirEntriesUsed
  | dirRecalls
  | dirLost
  | hostFailed
  | scanPorts
  | crashCursor
  | crashBlock
  | dirRecallWarn
  | pubRegionsUsed
  | pubRoom
  | pubBase
  | pubSize
  | pubVersion
  | pubVersions
  | pubLastStatus
  | pubDelete
  | viewRegion
  | viewVersion
  | viewStatus
  | coresInService
  | callQueueUsed
  | callTimeout
  | progSelect
  | progRooms
  | progDigest
  | progImage
  | progInstall
  | progRemove
  | progStatus
  | progStoreFree
  | callQuery
  | callStatus
  | coreLeaseRoom
  | coreClock
  | coreEngines
  | coreSteps
  | coreOverruns
  | coreColdStarts
  | storeSetPoint
  | storeSetPointMax
  | bankMask
  | rowIdle
  | rhThreshold
  | trainInterval
  | storeBaysFree
  | bayReserve
  | rankMigration
  | sparesLeft
  | storeCoreTarget
  | rankMap
  | portStoreTarget
  | chState
  | rankState
  | chTrained
  | chCorrected
  | chUncorrected
  | chRhRefreshes
  | chForcedRefresh
  | chTemp
  | cellarChannels
  | cellarDiesRetired
  | zoneReady
  | erasedSuperblocks
  | cellarMargin
  | readDisturbLimit
  | patrolInterval
  | rebuildShare
  | mapReplayMax
  | wearUsed
  | cellarProgrammed
  | slotsFree
  | slotLow
  | cchState
  | cchDies
  | cchBadBlocks
  | cchCorrected
  | cchRecoveries
  | cchLost
  | scrubPeriod
  | scrubProgress
  | scrubPasses
  | storeCorrected
  | repeatUsed
  | rubbleRows
  | rubbleCursor
  | rubbleBlock
  | loftCeLimit
  | loftCorrected
  | parityErrors
  | bricksRepaired
  | cisternState
  | packVoltage
  | cellVoltages
  | cellTemps
  | cellCapacitance
  | cellEsr
  | packEnergy
  | dirtyCeiling
  | ceilingByEnergy
  | flushEnergy
  | cisternReserve
  | writeThrough
  | checkInterval
  | checkNow
  | lastCheck
  | packHealth
  | braceLimit
  | lastFlush
  | partNumber
  | serial
  | lifecycle
  | lcEntriesLeft
  | lcAdvance
  | sealEpoch
  | fwRunning
  | fwSlots
  | fwStage
  | fwActivate
  | fwCommit
  | fwRestart
  | rollbackCounter
  | lockState
  | lockRelease
  | alarmResponse
  | spdmMessage
  | spdmVendorId
  | roomKeyGenerate
  | roomKeyImport
  | roomKeyState
  | roomKeyCheck
  | portFunction
  | coreFunction
  | roomFunction
  | stairFunction
  | stairFunctionHi
  | scrubFunction
  | cellarChannelFunction
  | i3cStaticAddr
  | i3cDynamicAddr
  | plcaNodeId
  | plcaNodeCount
  | rackEthertype
  | rackMac
  | rackNotifyMac
  | odRequests
  | odFramesDiscarded
  | notifyDropped
  | odSessions
  | startSeq
  | startStepNow
  | startOutcome
  | ledgerCursor
  | ledgerRecord
  | retiredUnits
  | failCounts
  | ledgerClearCounts
  | selftestEnable
  | sliceInterval
  | sliceMargin
  | sliceStatus
  | sliceRounds
  | selftestFull
  | selftestReport
  | benchRestore
  | vaultState
  | moduleIndex
  | vaultEpoch
  | memberTable
  | vaultDigest
  | digestExpected
  | compatBand
  | vaultJoin
  | vaultLeave
  | peerFailed
  | peerQuery
  | peerStatus
  | joinStatus
  | vaultLossCourses
  | poolDwell
  | forwardRecords
  | poolMembers
  | poolStripe
  | poolWindows
  | poolGather
  | poolPagesHome
  | poolPagesLent
  | discreteInputs
  | inputsFaulty
  | inputRearm
  | inputVoltage
  | auxVoltage
  | dieTempMax
  | dieTemps
  | outputs
  deriving DecidableEq, Repr

/-- A port-class mask of the entry tables (R441). -/
def mask0 : Mask := ⟨true, .any, false, .no, true, true, true⟩
/-- A port-class mask of the entry tables (R441). -/
def mask1 : Mask := ⟨true, .none, false, .no, true, false, false⟩
/-- A port-class mask of the entry tables (R441). -/
def mask2 : Mask := ⟨true, .none, false, .no, false, false, false⟩
/-- A port-class mask of the entry tables (R441). -/
def mask3 : Mask := ⟨true, .any, false, .rw, true, true, true⟩
/-- A port-class mask of the entry tables (R441). -/
def mask4 : Mask := ⟨true, .none, false, .no, false, true, false⟩
/-- A port-class mask of the entry tables (R441). -/
def mask5 : Mask := ⟨false, .none, false, .no, false, false, true⟩
/-- A port-class mask of the entry tables (R441). -/
def mask6 : Mask := ⟨true, .own, true, .no, false, false, false⟩
/-- A port-class mask of the entry tables (R441). -/
def mask7 : Mask := ⟨true, .own, false, .no, false, false, false⟩
/-- A port-class mask of the entry tables (R441). -/
def mask8 : Mask := ⟨true, .query, false, .no, false, false, false⟩
/-- A port-class mask of the entry tables (R441). -/
def mask9 : Mask := ⟨true, .owner, false, .no, false, false, false⟩
/-- A port-class mask of the entry tables (R441). -/
def mask10 : Mask := ⟨true, .any, false, .no, false, false, false⟩
/-- A port-class mask of the entry tables (R441). -/
def mask11 : Mask := ⟨true, .owner, true, .no, false, false, false⟩
/-- A port-class mask of the entry tables (R441). -/
def mask12 : Mask := ⟨true, .publisher, true, .no, false, false, false⟩
/-- A port-class mask of the entry tables (R441). -/
def mask13 : Mask := ⟨true, .publisher, false, .no, false, false, false⟩
/-- A port-class mask of the entry tables (R441). -/
def mask14 : Mask := ⟨true, .none, false, .no, false, false, true⟩
/-- A port-class mask of the entry tables (R441). -/
def mask15 : Mask := ⟨true, .none, false, .rw, true, true, false⟩
/-- A port-class mask of the entry tables (R441). -/
def mask16 : Mask := ⟨true, .none, false, .no, true, false, true⟩
/-- A port-class mask of the entry tables (R441). -/
def mask17 : Mask := ⟨true, .none, false, .ro, false, false, false⟩

/-- The row of each entry. -/
def Ent.row : Ent → Row
  | .powerState => ⟨0xC000, 0, 1, 0x01, 0, 1, false, .enum, .ro, 0, 0, .any, mask0, false, false, false⟩
  | .powerCap => ⟨0xC000, 0, 1, 0x02, 0, 1, false, .u16, .rw, 0, 650, .within 300 650, mask1, true, false, false⟩
  | .quietEnter => ⟨0xC000, 0, 1, 0x03, 0, 1, false, .u8, .cmd, 0, 0, .any, mask2, false, false, false⟩
  | .quietExit => ⟨0xC000, 0, 1, 0x04, 0, 1, false, .u8, .cmd, 0, 0, .any, mask1, false, false, false⟩
  | .inputPower => ⟨0xC000, 0, 1, 0x05, 0, 1, false, .u16, .ro, 0, 0, .any, mask0, false, false, false⟩
  | .governorStep => ⟨0xC000, 0, 1, 0x06, 0, 1, false, .u8, .ro, 0, 0, .any, mask0, false, false, false⟩
  | .stampNow => ⟨0x1200, 0, 1, 0x01, 0, 1, false, .stamp, .ro, 0, 0, .any, mask3, false, false, false⟩
  | .epochTai => ⟨0x1200, 0, 1, 0x02, 0, 1, false, .u64, .ro, 0, 0, .any, mask3, false, false, false⟩
  | .epochHistory => ⟨0x1200, 0, 1, 0x03, 0, 1, false, .octets, .ro, 256, 0, .any, mask3, false, false, false⟩
  | .timeState => ⟨0x1200, 0, 1, 0x04, 0, 1, false, .enum, .ro, 0, 0, .any, mask3, false, false, false⟩
  | .timeOffset => ⟨0x1200, 0, 1, 0x05, 0, 1, false, .i32, .ro, 0, 0, .any, mask3, false, false, false⟩
  | .timeSource => ⟨0x1200, 0, 1, 0x06, 0, 1, false, .enum, .ro, 0, 0, .any, mask3, false, false, false⟩
  | .ptpDomain => ⟨0x1200, 0, 1, 0x07, 0, 1, false, .u8, .rw, 0, 0, .within 0 127, mask4, true, false, false⟩
  | .tallyWritten => ⟨0x1200, 0, 1, 0x10, 0, 1, false, .u64, .ro, 0, 0, .any, mask3, false, false, false⟩
  | .tallyDrained => ⟨0x1200, 0, 1, 0x11, 0, 1, false, .u64, .ro, 0, 0, .any, mask3, false, false, false⟩
  | .tallyOldest => ⟨0x1200, 0, 1, 0x12, 0, 1, false, .u64, .ro, 0, 0, .any, mask3, false, false, false⟩
  | .tallyCursor => ⟨0x1200, 0, 1, 0x13, 0, 1, false, .u64, .rw, 0, 0, .any, mask3, false, false, true⟩
  | .tallyBlock => ⟨0x1200, 0, 1, 0x14, 0, 1, false, .octets, .ro, 256, 0, .any, mask3, false, false, false⟩
  | .tallyFilter => ⟨0x1200, 0, 1, 0x15, 0, 1, false, .u16, .rw, 0, 0, .any, mask3, false, false, true⟩
  | .notifyMinSeverity => ⟨0x1200, 0, 1, 0x16, 0, 1, false, .u8, .rw, 0, 2, .any, mask2, true, false, false⟩
  | .portRole => ⟨0x1100, 1, 32, 0x01, 0, 1, false, .enum, .rw, 0, 0, .within 0 3, mask2, true, false, false⟩
  | .portWidth => ⟨0x1100, 1, 32, 0x02, 0, 1, false, .u8, .ro, 0, 0, .any, mask0, false, false, false⟩
  | .portLinkState => ⟨0x1100, 1, 32, 0x03, 0, 1, false, .enum, .ro, 0, 0, .any, mask0, false, false, false⟩
  | .holdEnable => ⟨0x1100, 1, 32, 0x04, 0, 1, false, .bool, .rw, 0, 1, .within 0 1, mask2, true, false, false⟩
  | .holdThreshold => ⟨0x1100, 1, 32, 0x05, 0, 1, false, .u8, .rw, 0, 4, .within 1 64, mask2, true, false, false⟩
  | .laneMap => ⟨0x1100, 1, 32, 0x06, 0, 1, false, .u8, .ro, 0, 0, .any, mask0, false, false, false⟩
  | .fecCorrected => ⟨0x1100, 1, 32, 0x07, 0, 1, false, .u64, .ro, 0, 0, .any, mask0, false, false, false⟩
  | .crcReplays => ⟨0x1100, 1, 32, 0x08, 0, 1, false, .u64, .ro, 0, 0, .any, mask0, false, false, false⟩
  | .retrainCount => ⟨0x1100, 1, 32, 0x09, 0, 1, false, .u32, .ro, 0, 0, .any, mask0, false, false, false⟩
  | .partnerInfo => ⟨0x1100, 1, 32, 0x0A, 0, 1, false, .octets, .ro, 16, 0, .any, mask0, false, false, false⟩
  | .portMinWidth => ⟨0x1100, 1, 32, 0x0B, 0, 1, false, .u8, .rw, 0, 1, .oneOf [1, 2, 4], mask2, true, false, false⟩
  | .txEq => ⟨0x1100, 1, 32, 0x0C, 0, 1, false, .octets, .rw, 20, 0, .any, mask5, false, false, false⟩
  | .laneFecLimit => ⟨0x1120, 0, 1, 0x01, 0, 1, false, .u32, .rw, 0, 2000000, .any, mask2, true, false, false⟩
  | .roomSize => ⟨0x4000, 16, 64, 0x01, 0, 1, false, .u64, .rw, 0, 0, .any, mask6, true, true, false⟩
  | .roomLoftQuota => ⟨0x4000, 16, 64, 0x02, 0, 1, false, .u64, .rw, 0, 0, .any, mask6, true, true, false⟩
  | .roomStoreQuota => ⟨0x4000, 16, 64, 0x03, 0, 1, false, .u64, .rw, 0, 0, .any, mask6, true, true, false⟩
  | .roomCellarQuota => ⟨0x4000, 16, 64, 0x04, 0, 1, false, .u64, .rw, 0, 0, .any, mask6, true, true, false⟩
  | .roomOverdraft => ⟨0x4000, 16, 64, 0x05, 0, 1, false, .u16, .rw, 0, 0, .within 0 200, mask6, true, true, false⟩
  | .roomOwnerPorts => ⟨0x4000, 16, 64, 0x06, 0, 1, false, .u32, .rw, 0, 0, .any, mask6, true, true, false⟩
  | .roomRawThreshold => ⟨0x4000, 16, 64, 0x07, 0, 1, false, .u8, .rw, 0, 7, .within 5 7, mask2, true, true, false⟩
  | .roomErase => ⟨0x4000, 16, 64, 0x08, 0, 1, false, .u8, .cmd, 0, 0, .any, mask2, false, false, false⟩
  | .loftUsed => ⟨0x4001, 16, 64, 0x01, 0, 1, false, .u64, .ro, 0, 0, .any, mask7, false, false, false⟩
  | .storeUsed => ⟨0x4001, 16, 64, 0x02, 0, 1, false, .u64, .ro, 0, 0, .any, mask7, false, false, false⟩
  | .cellarUsed => ⟨0x4001, 16, 64, 0x03, 0, 1, false, .u64, .ro, 0, 0, .any, mask7, false, false, false⟩
  | .overdraftBorrowed => ⟨0x4001, 16, 64, 0x04, 0, 1, false, .u64, .ro, 0, 0, .any, mask7, false, false, false⟩
  | .quotaRefusals => ⟨0x4001, 16, 64, 0x05, 0, 1, false, .u32, .ro, 0, 0, .any, mask7, false, false, false⟩
  | .loftSpillCount => ⟨0x4001, 16, 64, 0x06, 0, 1, false, .u64, .ro, 0, 0, .any, mask7, false, false, false⟩
  | .expandStall => ⟨0x4001, 16, 64, 0x07, 0, 1, false, .u64, .ro, 0, 0, .any, mask7, false, false, false⟩
  | .storeQuotaEffective => ⟨0x4001, 16, 64, 0x08, 0, 1, false, .u64, .ro, 0, 0, .any, mask7, false, false, false⟩
  | .windowBase => ⟨0x4002, 16, 64, 0x01, 16, 16, true, .u64, .rw, 0, 0, .any, mask6, true, true, false⟩
  | .windowSize => ⟨0x4002, 16, 64, 0x02, 16, 16, true, .u64, .rw, 0, 0, .any, mask6, true, true, false⟩
  | .windowAttr => ⟨0x4002, 16, 64, 0x03, 16, 16, true, .u32, .rw, 0, 470810624, .any, mask6, true, true, false⟩
  | .windowPages => ⟨0x4002, 16, 64, 0x04, 16, 16, true, .u64, .ro, 0, 0, .any, mask7, false, false, false⟩
  | .classFloor => ⟨0x4800, 1, 64, 0x01, 16, 8, false, .u32, .rw, 0, 0, .any, mask6, true, true, false⟩
  | .classCeiling => ⟨0x4800, 1, 64, 0x02, 16, 8, false, .u32, .rw, 0, 4294967295, .any, mask6, true, true, false⟩
  | .classLatencyTarget => ⟨0x4800, 1, 64, 0x03, 16, 8, false, .u32, .rw, 0, 0, .any, mask6, true, true, false⟩
  | .classFloorEffective => ⟨0x4800, 1, 64, 0x04, 16, 8, false, .u32, .ro, 0, 0, .any, mask7, false, false, false⟩
  | .classServed => ⟨0x4800, 1, 64, 0x05, 16, 8, false, .u32, .ro, 0, 0, .any, mask7, false, false, false⟩
  | .missCount => ⟨0x4800, 1, 64, 0x06, 16, 8, false, .u32, .ro, 0, 0, .any, mask7, false, false, false⟩
  | .configCommit => ⟨0x4840, 0, 1, 0x01, 0, 1, false, .u8, .cmd, 0, 0, .any, mask2, false, false, false⟩
  | .configStatus => ⟨0x4840, 0, 1, 0x02, 0, 1, false, .enum, .ro, 0, 0, .any, mask2, false, false, false⟩
  | .configDetail => ⟨0x4840, 0, 1, 0x03, 0, 1, false, .u32, .ro, 0, 0, .any, mask2, false, false, false⟩
  | .configDiscard => ⟨0x4840, 0, 1, 0x04, 0, 1, false, .u8, .cmd, 0, 0, .any, mask2, false, false, false⟩
  | .deliverableBudget => ⟨0x4840, 0, 1, 0x05, 0, 1, false, .u32, .ro, 0, 0, .any, mask0, false, false, false⟩
  | .admitPercent => ⟨0x4840, 0, 1, 0x06, 0, 1, false, .u8, .rw, 0, 90, .within 50 100, mask2, true, true, false⟩
  | .floorSum => ⟨0x4840, 0, 1, 0x07, 0, 1, false, .u32, .ro, 0, 0, .any, mask2, false, false, false⟩
  | .overdraftReserve => ⟨0x4840, 0, 1, 0x08, 0, 1, false, .u64, .rw, 0, 520000000000, .any, mask2, true, true, false⟩
  | .overdraftFree => ⟨0x4840, 0, 1, 0x09, 0, 1, false, .u64, .ro, 0, 0, .any, mask2, false, false, false⟩
  | .budgetDetail => ⟨0x4840, 0, 1, 0x0A, 0, 1, false, .octets, .ro, 16, 0, .any, mask2, false, false, false⟩
  | .loftHotCapacity => ⟨0x3000, 0, 1, 0x01, 0, 1, false, .u64, .ro, 0, 6442450944, .any, mask0, false, false, false⟩
  | .loftHotUsed => ⟨0x3000, 0, 1, 0x02, 0, 1, false, .u64, .ro, 0, 0, .any, mask0, false, false, false⟩
  | .loftQuotaScale => ⟨0x3000, 0, 1, 0x03, 0, 1, false, .u16, .ro, 0, 1000, .any, mask0, false, false, false⟩
  | .loftPromoteHeat => ⟨0x3000, 0, 1, 0x04, 0, 1, false, .u8, .rw, 0, 8, .within 1 255, mask2, true, false, false⟩
  | .heatHalfLife => ⟨0x3000, 0, 1, 0x05, 0, 1, false, .u32, .rw, 0, 4096, .pow2 256 1048576, mask2, true, false, false⟩
  | .storeOvershoot => ⟨0x3000, 0, 1, 0x06, 0, 1, false, .u16, .rw, 0, 100, .within 10 200, mask2, true, false, false⟩
  | .storeLowWater => ⟨0x3000, 0, 1, 0x07, 0, 1, false, .u8, .rw, 0, 98, .within 90 99, mask2, true, false, false⟩
  | .writebackIdle => ⟨0x3000, 0, 1, 0x08, 0, 1, false, .u32, .rw, 0, 50000, .any, mask2, true, false, false⟩
  | .writebackAgeMax => ⟨0x3000, 0, 1, 0x09, 0, 1, false, .u32, .rw, 0, 500000, .any, mask2, true, false, false⟩
  | .dirtyStored => ⟨0x3000, 0, 1, 0x0A, 0, 1, false, .u64, .ro, 0, 0, .any, mask0, false, false, false⟩
  | .landingUsed => ⟨0x3000, 0, 1, 0x0B, 0, 1, false, .u32, .ro, 0, 0, .any, mask0, false, false, false⟩
  | .cellarReadBacklog => ⟨0x3000, 0, 1, 0x0C, 0, 1, false, .u64, .ro, 0, 0, .any, mask0, false, false, false⟩
  | .pageQuery => ⟨0x3000, 0, 1, 0x0D, 0, 1, false, .u64, .rw, 0, 0, .any, mask8, false, false, true⟩
  | .pageStatus => ⟨0x3000, 0, 1, 0x0E, 0, 1, false, .u32, .ro, 0, 0, .any, mask8, false, false, false⟩
  | .promoteRate => ⟨0x3000, 0, 1, 0x10, 0, 1, false, .u8, .rw, 0, 64, .within 1 255, mask2, true, false, false⟩
  | .stairRoom => ⟨0x3400, 1, 256, 0x01, 0, 1, false, .u8, .rw, 0, 255, .any, mask2, true, false, false⟩
  | .stairMode => ⟨0x3400, 1, 256, 0x02, 0, 1, false, .enum, .rw, 0, 0, .within 0 1, mask9, false, false, false⟩
  | .stairStepCount => ⟨0x3400, 1, 256, 0x03, 0, 1, false, .u8, .rw, 0, 0, .within 1 255, mask9, false, false, false⟩
  | .stairLookahead => ⟨0x3400, 1, 256, 0x04, 0, 1, false, .u8, .rw, 0, 1, .any, mask9, false, false, false⟩
  | .stairLookaheadMax => ⟨0x3400, 1, 256, 0x05, 0, 1, false, .u8, .rw, 0, 4, .within 1 16, mask9, false, false, false⟩
  | .stairClass => ⟨0x3400, 1, 256, 0x06, 0, 1, false, .u8, .rw, 0, 7, .within 0 7, mask9, false, false, false⟩
  | .stairTarget => ⟨0x3400, 1, 256, 0x07, 0, 1, false, .enum, .rw, 0, 0, .within 0 1, mask9, false, false, false⟩
  | .stairWrap => ⟨0x3400, 1, 256, 0x08, 0, 1, false, .bool, .rw, 0, 1, .within 0 1, mask9, false, false, false⟩
  | .stairPosition => ⟨0x3400, 1, 256, 0x09, 0, 1, false, .u8, .ro, 0, 0, .any, mask9, false, false, false⟩
  | .stairLateCount => ⟨0x3400, 1, 256, 0x0A, 0, 1, false, .u32, .ro, 0, 0, .any, mask9, false, false, false⟩
  | .stairLastLateness => ⟨0x3400, 1, 256, 0x0B, 0, 1, false, .u32, .ro, 0, 0, .any, mask9, false, false, false⟩
  | .stairStatus => ⟨0x3400, 1, 256, 0x0C, 0, 1, false, .u8, .ro, 0, 0, .any, mask9, false, false, false⟩
  | .stairStep => ⟨0x3500, 1, 256, 0x01, 1, 255, false, .octets, .rw, 24, 0, .any, mask9, false, false, false⟩
  | .brickMismatches => ⟨0x5000, 0, 1, 0x01, 0, 1, false, .u64, .ro, 0, 0, .any, mask0, false, false, false⟩
  | .brickQuery => ⟨0x5000, 0, 1, 0x02, 0, 1, false, .u64, .rw, 0, 0, .any, mask8, false, false, true⟩
  | .brickRecord => ⟨0x5000, 0, 1, 0x03, 0, 1, false, .u64, .ro, 0, 0, .any, mask8, false, false, false⟩
  | .pageGeneration => ⟨0x5000, 0, 1, 0x04, 0, 1, false, .u32, .ro, 0, 0, .any, mask8, false, false, false⟩
  | .tableSlotsUsed => ⟨0x5000, 0, 1, 0x05, 0, 1, false, .u16, .ro, 0, 0, .any, mask0, false, false, false⟩
  | .tableQuery => ⟨0x5000, 0, 1, 0x06, 0, 1, false, .u16, .rw, 0, 0, .any, mask8, false, false, true⟩
  | .tableBinding => ⟨0x5000, 0, 1, 0x07, 0, 1, false, .u64, .ro, 0, 0, .any, mask8, false, false, false⟩
  | .tableImage => ⟨0x5000, 0, 1, 0x08, 0, 1, false, .octets, .ro, 136, 0, .any, mask8, false, false, false⟩
  | .landingDwell => ⟨0x5000, 0, 1, 0x09, 0, 1, false, .u8, .rw, 0, 2, .within 1 64, mask2, true, false, false⟩
  | .tableLoadSlot => ⟨0x5000, 0, 1, 0x0A, 0, 1, false, .u16, .rw, 0, 0, .within 0 4095, mask2, false, false, true⟩
  | .tableLoadImage => ⟨0x5000, 0, 1, 0x0B, 0, 1, false, .octets, .wo, 136, 0, .any, mask2, false, false, false⟩
  | .tableFree => ⟨0x5000, 0, 1, 0x0C, 0, 1, false, .u16, .cmd, 0, 0, .any, mask2, false, false, false⟩
  | .codecLanes => ⟨0x5000, 0, 1, 0x0D, 0, 1, false, .u32, .ro, 0, 0, .any, mask0, false, false, false⟩
  | .roomTableMode => ⟨0x4004, 16, 64, 0x01, 0, 1, false, .enum, .rw, 0, 1, .within 0 1, mask6, true, true, false⟩
  | .packedLoadSrc => ⟨0x4004, 16, 64, 0x02, 0, 1, false, .u64, .rw, 0, 0, .any, mask7, false, false, false⟩
  | .packedLoadDst => ⟨0x4004, 16, 64, 0x03, 0, 1, false, .u64, .rw, 0, 0, .any, mask7, false, false, false⟩
  | .packedLoadPages => ⟨0x4004, 16, 64, 0x04, 0, 1, false, .u32, .rw, 0, 0, .any, mask7, false, false, false⟩
  | .packedLoadGo => ⟨0x4004, 16, 64, 0x05, 0, 1, false, .u8, .cmd, 0, 0, .any, mask7, false, false, false⟩
  | .packedLoadStatus => ⟨0x4004, 16, 64, 0x06, 0, 1, false, .u64, .ro, 0, 0, .any, mask7, false, false, false⟩
  | .tableBind => ⟨0x4004, 16, 64, 0x10, 1, 32, false, .u16, .rw, 0, 0, .any, mask6, true, false, false⟩
  | .windowTables => ⟨0x4002, 16, 64, 0x05, 16, 16, true, .u32, .rw, 0, 0, .any, mask6, true, true, false⟩
  | .shelfSelect => ⟨0x3800, 0, 1, 0x01, 0, 1, false, .u16, .rw, 0, 0, .within 0 4095, mask10, false, false, true⟩
  | .shelfRoom => ⟨0x3800, 0, 1, 0x02, 0, 1, false, .u8, .rw, 0, 255, .any, mask11, true, false, false⟩
  | .shelfRanges => ⟨0x3800, 0, 1, 0x03, 0, 1, false, .octets, .rw, 256, 0, .any, mask9, true, false, false⟩
  | .shelfClass => ⟨0x3800, 0, 1, 0x04, 0, 1, false, .u8, .rw, 0, 7, .within 0 7, mask9, true, false, false⟩
  | .shelfFlags => ⟨0x3800, 0, 1, 0x05, 0, 1, false, .u8, .rw, 0, 0, .any, mask9, true, false, false⟩
  | .shelfDeltaTable => ⟨0x3800, 0, 1, 0x06, 0, 1, false, .u8, .rw, 0, 255, .any, mask9, true, false, false⟩
  | .shelfState => ⟨0x3800, 0, 1, 0x07, 0, 1, false, .enum, .ro, 0, 0, .any, mask9, false, false, false⟩
  | .shelfLastVersion => ⟨0x3800, 0, 1, 0x08, 0, 1, false, .u32, .ro, 0, 0, .any, mask9, false, false, false⟩
  | .shelfVersions => ⟨0x3800, 0, 1, 0x09, 0, 1, false, .octets, .ro, 128, 0, .any, mask9, false, false, false⟩
  | .shelfCommand => ⟨0x3800, 0, 1, 0x0A, 0, 1, false, .octets, .wo, 16, 0, .any, mask9, false, false, false⟩
  | .shelfResult => ⟨0x3800, 0, 1, 0x0B, 0, 1, false, .octets, .ro, 48, 0, .any, mask9, false, false, false⟩
  | .shelfDigest => ⟨0x3800, 0, 1, 0x0C, 0, 1, false, .octets, .ro, 48, 0, .any, mask9, false, false, false⟩
  | .manifestVersion => ⟨0x3800, 0, 1, 0x0D, 0, 1, false, .u32, .rw, 0, 0, .any, mask9, false, false, true⟩
  | .manifestCursor => ⟨0x3800, 0, 1, 0x0E, 0, 1, false, .u64, .rw, 0, 0, .any, mask9, false, false, true⟩
  | .manifestBlock => ⟨0x3800, 0, 1, 0x0F, 0, 1, false, .octets, .ro, 256, 0, .any, mask9, false, false, false⟩
  | .shelfRecordersFree => ⟨0x3800, 0, 1, 0x10, 0, 1, false, .u16, .ro, 0, 256, .any, mask0, false, false, false⟩
  | .unshelveStairsFree => ⟨0x3800, 0, 1, 0x11, 0, 1, false, .u8, .ro, 0, 64, .any, mask0, false, false, false⟩
  | .dirEntriesUsed => ⟨0x5800, 0, 1, 0x01, 0, 1, false, .u32, .ro, 0, 0, .any, mask0, false, false, false⟩
  | .dirRecalls => ⟨0x5800, 0, 1, 0x02, 0, 1, false, .u64, .ro, 0, 0, .any, mask0, false, false, false⟩
  | .dirLost => ⟨0x5800, 0, 1, 0x03, 0, 1, false, .u32, .ro, 0, 0, .any, mask0, false, false, false⟩
  | .hostFailed => ⟨0x5800, 0, 1, 0x04, 0, 1, false, .u8, .cmd, 0, 0, .any, mask2, false, false, false⟩
  | .scanPorts => ⟨0x5800, 0, 1, 0x05, 0, 1, false, .u32, .ro, 0, 0, .any, mask0, false, false, false⟩
  | .crashCursor => ⟨0x5800, 0, 1, 0x06, 0, 1, false, .u32, .rw, 0, 0, .any, mask2, false, false, true⟩
  | .crashBlock => ⟨0x5800, 0, 1, 0x07, 0, 1, false, .octets, .ro, 256, 0, .any, mask2, false, false, false⟩
  | .dirRecallWarn => ⟨0x5800, 0, 1, 0x08, 0, 1, false, .u32, .rw, 0, 65536, .any, mask2, true, false, false⟩
  | .pubRegionsUsed => ⟨0x5800, 0, 1, 0x09, 0, 1, false, .u16, .ro, 0, 0, .any, mask0, false, false, false⟩
  | .pubRoom => ⟨0x5900, 1, 256, 0x01, 0, 1, false, .u8, .rw, 0, 255, .any, mask12, true, false, false⟩
  | .pubBase => ⟨0x5900, 1, 256, 0x02, 0, 1, false, .u64, .rw, 0, 0, .any, mask12, true, false, false⟩
  | .pubSize => ⟨0x5900, 1, 256, 0x03, 0, 1, false, .u64, .rw, 0, 0, .any, mask12, true, false, false⟩
  | .pubVersion => ⟨0x5900, 1, 256, 0x04, 0, 1, false, .u32, .ro, 0, 0, .any, mask0, false, false, false⟩
  | .pubVersions => ⟨0x5900, 1, 256, 0x05, 0, 1, false, .octets, .ro, 128, 0, .any, mask0, false, false, false⟩
  | .pubLastStatus => ⟨0x5900, 1, 256, 0x06, 0, 1, false, .u32, .ro, 0, 0, .any, mask13, false, false, false⟩
  | .pubDelete => ⟨0x5900, 1, 256, 0x07, 0, 1, false, .u8, .cmd, 0, 0, .any, mask2, false, false, false⟩
  | .viewRegion => ⟨0x5A00, 1, 64, 0x01, 1, 16, false, .u16, .rw, 0, 0, .any, mask6, true, false, false⟩
  | .viewVersion => ⟨0x5A00, 1, 64, 0x11, 1, 16, false, .u32, .ro, 0, 0, .any, mask7, false, false, false⟩
  | .viewStatus => ⟨0x5A00, 1, 64, 0x21, 1, 16, false, .u8, .ro, 0, 0, .any, mask7, false, false, false⟩
  | .coresInService => ⟨0x8000, 0, 1, 0x01, 0, 1, false, .u32, .ro, 0, 4294967295, .any, mask0, false, false, false⟩
  | .callQueueUsed => ⟨0x8000, 0, 1, 0x02, 0, 1, false, .u16, .ro, 0, 0, .any, mask0, false, false, false⟩
  | .callTimeout => ⟨0x8000, 0, 1, 0x03, 0, 1, false, .u32, .rw, 0, 5000000, .within 1000 300000000, mask2, true, false, false⟩
  | .progSelect => ⟨0x8000, 0, 1, 0x04, 0, 1, false, .u32, .rw, 0, 0, .any, mask2, false, false, true⟩
  | .progRooms => ⟨0x8000, 0, 1, 0x05, 0, 1, false, .u64, .rw, 0, 0, .any, mask2, true, false, false⟩
  | .progDigest => ⟨0x8000, 0, 1, 0x06, 0, 1, false, .octets, .rw, 48, 0, .any, mask2, false, false, false⟩
  | .progImage => ⟨0x8000, 0, 1, 0x07, 0, 1, false, .octets, .wo, 16777216, 0, .any, mask2, false, false, false⟩
  | .progInstall => ⟨0x8000, 0, 1, 0x08, 0, 1, false, .u8, .cmd, 0, 0, .any, mask2, false, false, false⟩
  | .progRemove => ⟨0x8000, 0, 1, 0x09, 0, 1, false, .u8, .cmd, 0, 0, .any, mask2, false, false, false⟩
  | .progStatus => ⟨0x8000, 0, 1, 0x0A, 0, 1, false, .u8, .ro, 0, 0, .any, mask2, false, false, false⟩
  | .progStoreFree => ⟨0x8000, 0, 1, 0x0B, 0, 1, false, .u32, .ro, 0, 16777216, .any, mask2, false, false, false⟩
  | .callQuery => ⟨0x8000, 0, 1, 0x0C, 0, 1, false, .u32, .rw, 0, 0, .any, mask8, false, false, true⟩
  | .callStatus => ⟨0x8000, 0, 1, 0x0D, 0, 1, false, .octets, .ro, 16, 0, .any, mask8, false, false, false⟩
  | .coreLeaseRoom => ⟨0x8100, 1, 32, 0x01, 0, 1, false, .u8, .ro, 0, 255, .any, mask2, false, false, false⟩
  | .coreClock => ⟨0x8100, 1, 32, 0x02, 0, 1, false, .u16, .ro, 0, 1200, .any, mask0, false, false, false⟩
  | .coreEngines => ⟨0x8100, 1, 32, 0x03, 0, 1, false, .u8, .ro, 0, 15, .any, mask0, false, false, false⟩
  | .coreSteps => ⟨0x8100, 1, 32, 0x04, 0, 1, false, .u64, .ro, 0, 0, .any, mask2, false, false, false⟩
  | .coreOverruns => ⟨0x8100, 1, 32, 0x05, 0, 1, false, .u32, .ro, 0, 0, .any, mask2, false, false, false⟩
  | .coreColdStarts => ⟨0x8100, 1, 32, 0x06, 0, 1, false, .u32, .ro, 0, 0, .any, mask2, false, false, false⟩
  | .storeSetPoint => ⟨0x6000, 0, 1, 0x01, 0, 1, false, .enum, .ro, 0, 0, .any, mask0, false, false, false⟩
  | .storeSetPointMax => ⟨0x6000, 0, 1, 0x02, 0, 1, false, .enum, .rw, 0, 0, .within 0 2, mask2, true, false, false⟩
  | .bankMask => ⟨0x6000, 0, 1, 0x03, 0, 1, false, .octets, .rw, 16, 0, .any, mask5, true, false, false⟩
  | .rowIdle => ⟨0x6000, 0, 1, 0x04, 0, 1, false, .u16, .rw, 0, 60, .within 8 1000, mask2, true, false, false⟩
  | .rhThreshold => ⟨0x6000, 0, 1, 0x05, 0, 1, false, .u16, .rw, 0, 2000, .within 500 8000, mask2, true, false, false⟩
  | .trainInterval => ⟨0x6000, 0, 1, 0x06, 0, 1, false, .u32, .rw, 0, 150000000, .any, mask2, true, false, false⟩
  | .storeBaysFree => ⟨0x6000, 0, 1, 0x07, 0, 1, false, .u64, .ro, 0, 0, .any, mask0, false, false, false⟩
  | .bayReserve => ⟨0x6000, 0, 1, 0x08, 0, 1, false, .u32, .rw, 0, 8000, .within 1000 20000, mask2, true, false, false⟩
  | .rankMigration => ⟨0x6000, 0, 1, 0x09, 0, 1, false, .octets, .ro, 32, 0, .any, mask0, false, false, false⟩
  | .sparesLeft => ⟨0x6000, 0, 1, 0x0A, 0, 1, false, .u8, .ro, 0, 170, .any, mask0, false, false, false⟩
  | .storeCoreTarget => ⟨0x6000, 0, 1, 0x0B, 0, 1, false, .u32, .rw, 0, 2000, .any, mask2, true, false, false⟩
  | .rankMap => ⟨0x6000, 0, 1, 0x0C, 0, 1, false, .octets, .ro, 256, 0, .any, mask0, false, false, false⟩
  | .portStoreTarget => ⟨0x6100, 0, 1, 0x01, 1, 32, false, .u32, .rw, 0, 1000, .within 100 1000000, mask2, true, false, false⟩
  | .chState => ⟨0x6200, 1, 128, 0x01, 0, 1, false, .enum, .ro, 0, 0, .any, mask0, false, false, false⟩
  | .rankState => ⟨0x6200, 1, 128, 0x02, 0, 1, false, .u8, .ro, 0, 0, .any, mask0, false, false, false⟩
  | .chTrained => ⟨0x6200, 1, 128, 0x03, 0, 1, false, .octets, .ro, 24, 0, .any, mask0, false, false, false⟩
  | .chCorrected => ⟨0x6200, 1, 128, 0x04, 0, 1, false, .u64, .ro, 0, 0, .any, mask0, false, false, false⟩
  | .chUncorrected => ⟨0x6200, 1, 128, 0x05, 0, 1, false, .u32, .ro, 0, 0, .any, mask0, false, false, false⟩
  | .chRhRefreshes => ⟨0x6200, 1, 128, 0x06, 0, 1, false, .u32, .ro, 0, 0, .any, mask0, false, false, false⟩
  | .chForcedRefresh => ⟨0x6200, 1, 128, 0x07, 0, 1, false, .u32, .ro, 0, 0, .any, mask0, false, false, false⟩
  | .chTemp => ⟨0x6200, 1, 128, 0x08, 0, 1, false, .i32, .ro, 0, 0, .any, mask0, false, false, false⟩
  | .cellarChannels => ⟨0x6800, 0, 1, 0x01, 0, 1, false, .u32, .ro, 0, 4294967295, .any, mask0, false, false, false⟩
  | .cellarDiesRetired => ⟨0x6800, 0, 1, 0x02, 0, 1, false, .u16, .ro, 0, 0, .any, mask0, false, false, false⟩
  | .zoneReady => ⟨0x6800, 0, 1, 0x03, 0, 1, false, .u64, .ro, 0, 0, .any, mask0, false, false, false⟩
  | .erasedSuperblocks => ⟨0x6800, 0, 1, 0x04, 0, 1, false, .u32, .ro, 0, 0, .any, mask0, false, false, false⟩
  | .cellarMargin => ⟨0x6800, 0, 1, 0x05, 0, 1, false, .u16, .ro, 0, 0, .any, mask0, false, false, false⟩
  | .readDisturbLimit => ⟨0x6800, 0, 1, 0x06, 0, 1, false, .u32, .rw, 0, 200000, .within 50000 1000000, mask2, true, false, false⟩
  | .patrolInterval => ⟨0x6800, 0, 1, 0x07, 0, 1, false, .u64, .rw, 0, 302400000000, .within 43200000000 18446744073709551615, mask2, true, false, false⟩
  | .rebuildShare => ⟨0x6800, 0, 1, 0x08, 0, 1, false, .u8, .rw, 0, 25, .within 10 50, mask2, true, false, false⟩
  | .mapReplayMax => ⟨0x6800, 0, 1, 0x09, 0, 1, false, .u32, .rw, 0, 32000, .within 4000 64000, mask2, true, false, false⟩
  | .wearUsed => ⟨0x6800, 0, 1, 0x0A, 0, 1, false, .u16, .ro, 0, 0, .any, mask0, false, false, false⟩
  | .cellarProgrammed => ⟨0x6800, 0, 1, 0x0B, 0, 1, false, .u64, .ro, 0, 0, .any, mask0, false, false, false⟩
  | .slotsFree => ⟨0x6800, 0, 1, 0x0C, 0, 1, false, .u64, .ro, 0, 0, .any, mask0, false, false, false⟩
  | .slotLow => ⟨0x6800, 0, 1, 0x0D, 0, 1, false, .u32, .rw, 0, 16777216, .within 1048576 100000000, mask2, true, false, false⟩
  | .cchState => ⟨0x6900, 1, 32, 0x01, 0, 1, false, .enum, .ro, 0, 0, .any, mask0, false, false, false⟩
  | .cchDies => ⟨0x6900, 1, 32, 0x02, 0, 1, false, .u8, .ro, 0, 255, .any, mask0, false, false, false⟩
  | .cchBadBlocks => ⟨0x6900, 1, 32, 0x03, 0, 1, false, .u32, .ro, 0, 0, .any, mask0, false, false, false⟩
  | .cchCorrected => ⟨0x6900, 1, 32, 0x04, 0, 1, false, .u64, .ro, 0, 0, .any, mask0, false, false, false⟩
  | .cchRecoveries => ⟨0x6900, 1, 32, 0x05, 0, 1, false, .u32, .ro, 0, 0, .any, mask0, false, false, false⟩
  | .cchLost => ⟨0x6900, 1, 32, 0x06, 0, 1, false, .u32, .ro, 0, 0, .any, mask0, false, false, false⟩
  | .scrubPeriod => ⟨0x7000, 0, 1, 0x01, 0, 1, false, .u16, .rw, 0, 24, .within 1 168, mask2, true, false, false⟩
  | .scrubProgress => ⟨0x7000, 0, 1, 0x02, 0, 1, false, .u32, .ro, 0, 0, .any, mask0, false, false, false⟩
  | .scrubPasses => ⟨0x7000, 0, 1, 0x03, 0, 1, false, .u32, .ro, 0, 0, .any, mask0, false, false, false⟩
  | .storeCorrected => ⟨0x7000, 0, 1, 0x04, 0, 1, false, .u64, .ro, 0, 0, .any, mask0, false, false, false⟩
  | .repeatUsed => ⟨0x7000, 0, 1, 0x05, 0, 1, false, .u64, .ro, 0, 0, .any, mask0, false, false, false⟩
  | .rubbleRows => ⟨0x7000, 0, 1, 0x06, 0, 1, false, .u64, .ro, 0, 0, .any, mask0, false, false, false⟩
  | .rubbleCursor => ⟨0x7000, 0, 1, 0x07, 0, 1, false, .u16, .rw, 0, 0, .any, mask2, false, false, true⟩
  | .rubbleBlock => ⟨0x7000, 0, 1, 0x08, 0, 1, false, .octets, .ro, 128, 0, .any, mask2, false, false, false⟩
  | .loftCeLimit => ⟨0x7000, 0, 1, 0x09, 0, 1, false, .u32, .rw, 0, 256, .within 16 65536, mask2, true, false, false⟩
  | .loftCorrected => ⟨0x7000, 0, 1, 0x0A, 0, 1, false, .u64, .ro, 0, 0, .any, mask0, false, false, false⟩
  | .parityErrors => ⟨0x7000, 0, 1, 0x0B, 0, 1, false, .u64, .ro, 0, 0, .any, mask0, false, false, false⟩
  | .bricksRepaired => ⟨0x7000, 0, 1, 0x0C, 0, 1, false, .u64, .ro, 0, 0, .any, mask0, false, false, false⟩
  | .cisternState => ⟨0x7800, 0, 1, 0x01, 0, 1, false, .enum, .ro, 0, 0, .any, mask0, false, false, false⟩
  | .packVoltage => ⟨0x7800, 0, 1, 0x02, 0, 1, false, .u16, .ro, 0, 0, .any, mask0, false, false, false⟩
  | .cellVoltages => ⟨0x7800, 0, 1, 0x03, 0, 1, false, .octets, .ro, 24, 0, .any, mask0, false, false, false⟩
  | .cellTemps => ⟨0x7800, 0, 1, 0x04, 0, 1, false, .octets, .ro, 24, 0, .any, mask0, false, false, false⟩
  | .cellCapacitance => ⟨0x7800, 0, 1, 0x05, 0, 1, false, .octets, .ro, 24, 0, .any, mask0, false, false, false⟩
  | .cellEsr => ⟨0x7800, 0, 1, 0x06, 0, 1, false, .octets, .ro, 24, 0, .any, mask0, false, false, false⟩
  | .packEnergy => ⟨0x7800, 0, 1, 0x07, 0, 1, false, .u32, .ro, 0, 0, .any, mask0, false, false, false⟩
  | .dirtyCeiling => ⟨0x7800, 0, 1, 0x08, 0, 1, false, .u64, .ro, 0, 0, .any, mask0, false, false, false⟩
  | .ceilingByEnergy => ⟨0x7800, 0, 1, 0x09, 0, 1, false, .u64, .ro, 0, 0, .any, mask0, false, false, false⟩
  | .flushEnergy => ⟨0x7800, 0, 1, 0x0A, 0, 1, false, .u16, .ro, 0, 440, .any, mask0, false, false, false⟩
  | .cisternReserve => ⟨0x7800, 0, 1, 0x0B, 0, 1, false, .u16, .rw, 0, 1000, .within 1000 3000, mask2, true, false, false⟩
  | .writeThrough => ⟨0x7800, 0, 1, 0x0C, 0, 1, false, .bool, .ro, 0, 1, .any, mask0, false, false, false⟩
  | .checkInterval => ⟨0x7800, 0, 1, 0x0D, 0, 1, false, .u64, .rw, 0, 302400000000, .within 43200000000 18446744073709551615, mask2, true, false, false⟩
  | .checkNow => ⟨0x7800, 0, 1, 0x0E, 0, 1, false, .u8, .cmd, 0, 0, .any, mask2, false, false, false⟩
  | .lastCheck => ⟨0x7800, 0, 1, 0x0F, 0, 1, false, .stamp, .ro, 0, 0, .any, mask0, false, false, false⟩
  | .packHealth => ⟨0x7800, 0, 1, 0x10, 0, 1, false, .u16, .ro, 0, 0, .any, mask0, false, false, false⟩
  | .braceLimit => ⟨0x7800, 0, 1, 0x11, 0, 1, false, .u16, .rw, 0, 250, .within 50 500, mask2, true, false, false⟩
  | .lastFlush => ⟨0x7800, 0, 1, 0x12, 0, 1, false, .octets, .ro, 72, 0, .any, mask0, false, false, false⟩
  | .partNumber => ⟨0x1000, 0, 1, 0x01, 0, 1, false, .string, .ro, 64, 0, .any, mask3, false, false, false⟩
  | .serial => ⟨0x1000, 0, 1, 0x02, 0, 1, false, .string, .ro, 64, 0, .any, mask3, false, false, false⟩
  | .lifecycle => ⟨0x1000, 0, 1, 0x03, 0, 1, false, .enum, .ro, 0, 0, .any, mask3, false, false, false⟩
  | .lcEntriesLeft => ⟨0x1000, 0, 1, 0x04, 0, 1, false, .u8, .ro, 0, 32, .any, mask3, false, false, false⟩
  | .lcAdvance => ⟨0x1000, 0, 1, 0x05, 0, 1, false, .enum, .cmd, 0, 0, .any, mask5, false, false, false⟩
  | .sealEpoch => ⟨0x1000, 0, 1, 0x06, 0, 1, false, .u8, .ro, 0, 0, .any, mask3, false, false, false⟩
  | .fwRunning => ⟨0x9000, 0, 1, 0x01, 0, 1, false, .u8, .ro, 0, 0, .any, mask0, false, false, false⟩
  | .fwSlots => ⟨0x9000, 0, 1, 0x02, 0, 1, false, .octets, .ro, 16, 0, .any, mask0, false, false, false⟩
  | .fwStage => ⟨0x9000, 0, 1, 0x03, 0, 1, false, .octets, .wo, 33574912, 0, .any, mask4, false, false, false⟩
  | .fwActivate => ⟨0x9000, 0, 1, 0x04, 0, 1, false, .u8, .cmd, 0, 0, .any, mask2, false, false, false⟩
  | .fwCommit => ⟨0x9000, 0, 1, 0x05, 0, 1, false, .u8, .cmd, 0, 0, .any, mask2, false, false, false⟩
  | .fwRestart => ⟨0x9000, 0, 1, 0x06, 0, 1, false, .u8, .cmd, 0, 0, .any, mask2, false, false, false⟩
  | .rollbackCounter => ⟨0x9000, 0, 1, 0x07, 0, 1, false, .u8, .ro, 0, 0, .any, mask0, false, false, false⟩
  | .lockState => ⟨0x9000, 0, 1, 0x08, 0, 1, false, .u8, .ro, 0, 0, .any, mask0, false, false, false⟩
  | .lockRelease => ⟨0x9000, 0, 1, 0x09, 0, 1, false, .u8, .cmd, 0, 0, .any, mask2, false, false, false⟩
  | .alarmResponse => ⟨0x9000, 0, 1, 0x10, 1, 6, false, .enum, .rw, 0, 0, .within 0 2, mask14, true, false, false⟩
  | .spdmMessage => ⟨0x9000, 0, 1, 0x20, 0, 1, false, .octets, .rw, 65535, 0, .any, mask15, false, false, true⟩
  | .spdmVendorId => ⟨0x9000, 0, 1, 0x21, 0, 1, false, .u32, .ro, 0, 0, .any, mask0, false, false, false⟩
  | .roomKeyGenerate => ⟨0x4005, 16, 64, 0x01, 0, 1, false, .u8, .cmd, 0, 0, .any, mask2, false, false, false⟩
  | .roomKeyImport => ⟨0x4005, 16, 64, 0x02, 0, 1, false, .octets, .wo, 64, 0, .any, mask2, false, false, false⟩
  | .roomKeyState => ⟨0x4005, 16, 64, 0x03, 0, 1, false, .enum, .ro, 0, 0, .any, mask7, false, false, false⟩
  | .roomKeyCheck => ⟨0x4005, 16, 64, 0x04, 0, 1, false, .u32, .ro, 0, 0, .any, mask2, false, false, false⟩
  | .portFunction => ⟨0x2100, 0, 1, 0x01, 1, 32, false, .u16, .rw, 0, 1, .any, mask2, true, false, false⟩
  | .coreFunction => ⟨0x2200, 0, 1, 0x01, 1, 32, false, .u16, .rw, 0, 1, .any, mask2, true, false, false⟩
  | .roomFunction => ⟨0x2300, 0, 1, 0x01, 1, 64, false, .u16, .rw, 0, 0, .any, mask6, true, false, false⟩
  | .stairFunction => ⟨0x2400, 0, 1, 0x01, 1, 128, false, .u16, .rw, 0, 0, .any, mask9, false, false, false⟩
  | .stairFunctionHi => ⟨0x2401, 0, 1, 0x01, 1, 128, false, .u16, .rw, 0, 0, .any, mask9, false, false, false⟩
  | .scrubFunction => ⟨0x2500, 0, 1, 0x01, 0, 1, false, .u16, .rw, 0, 1, .any, mask2, true, false, false⟩
  | .cellarChannelFunction => ⟨0x2600, 0, 1, 0x01, 1, 32, false, .u16, .rw, 0, 1, .any, mask2, true, false, false⟩
  | .i3cStaticAddr => ⟨0x1130, 0, 1, 0x01, 0, 1, false, .u8, .rw, 0, 90, .any, mask2, true, false, false⟩
  | .i3cDynamicAddr => ⟨0x1130, 0, 1, 0x02, 0, 1, false, .u8, .ro, 0, 0, .any, mask0, false, false, false⟩
  | .plcaNodeId => ⟨0x1131, 0, 1, 0x01, 0, 1, false, .u8, .rw, 0, 255, .any, mask2, true, false, false⟩
  | .plcaNodeCount => ⟨0x1131, 0, 1, 0x02, 0, 1, false, .u8, .rw, 0, 8, .within 1 255, mask2, true, false, false⟩
  | .rackEthertype => ⟨0x1131, 0, 1, 0x03, 0, 1, false, .u16, .rw, 0, 34998, .within 1536 65535, mask2, true, false, false⟩
  | .rackMac => ⟨0x1131, 0, 1, 0x04, 0, 1, false, .octets, .ro, 6, 0, .any, mask0, false, false, false⟩
  | .rackNotifyMac => ⟨0x1131, 0, 1, 0x05, 0, 1, false, .octets, .rw, 6, 0, .any, mask2, true, false, false⟩
  | .odRequests => ⟨0x1140, 0, 1, 0x01, 0, 1, false, .u64, .ro, 0, 0, .any, mask0, false, false, false⟩
  | .odFramesDiscarded => ⟨0x1140, 0, 1, 0x02, 0, 1, false, .u32, .ro, 0, 0, .any, mask0, false, false, false⟩
  | .notifyDropped => ⟨0x1140, 0, 1, 0x03, 0, 1, false, .u32, .ro, 0, 0, .any, mask0, false, false, false⟩
  | .odSessions => ⟨0x1140, 0, 1, 0x04, 0, 1, false, .u16, .ro, 0, 0, .any, mask2, false, false, false⟩
  | .startSeq => ⟨0xA000, 0, 1, 0x01, 0, 1, false, .u32, .ro, 0, 0, .any, mask0, false, false, false⟩
  | .startStepNow => ⟨0xA000, 0, 1, 0x02, 0, 1, false, .u8, .ro, 0, 0, .any, mask0, false, false, false⟩
  | .startOutcome => ⟨0xA000, 0, 1, 0x03, 0, 1, false, .enum, .ro, 0, 0, .any, mask0, false, false, false⟩
  | .ledgerCursor => ⟨0xA000, 0, 1, 0x04, 0, 1, false, .u8, .rw, 0, 0, .within 0 63, mask16, false, false, true⟩
  | .ledgerRecord => ⟨0xA000, 0, 1, 0x05, 0, 1, false, .octets, .ro, 256, 0, .any, mask16, false, false, false⟩
  | .retiredUnits => ⟨0xA000, 0, 1, 0x06, 0, 1, false, .octets, .ro, 512, 0, .any, mask0, false, false, false⟩
  | .failCounts => ⟨0xA000, 0, 1, 0x07, 0, 1, false, .octets, .ro, 192, 0, .any, mask14, false, false, false⟩
  | .ledgerClearCounts => ⟨0xA000, 0, 1, 0x08, 0, 1, false, .u16, .cmd, 0, 0, .any, mask14, false, false, false⟩
  | .selftestEnable => ⟨0xA000, 0, 1, 0x10, 0, 1, false, .bool, .rw, 0, 1, .within 0 1, mask2, true, false, false⟩
  | .sliceInterval => ⟨0xA000, 0, 1, 0x11, 0, 1, false, .u32, .rw, 0, 500000, .within 50000 50000000, mask2, true, false, false⟩
  | .sliceMargin => ⟨0xA000, 0, 1, 0x12, 0, 1, false, .u16, .rw, 0, 10, .within 5 100, mask2, true, false, false⟩
  | .sliceStatus => ⟨0xA000, 0, 1, 0x13, 0, 1, false, .octets, .ro, 12, 0, .any, mask0, false, false, false⟩
  | .sliceRounds => ⟨0xA000, 0, 1, 0x14, 0, 1, false, .u32, .ro, 0, 0, .any, mask0, false, false, false⟩
  | .selftestFull => ⟨0xA000, 0, 1, 0x15, 0, 1, false, .u8, .cmd, 0, 0, .any, mask14, false, false, false⟩
  | .selftestReport => ⟨0xA000, 0, 1, 0x16, 0, 1, false, .octets, .ro, 64, 0, .any, mask14, false, false, false⟩
  | .benchRestore => ⟨0xF000, 0, 1, 0x01, 0, 1, false, .u16, .cmd, 0, 0, .any, mask5, false, false, false⟩
  | .vaultState => ⟨0xB000, 0, 1, 0x01, 0, 1, false, .enum, .ro, 0, 0, .any, mask3, false, false, false⟩
  | .moduleIndex => ⟨0xB000, 0, 1, 0x02, 0, 1, false, .u16, .rw, 0, 0, .within 0 4095, mask17, true, false, false⟩
  | .vaultEpoch => ⟨0xB000, 0, 1, 0x03, 0, 1, false, .u64, .rw, 0, 0, .any, mask17, true, false, false⟩
  | .memberTable => ⟨0xB000, 0, 1, 0x04, 0, 1, false, .octets, .rw, 262144, 0, .any, mask17, true, false, false⟩
  | .vaultDigest => ⟨0xB000, 0, 1, 0x05, 0, 1, false, .octets, .ro, 48, 0, .any, mask3, false, false, false⟩
  | .digestExpected => ⟨0xB000, 0, 1, 0x06, 0, 1, false, .octets, .rw, 48, 0, .any, mask2, true, false, false⟩
  | .compatBand => ⟨0xB000, 0, 1, 0x07, 0, 1, false, .u16, .ro, 0, 0, .any, mask3, false, false, false⟩
  | .vaultJoin => ⟨0xB000, 0, 1, 0x08, 0, 1, false, .u8, .cmd, 0, 0, .any, mask2, false, false, false⟩
  | .vaultLeave => ⟨0xB000, 0, 1, 0x09, 0, 1, false, .u8, .cmd, 0, 0, .any, mask2, false, false, false⟩
  | .peerFailed => ⟨0xB000, 0, 1, 0x0A, 0, 1, false, .u16, .cmd, 0, 0, .any, mask2, false, false, false⟩
  | .peerQuery => ⟨0xB000, 0, 1, 0x0B, 0, 1, false, .u16, .rw, 0, 0, .any, mask2, false, false, true⟩
  | .peerStatus => ⟨0xB000, 0, 1, 0x0C, 0, 1, false, .octets, .ro, 16, 0, .any, mask2, false, false, false⟩
  | .joinStatus => ⟨0xB000, 0, 1, 0x0D, 0, 1, false, .u32, .ro, 0, 0, .any, mask2, false, false, false⟩
  | .vaultLossCourses => ⟨0xB000, 0, 1, 0x0E, 0, 1, false, .u32, .rw, 0, 2500, .within 500 500000, mask2, true, false, false⟩
  | .poolDwell => ⟨0xB000, 0, 1, 0x0F, 0, 1, false, .u32, .rw, 0, 128, .within 96 1000000, mask2, true, false, false⟩
  | .forwardRecords => ⟨0xB000, 0, 1, 0x10, 0, 1, false, .u32, .ro, 0, 0, .any, mask3, false, false, false⟩
  | .poolMembers => ⟨0xB100, 1, 64, 0x01, 0, 1, false, .octets, .rw, 512, 0, .any, mask6, true, false, false⟩
  | .poolStripe => ⟨0xB100, 1, 64, 0x02, 0, 1, false, .u32, .rw, 0, 1, .pow2 1 65536, mask6, true, false, false⟩
  | .poolWindows => ⟨0xB100, 1, 64, 0x03, 0, 1, false, .u16, .rw, 0, 0, .any, mask6, true, false, false⟩
  | .poolGather => ⟨0xB100, 1, 64, 0x04, 0, 1, false, .u8, .cmd, 0, 0, .any, mask2, false, false, false⟩
  | .poolPagesHome => ⟨0xB100, 1, 64, 0x05, 0, 1, false, .u64, .ro, 0, 0, .any, mask7, false, false, false⟩
  | .poolPagesLent => ⟨0xB100, 1, 64, 0x06, 0, 1, false, .u64, .ro, 0, 0, .any, mask7, false, false, false⟩
  | .discreteInputs => ⟨0xC000, 0, 1, 0x10, 0, 1, false, .u16, .ro, 0, 0, .any, mask0, false, false, false⟩
  | .inputsFaulty => ⟨0xC000, 0, 1, 0x11, 0, 1, false, .u8, .ro, 0, 0, .any, mask0, false, false, false⟩
  | .inputRearm => ⟨0xC000, 0, 1, 0x12, 0, 1, false, .u8, .cmd, 0, 0, .any, mask2, false, false, false⟩
  | .inputVoltage => ⟨0xC000, 0, 1, 0x13, 0, 1, false, .u16, .ro, 0, 0, .any, mask0, false, false, false⟩
  | .auxVoltage => ⟨0xC000, 0, 1, 0x14, 0, 1, false, .u16, .ro, 0, 0, .any, mask0, false, false, false⟩
  | .dieTempMax => ⟨0xC000, 0, 1, 0x15, 0, 1, false, .i32, .ro, 0, 0, .any, mask0, false, false, false⟩
  | .dieTemps => ⟨0xC000, 0, 1, 0x16, 0, 1, false, .octets, .ro, 106, 0, .any, mask0, false, false, false⟩
  | .outputs => ⟨0xC000, 0, 1, 0x17, 0, 1, false, .u8, .ro, 0, 0, .any, mask0, false, false, false⟩

/-- The entries, in the order of the chapters (1). -/
def entList0 : List Ent := [.powerState, .powerCap, .quietEnter, .quietExit, .inputPower, .governorStep, .stampNow, .epochTai, .epochHistory, .timeState, .timeOffset, .timeSource, .ptpDomain, .tallyWritten, .tallyDrained, .tallyOldest, .tallyCursor, .tallyBlock, .tallyFilter, .notifyMinSeverity, .portRole, .portWidth, .portLinkState, .holdEnable, .holdThreshold, .laneMap, .fecCorrected, .crcReplays, .retrainCount, .partnerInfo, .portMinWidth, .txEq, .laneFecLimit, .roomSize, .roomLoftQuota, .roomStoreQuota, .roomCellarQuota, .roomOverdraft, .roomOwnerPorts, .roomRawThreshold]
/-- The entries, in the order of the chapters (2). -/
def entList1 : List Ent := [.roomErase, .loftUsed, .storeUsed, .cellarUsed, .overdraftBorrowed, .quotaRefusals, .loftSpillCount, .expandStall, .storeQuotaEffective, .windowBase, .windowSize, .windowAttr, .windowPages, .classFloor, .classCeiling, .classLatencyTarget, .classFloorEffective, .classServed, .missCount, .configCommit, .configStatus, .configDetail, .configDiscard, .deliverableBudget, .admitPercent, .floorSum, .overdraftReserve, .overdraftFree, .budgetDetail, .loftHotCapacity, .loftHotUsed, .loftQuotaScale, .loftPromoteHeat, .heatHalfLife, .storeOvershoot, .storeLowWater, .writebackIdle, .writebackAgeMax, .dirtyStored, .landingUsed]
/-- The entries, in the order of the chapters (3). -/
def entList2 : List Ent := [.cellarReadBacklog, .pageQuery, .pageStatus, .promoteRate, .stairRoom, .stairMode, .stairStepCount, .stairLookahead, .stairLookaheadMax, .stairClass, .stairTarget, .stairWrap, .stairPosition, .stairLateCount, .stairLastLateness, .stairStatus, .stairStep, .brickMismatches, .brickQuery, .brickRecord, .pageGeneration, .tableSlotsUsed, .tableQuery, .tableBinding, .tableImage, .landingDwell, .tableLoadSlot, .tableLoadImage, .tableFree, .codecLanes, .roomTableMode, .packedLoadSrc, .packedLoadDst, .packedLoadPages, .packedLoadGo, .packedLoadStatus, .tableBind, .windowTables, .shelfSelect, .shelfRoom]
/-- The entries, in the order of the chapters (4). -/
def entList3 : List Ent := [.shelfRanges, .shelfClass, .shelfFlags, .shelfDeltaTable, .shelfState, .shelfLastVersion, .shelfVersions, .shelfCommand, .shelfResult, .shelfDigest, .manifestVersion, .manifestCursor, .manifestBlock, .shelfRecordersFree, .unshelveStairsFree, .dirEntriesUsed, .dirRecalls, .dirLost, .hostFailed, .scanPorts, .crashCursor, .crashBlock, .dirRecallWarn, .pubRegionsUsed, .pubRoom, .pubBase, .pubSize, .pubVersion, .pubVersions, .pubLastStatus, .pubDelete, .viewRegion, .viewVersion, .viewStatus, .coresInService, .callQueueUsed, .callTimeout, .progSelect, .progRooms, .progDigest]
/-- The entries, in the order of the chapters (5). -/
def entList4 : List Ent := [.progImage, .progInstall, .progRemove, .progStatus, .progStoreFree, .callQuery, .callStatus, .coreLeaseRoom, .coreClock, .coreEngines, .coreSteps, .coreOverruns, .coreColdStarts, .storeSetPoint, .storeSetPointMax, .bankMask, .rowIdle, .rhThreshold, .trainInterval, .storeBaysFree, .bayReserve, .rankMigration, .sparesLeft, .storeCoreTarget, .rankMap, .portStoreTarget, .chState, .rankState, .chTrained, .chCorrected, .chUncorrected, .chRhRefreshes, .chForcedRefresh, .chTemp, .cellarChannels, .cellarDiesRetired, .zoneReady, .erasedSuperblocks, .cellarMargin, .readDisturbLimit]
/-- The entries, in the order of the chapters (6). -/
def entList5 : List Ent := [.patrolInterval, .rebuildShare, .mapReplayMax, .wearUsed, .cellarProgrammed, .slotsFree, .slotLow, .cchState, .cchDies, .cchBadBlocks, .cchCorrected, .cchRecoveries, .cchLost, .scrubPeriod, .scrubProgress, .scrubPasses, .storeCorrected, .repeatUsed, .rubbleRows, .rubbleCursor, .rubbleBlock, .loftCeLimit, .loftCorrected, .parityErrors, .bricksRepaired, .cisternState, .packVoltage, .cellVoltages, .cellTemps, .cellCapacitance, .cellEsr, .packEnergy, .dirtyCeiling, .ceilingByEnergy, .flushEnergy, .cisternReserve, .writeThrough, .checkInterval, .checkNow, .lastCheck]
/-- The entries, in the order of the chapters (7). -/
def entList6 : List Ent := [.packHealth, .braceLimit, .lastFlush, .partNumber, .serial, .lifecycle, .lcEntriesLeft, .lcAdvance, .sealEpoch, .fwRunning, .fwSlots, .fwStage, .fwActivate, .fwCommit, .fwRestart, .rollbackCounter, .lockState, .lockRelease, .alarmResponse, .spdmMessage, .spdmVendorId, .roomKeyGenerate, .roomKeyImport, .roomKeyState, .roomKeyCheck, .portFunction, .coreFunction, .roomFunction, .stairFunction, .stairFunctionHi, .scrubFunction, .cellarChannelFunction, .i3cStaticAddr, .i3cDynamicAddr, .plcaNodeId, .plcaNodeCount, .rackEthertype, .rackMac, .rackNotifyMac, .odRequests]
/-- The entries, in the order of the chapters (8). -/
def entList7 : List Ent := [.odFramesDiscarded, .notifyDropped, .odSessions, .startSeq, .startStepNow, .startOutcome, .ledgerCursor, .ledgerRecord, .retiredUnits, .failCounts, .ledgerClearCounts, .selftestEnable, .sliceInterval, .sliceMargin, .sliceStatus, .sliceRounds, .selftestFull, .selftestReport, .benchRestore, .vaultState, .moduleIndex, .vaultEpoch, .memberTable, .vaultDigest, .digestExpected, .compatBand, .vaultJoin, .vaultLeave, .peerFailed, .peerQuery, .peerStatus, .joinStatus, .vaultLossCourses, .poolDwell, .forwardRecords, .poolMembers, .poolStripe, .poolWindows, .poolGather, .poolPagesHome]
/-- The entries, in the order of the chapters (9). -/
def entList8 : List Ent := [.poolPagesLent, .discreteInputs, .inputsFaulty, .inputRearm, .inputVoltage, .auxVoltage, .dieTempMax, .dieTemps, .outputs]

/-- Every entry. -/
def Ent.all : List Ent := entList0 ++ entList1 ++ entList2 ++ entList3 ++ entList4 ++ entList5 ++ entList6 ++ entList7 ++ entList8

/-- The numeric index of instance `i`, `j` of a row. -/
def Row.idx (r : Row) (i j : Nat) : Nat := r.index + r.istep * i + (if r.wide then j / 8 else 0)

/-- The sub-index of instance `j` of a row. -/
def Row.subIdx (r : Row) (j : Nat) : Nat := r.sub + r.sstep * (if r.wide then j % 8 else j)

/-- The key under which the value of an instance is kept: index times 256 plus sub-index. -/
def Row.key (r : Row) (i j : Nat) : Nat := r.idx i j * 256 + r.subIdx j

/-- The instance numbers of a row that an index and a sub-index name, if any. -/
def Row.inst (r : Row) (idx sub : Nat) : Option (Nat × Nat) :=
  if idx < r.index ∨ sub < r.sub then none else
  let d := idx - r.index
  let hi := if r.wide then d % (if r.istep = 0 then 2 else r.istep) else 0
  let d' := d - hi
  let i := if r.istep = 0 then d' else d' / r.istep
  let e := sub - r.sub
  let j := if r.sstep = 0 then e else e / r.sstep
  let jj := j + 8 * hi
  if (if r.istep = 0 then d' = 0 else d' % r.istep = 0) ∧ i < r.icount ∧
     (if r.sstep = 0 then e = 0 else e % r.sstep = 0) ∧ jj < r.scount ∧ (if r.wide then j < 8 ∧ hi < 2 else True)
  then some (i, jj) else none

/-- The first entry of a list that an index and a sub-index name. -/
def Ent.findIn : List Ent → Nat → Nat → Option (Ent × Nat × Nat)
  | [], _, _ => none
  | e :: es, idx, sub =>
    match e.row.inst idx sub with
    | some (i, j) => some (e, i, j)
    | none => Ent.findIn es idx sub

/-- The entry that an index and a sub-index name (R437); none is NO_ENTRY (R443). -/
def Ent.at (idx sub : Nat) : Option (Ent × Nat × Nat) := Ent.findIn Ent.all idx sub

/-- The encoded length of a type in bytes (R438); 0 for OCTETS and STRING. -/
def Ty.bytes : Ty → Nat
  | .bool => 1 | .u8 => 1 | .u16 => 2 | .u32 => 4 | .u64 => 8 | .i32 => 4 | .stamp => 8 | .enum => 2
  | .octets => 0 | .string => 0

/-- A value is one the entry takes. -/
def Rng.ok : Rng → Nat → Bool
  | .any, _ => true
  | .within lo hi, v => decide (lo ≤ v) && decide (v ≤ hi)
  | .pow2 lo hi, v => decide (lo ≤ v) && decide (v ≤ hi) && decide (v = 2 ^ Nat.log2 v)
  | .oneOf vs, v => vs.contains v

end Sys2Proof.Machine
end

