-- ==== Sys2Proof/Machine/Brick.lean ====
section
/-!
DEFINITION. Sys2Proof/Machine/Brick.lean: the brick record, prefix tables, the coding modes, the compressor's choice and the
expander with every size-mismatch cause (chapter The Brick Format).
-/

namespace Sys2Proof.Machine

/-- The coding modes of R161. -/
inductive Mode where
  | raw | zero | fill | plane | delta | table | weight | reserved
  deriving DecidableEq, Repr

/-- The code of a mode. -/
def Mode.code : Mode → Nat
  | .raw => 0 | .zero => 1 | .fill => 2 | .plane => 3 | .delta => 4 | .table => 5 | .weight => 6 | .reserved => 7

/-- The mode a code names. -/
def modeOf (c : Nat) : Mode :=
  match c with
  | 0 => .raw | 1 => .zero | 2 => .fill | 3 => .plane | 4 => .delta | 5 => .table | 6 => .weight | _ => .reserved

/- ## The record (R163 to R166) -/

/-- CRC of a record. -/
def recCrc (r : Nat) : Nat := bitsOf r 63 32
/-- VERSION of a record. -/
def recVersion (r : Nat) : Nat := bitsOf r 31 16
/-- TABLE_ID of a record. -/
def recTable (r : Nat) : Nat := bitsOf r 15 11
/-- MODE of a record. -/
def recMode (r : Nat) : Mode := modeOf (bitsOf r 10 8)
/-- SECTORS of a record. -/
def recSectors (r : Nat) : Nat := bitsOf r 7 4
/-- WRITTEN of a record. -/
def recWritten (r : Nat) : Bool := bitOf r 3
/-- POISON of a record. -/
def recPoison (r : Nat) : Bool := bitOf r 2
/-- SEALED of a record. -/
def recSealed (r : Nat) : Bool := bitOf r 1
/-- The poisoned-line mask of a record (R166). -/
def recMask (r : Nat) : Nat := if recPoison r then bitsOf r 14 11 else 0

/-- The number of ones in the low `n` bits, modulo 2. -/
def parityOf : Nat → Nat → Nat
  | 0, _ => 0
  | n + 1, v => (v % 2 + parityOf n (v / 2)) % 2

/-- A record from its fields, WRITTEN set, with even parity over all 64 bits (R163). -/
def mkRecord (crc version table : Nat) (m : Mode) (sectors : Nat) (poison sealed_ : Bool) : Nat :=
  let r := crc % 2 ^ 32 * 2 ^ 32 + version % 2 ^ 16 * 2 ^ 16 + table % 32 * 2 ^ 11 + m.code * 2 ^ 8 + sectors % 16 * 16
    + 8 + bit01 poison * 4 + bit01 sealed_ * 2
  r + parityOf 64 r

/-- The sector counts a mode allows (R161); a poisoned RAW brick may have none (R166). -/
def sectorsOk (m : Mode) (n : Nat) (poison : Bool) : Bool :=
  match m with
  | .raw => n = 8 || (n = 0 && poison)
  | .zero => n = 0
  | .fill => n = 1
  | .reserved => false
  | _ => decide (1 ≤ n) && decide (n ≤ 7)

/-- The record is valid (R164); the all-zero record is the unwritten brick. -/
def recordOk (r : Nat) : Bool :=
  if r = 0 then true
  else
    let m := recMode r
    let raw8 := decide (m = .raw) && decide (recSectors r = 8)
    decide (parityOf 64 r = 0) && recWritten r && decide (m ≠ .reserved) && sectorsOk m (recSectors r) (recPoison r)
      && (decide (recTable r = 0) || !(decide (m = .zero) || decide (m = .fill) || (decide (m = .raw) && !recPoison r)))
      && (!recSealed r || raw8)
      && (!recPoison r || (decide (m = .raw) && decide (recMask r ≠ 0) && decide (recTable r < 16)))

/-- A coded brick, as the compressor makes it and the expander takes it: its record and the bytes of its sectors before encryption,
32 bytes each (R161, R169). -/
structure Stored where
  record : Nat
  body : List Byte
  deriving DecidableEq, Repr

/-- The unwritten brick (R164). -/
def Stored.blank : Stored := ⟨0, []⟩

/-- A brick as a medium holds it (R15, R168, R195, R200): its record, of which the index cache has this decrypted copy; its sectors
encrypted; their check bytes, two a sector in the Store and none in the Cellar; and what the module counts of the body: the table ids
it names (R174) and, of a DELTA brick, the shelf and version of its base (R180). -/
structure Laid where
  record : Nat
  sectors : List Byte
  check : List Byte
  tables : List Nat
  base : Option (Nat × Nat)
  deriving DecidableEq, Repr

/-- The unwritten brick as it lies (R164). -/
def Laid.blank : Laid := ⟨0, [], [], [], none⟩

/-- A brick as the Cellar holds it: without check bytes (R200). -/
def Laid.bare (l : Laid) : Laid := { l with check := [] }

/-- A page's stored form (R168): generation, GROUP_SEQ, its bricks, and the page group of their records encrypted as a data unit of its
own, without check bytes; empty while no brick of the page has been written. -/
structure PageForm where
  gen : Nat
  groupSeq : Nat
  bricks : List Laid
  group : List Byte
  deriving DecidableEq, Repr

/- ## Tables (R172, R173) -/

/-- The code lengths of a table image: those of symbols 0 to 255, then the escape's (R172). -/
def tableLens (img : List Byte) : List Nat :=
  ((img.drop 8).take 128).flatMap (fun b => [b.toNat / 16, b.toNat % 16]) ++ [(img.getD 1 0).toNat / 16]

/-- The longest of some lengths. -/
def maxLen (l : List Nat) : Nat := l.foldl max 0

/-- The code sum of some lengths in units of 2^-12: 4,096 is exactly 1 (R172). -/
def codeSum (l : List Nat) : Nat := l.foldl (fun n x => if x = 0 then n else n + 2 ^ (12 - x)) 0

/-- The first check of R172 that a table image fails, by the number TABLE_INVALID carries (R185); 0 when it is valid. -/
def tableCheck (img : List Byte) : Nat :=
  let l := tableLens img
  let esc := (img.getD 1 0).toNat / 16
  if decide (img.length ≠ 136) || decide (img.getD 0 0 ≠ 1) || decide (img.getD 2 0 ≠ 0) || decide (img.getD 3 0 ≠ 0) then 1
  else if ofLe ((img.drop 4).take 4) ≠ crc32c (img.take 4 ++ img.drop 8) then 2
  else if l.any (fun x => decide (12 < x)) || decide (esc = 0) || decide ((img.getD 1 0).toNat % 16 ≠ maxLen l) then 3
  else if codeSum l ≠ 4096 then 4
  else 0

/-- A code word: symbol, length and word. -/
structure CodeWord where
  sym : Nat
  len : Nat
  word : Nat
  deriving DecidableEq, Repr

/-- The symbols of one length in rising order. -/
def symsOfLen (l : List Nat) (len : Nat) : List Nat := (upTo l.length).filter fun s => l.getD s 0 = len

/-- Code words given to symbols of one length, from a first word. -/
def assignLen (len : Nat) : List Nat → Nat → List CodeWord
  | [], _ => []
  | s :: ss, c => ⟨s, len, c⟩ :: assignLen len ss (c + 1)

/-- Canonical code words of the lengths from `len` on (R173). -/
def assignFrom (l : List Nat) : Nat → Nat → Nat → List CodeWord
  | 0, _, _ => []
  | n + 1, len, code =>
    let ss := symsOfLen l len
    assignLen len ss code ++ assignFrom l n (len + 1) ((code + ss.length) * 2)

/-- The canonical code of a table image (R173). -/
def codeOf (img : List Byte) : List CodeWord := assignFrom (tableLens img) 12 1 0

/-- Bits of a value, most significant first. -/
def msb : Nat → Nat → List Bool
  | 0, _ => []
  | n + 1, v => bitOf v n :: msb n v

/-- The code of a byte: its word, or the escape and its value (R173). -/
def putSym (code : List CodeWord) (v : Nat) : List Bool :=
  match code.find? (fun w => w.sym = v) with
  | some w => msb w.len w.word
  | none =>
    match code.find? (fun w => w.sym = 256) with
    | some w => msb w.len w.word ++ msb 8 v
    | none => []

/-- Eight bits to a byte, most significant first; a short tail is filled with zeros. -/
def packBits : Nat → List Bool → List Byte
  | 0, _ => []
  | n + 1, bs =>
    if bs.isEmpty then []
    else
      BitVec.ofNat 8 ((fit8 (bs.take 8)).foldl (fun a b => a * 2 + bit01 b) 0) :: packBits n (bs.drop 8)
where
  /-- Eight bits, the missing ones zero. -/
  fit8 (l : List Bool) : List Bool := l ++ List.replicate (8 - l.length) false

/-- The bits of bytes, most significant first. -/
def bitsOfBytes (bs : List Byte) : List Bool := bs.flatMap fun b => msb 8 b.toNat

/- ## Elements (R175, R176) -/

/-- How an element type splits: element bits, lowest exponent bit, exponent bits. -/
structure Split where
  bits : Nat
  lo : Nat
  ew : Nat
  deriving DecidableEq, Repr

/-- The split of an element type code 1 to 7 (R175). -/
def splitOf (t : Nat) : Option Split :=
  match t with
  | 1 => some ⟨16, 7, 8⟩
  | 2 => some ⟨16, 10, 5⟩
  | 3 => some ⟨8, 3, 4⟩
  | 4 => some ⟨8, 2, 5⟩
  | 5 => some ⟨8, 3, 4⟩
  | 6 => some ⟨4, 1, 2⟩
  | 7 => some ⟨8, 4, 4⟩
  | _ => none

/-- The width of the SM field (R175). -/
def Split.smw (p : Split) : Nat := p.bits - p.ew
/-- The exponent symbol of an element. -/
def Split.expOf (p : Split) (v : Nat) : Nat := bitsOf v (p.lo + p.ew - 1) p.lo
/-- The SM field of an element. -/
def Split.smOf (p : Split) (v : Nat) : Nat := (v >>> (p.lo + p.ew)) * 2 ^ p.lo + v % 2 ^ p.lo
/-- An element rebuilt from its exponent symbol and SM field. -/
def Split.join (p : Split) (e sm : Nat) : Nat := (sm >>> p.lo) * 2 ^ (p.lo + p.ew) + e * 2 ^ p.lo + sm % 2 ^ p.lo

/-- What a byte of a brick is in its element type (R176). -/
inductive ByteKind where
  | element | scale | tail
  deriving DecidableEq, Repr

/-- What byte `i` of brick `b` of a page is (R176). -/
def byteKind (t b i : Nat) : ByteKind :=
  let p := 256 * b + i
  match t with
  | 5 => if 4092 ≤ p then .tail else if p % 33 = 0 then .scale else .element
  | 6 => if 4080 ≤ p then .tail else if p % 17 = 0 then .scale else .element
  | _ => .element

/-- The positions of the bytes of one kind, rising. -/
def placesOf (t b : Nat) (k : ByteKind) : List Nat := (upTo 256).filter fun i => byteKind t b i = k

/-- The elements held in some bytes, in element order (R160, R176: the low nibble first). -/
def elementsOf (bits : Nat) (bs : List Byte) : List Nat :=
  if bits = 4 then bs.flatMap fun b => [b.toNat % 16, b.toNat / 16]
  else if bits = 8 then bs.map (·.toNat)
  else pairUp bs
where
  /-- Sixteen-bit elements, low byte first. -/
  pairUp : List Byte → List Nat
    | a :: b :: r => (a.toNat + 256 * b.toNat) :: pairUp r
    | _ => []

/-- The bytes that hold some elements. -/
def bytesOfElements (bits : Nat) (es : List Nat) : List Byte :=
  if bits = 4 then nibs es
  else if bits = 8 then es.map (BitVec.ofNat 8 ·)
  else es.flatMap (leBytes 2)
where
  /-- Nibbles in pairs, the first low. -/
  nibs : List Nat → List Byte
    | a :: b :: r => BitVec.ofNat 8 (a + 16 * b) :: nibs r
    | _ => []

/-- Bytes set at positions, in order. -/
def place (out : List Byte) : List Nat → List Byte → List Byte
  | i :: is, b :: bs => place (out.set i b) is bs
  | _, _ => out

/- ## Writing a body (R169 to R180) -/

/-- A body from its header after LENGTH and its payload bits: sectors and bytes (R169). -/
def mkBody (hdr : List Byte) (payload : List Bool) : Nat × List Byte :=
  let pay := packBits payload.length payload
  let len := 2 + hdr.length + pay.length
  (ceilDiv len 32, padTo 32 (leBytes 2 len ++ hdr ++ pay))

/-- The TABLE body of a brick (R179). -/
def tableBody (code : List CodeWord) (plain : List Byte) : Nat × List Byte :=
  mkBody [0, 0] (plain.flatMap fun b => putSym code b.toNat)

/-- The PLANE payload of a brick (R177); `sm` is the SM table, if one is named. -/
def planePayload (t b : Nat) (p : Split) (exp : List CodeWord) (sm : Option (List CodeWord)) (plain : List Byte) : List Bool :=
  let es := elementsOf p.bits ((placesOf t b .element).map fun i => plain.getD i 0)
  es.flatMap (fun e => putSym exp (p.expOf e))
    ++ es.flatMap (fun e => match sm with | some c => putSym c (p.smOf e) | none => msb p.smw (p.smOf e))
    ++ (placesOf t b .scale ++ placesOf t b .tail).flatMap (fun i => msb 8 (plain.getD i 0).toNat)

/-- The PLANE body of a brick, when its type has a plane (R170, R175, R177). -/
def planeBody (t b : Nat) (exp : List CodeWord) (sm : Option (Nat × List CodeWord)) (plain : List Byte) :
    Option (Nat × List Byte) :=
  match splitOf t with
  | none => none
  | some p =>
    let sm := if p.smw ≤ 8 then sm else none
    let smb := match sm with | some (id, _) => 128 + id | none => 0
    some (mkBody [BitVec.ofNat 8 t, BitVec.ofNat 8 smb] (planePayload t b p exp (sm.map (·.2)) plain))

/-- Zero-run coding of D (R180). -/
def zeroRuns : Nat → List Byte → List Byte
  | 0, _ => []
  | _, [] => []
  | n + 1, b :: bs =>
    if b ≠ 0 then b :: zeroRuns n bs
    else
      let r := ((b :: bs).takeWhile (· = 0)).length
      0 :: BitVec.ofNat 8 (r - 1) :: zeroRuns n ((b :: bs).drop r)

/-- The DELTA body of a brick against its base (R170, R180). -/
def deltaBody (shelf version : Nat) (code : List CodeWord) (plain base : List Byte) : Nat × List Byte :=
  let d := List.zipWith (· ^^^ ·) plain base
  mkBody (leBytes 2 shelf ++ leBytes 4 version) ((zeroRuns 256 d).flatMap fun b => putSym code b.toNat)

/-- What the compressor is given of a window and its room (R162, R175, R203): sealed, element type, raw threshold, and the
byte, exponent and SM tables by id. -/
structure CodeChoice where
  isSealed : Bool
  element : Nat
  rawMax : Nat
  byteT : Option (Nat × List CodeWord)
  expT : Option (Nat × List CodeWord)
  smT : Option (Nat × List CodeWord)
  deriving DecidableEq, Repr

/-- The coded candidate the compressor keeps (R162 step 4): fewer sectors, PLANE on a tie. -/
def bestCoding (c : CodeChoice) (b : Nat) (plain : List Byte) : Option (Mode × Nat × Nat × List Byte) :=
  let tab : Option (Mode × Nat × Nat × List Byte) :=
    c.byteT.map fun x => let nb := tableBody x.2 plain; (Mode.table, x.1, nb.1, nb.2)
  let pl : Option (Mode × Nat × Nat × List Byte) := match c.expT with
    | some x => (planeBody c.element b x.2 c.smT plain).map fun nb => (Mode.plane, x.1, nb.1, nb.2)
    | none => none
  match tab, pl with
  | some t, some p => if p.2.2.1 ≤ t.2.2.1 then some p else some t
  | some t, none => some t
  | none, p => p

/-- The compressor (R162): the stored form of a brick's plaintext with no poisoned line, under a version. -/
def compress (c : CodeChoice) (b version : Nat) (plain : List Byte) : Stored :=
  let crc := crc32c plain
  if c.isSealed then ⟨mkRecord crc version 0 .raw 8 false true, plain⟩
  else if plain.all (· = 0) then ⟨mkRecord crc version 0 .zero 0 false false, []⟩
  else if plain.drop 8 = plain.take 248 then ⟨mkRecord crc version 0 .fill 1 false false, fit 32 (plain.take 8)⟩
  else
    match bestCoding c b plain with
    | some (m, id, n, body) =>
      if n ≤ c.rawMax then ⟨mkRecord crc version id m n false false, body⟩
      else ⟨mkRecord crc version 0 .raw 8 false false, plain⟩
    | none => ⟨mkRecord crc version 0 .raw 8 false false, plain⟩

/-- The stored form of a brick with poisoned lines (R166): the mask, RAW, the poisoned lines zero in `plain`. -/
def poisonForm (isSealed : Bool) (version mask : Nat) (plain : List Byte) : Stored :=
  let n := if mask = 15 ∧ !isSealed then 0 else 8
  ⟨mkRecord (crc32c plain) version (mask % 16) .raw n true isSealed, if n = 0 then [] else plain⟩

/- ## Reading a body (R182) -/

/-- Why a brick does not rebuild (R182) and the lengths BRICK_MISMATCH carries (R185). -/
structure Mismatch where
  cause : Nat
  declared : Nat
  consumed : Nat
  produced : Nat
  deriving DecidableEq, Repr

/-- A reader over a body's bits: those left before the declared end, and how many have been read. -/
structure Reader where
  left : List Bool
  used : Nat
  deriving DecidableEq, Repr

/-- Why a read of a code or field failed: a bit past the declared length was needed, in a code begun at the end exactly
(cause 3) or before it (cause 1), or a value does not fit (cause 7). -/
inductive ReadErr where
  | short (atEnd : Bool)
  | bad (r : Reader)
  deriving DecidableEq, Repr

/-- The next `n` bits as a number. -/
def takeBits : Nat → Nat → Reader → Option (Nat × Reader)
  | 0, a, r => some (a, r)
  | n + 1, a, r =>
    match r.left with
    | [] => none
    | b :: bs => takeBits n (a * 2 + bit01 b) ⟨bs, r.used + 1⟩

/-- The next field of `n` raw bits. -/
def getField (n : Nat) (r : Reader) : Except ReadErr (Nat × Reader) :=
  match takeBits n 0 r with
  | some x => .ok x
  | none => .error (.short r.left.isEmpty)

/-- The symbol of the next code word, its bits taken one at a time up to 12 (R173). -/
def walkCode (code : List CodeWord) : Nat → Nat → Nat → Reader → Option (Nat × Reader)
  | 0, _, _, _ => none
  | n + 1, len, w, r =>
    match r.left with
    | [] => none
    | b :: bs =>
      let w := w * 2 + bit01 b
      let r := ⟨bs, r.used + 1⟩
      match code.find? (fun c => c.len = len + 1 ∧ c.word = w) with
      | some c => some (c.sym, r)
      | none => walkCode code n (len + 1) w r

/-- The next symbol below `2^w` of a table; an escape takes its 8-bit value (R173, R177). -/
def getSym (code : List CodeWord) (w : Nat) (r : Reader) : Except ReadErr (Nat × Reader) :=
  match walkCode code 12 0 0 r with
  | none => .error (.short r.left.isEmpty)
  | some (256, r') =>
    match takeBits 8 0 r' with
    | none => .error (.short r.left.isEmpty)
    | some (v, r'') => if code.any (fun c => c.sym = v) || decide (2 ^ w ≤ v) then .error (.bad r'') else .ok (v, r'')
  | some (v, r') => if 2 ^ w ≤ v then .error (.bad r') else .ok (v, r')

/-- `n` items in order, by one reading function; what was read stays known when a read fails. -/
def getMany (f : Reader → Except ReadErr (Nat × Reader)) : Nat → Reader → List Nat × Except ReadErr Reader
  | 0, r => ([], .ok r)
  | n + 1, r =>
    match f r with
    | .error e => ([], .error e)
    | .ok (v, r') => let (vs, e) := getMany f n r'; (v :: vs, e)

/-- A body's outcome: the bytes, or the mismatch. `produced` counts whole bytes. -/
abbrev Expanded := Except Mismatch (List Byte)

/-- The mismatch a failed read makes. -/
def readFail (declared produced : Nat) (e : ReadErr) : Mismatch :=
  match e with
  | .short true => ⟨3, declared, declared, produced⟩
  | .short false => ⟨1, declared, declared, produced⟩
  | .bad r => ⟨7, declared, (r.used + 7) / 8, produced⟩

/-- The end of a body: 256 bytes stand; consumed length and padding are checked (R169, R182). -/
def bodyEnd (declared : Nat) (r : Reader) (out : List Byte) : Expanded :=
  let consumed := (r.used + 7) / 8
  if consumed < declared then .error ⟨2, declared, consumed, 256⟩
  else if r.left.any id then .error ⟨7, declared, consumed, 256⟩
  else .ok out

/-- A TABLE body read (R179). -/
def readTable (declared : Nat) (code : List CodeWord) (r : Reader) : Expanded :=
  match getMany (getSym code 8) 256 r with
  | (vs, .error e) => .error (readFail declared vs.length e)
  | (vs, .ok r') => bodyEnd declared r' (vs.map (BitVec.ofNat 8 ·))

/-- A PLANE or WEIGHT body read (R177, R178). -/
def readPlane (declared t b : Nat) (p : Split) (exp : List CodeWord) (sm scale : Option (List CodeWord)) (r : Reader) :
    Expanded :=
  let els := placesOf t b .element
  let n := els.length * 8 / p.bits
  match getMany (getSym exp p.ew) n r with
  | (_, .error e) => .error (readFail declared 0 e)
  | (exps, .ok r) =>
    match getMany (fun r => match sm with | some c => getSym c p.smw r | none => getField p.smw r) n r with
    | (sms, .error e) => .error (readFail declared (sms.length * p.bits / 8) e)
    | (sms, .ok r) =>
      let scs := placesOf t b .scale
      match getMany (fun r => match scale with | some c => getSym c 8 r | none => getField 8 r) scs.length r with
      | (vs, .error e) => .error (readFail declared (els.length + vs.length) e)
      | (svs, .ok r) =>
        let tls := placesOf t b .tail
        match getMany (getField 8) tls.length r with
        | (vs, .error e) => .error (readFail declared (els.length + scs.length + vs.length) e)
        | (tvs, .ok r) =>
          let ebytes := bytesOfElements p.bits (List.zipWith p.join exps sms)
          let out := place (List.replicate 256 0) els ebytes
          let out := place out scs (svs.map (BitVec.ofNat 8 ·))
          bodyEnd declared r (place out tls (tvs.map (BitVec.ofNat 8 ·)))

/-- A zero-run sequence read until 256 bytes stand (R180); `out` holds the bytes so far in reverse. -/
def readRuns (declared : Nat) (code : List CodeWord) : Nat → List Byte → Reader → Except Mismatch (List Byte × Reader)
  | 0, out, r => .ok (out.reverse, r)
  | n + 1, out, r =>
    if 256 ≤ out.length then .ok (out.reverse, r)
    else
      match getSym code 8 r with
      | .error e => .error (readFail declared out.length e)
      | .ok (v, r) =>
        if v ≠ 0 then readRuns declared code n (BitVec.ofNat 8 v :: out) r
        else
          match getSym code 8 r with
          | .error e => .error (readFail declared out.length e)
          | .ok (c, r) =>
            if 256 < out.length + c + 1 then .error ⟨4, declared, (r.used + 7) / 8, out.length⟩
            else readRuns declared code n (List.replicate (c + 1) 0 ++ out) r

/-- What the expander needs around a brick: its position in the page, the room's tables by id, and for DELTA the expansion
of the footing brick. -/
structure ExpandEnv where
  pos : Nat
  tables : Tbl (List Byte)
  footing : Expanded
  deriving Repr

/-- A table of the room by id, as a code (R174). -/
def ExpandEnv.code (v : ExpandEnv) (id : Nat) : Option (List CodeWord) := (Tbl.find v.tables id).map codeOf

/-- LENGTH of a body. -/
def bodyLen (body : List Byte) : Nat := ofLe (body.take 2)

/-- LENGTH fits the sectors and the bytes past it are zero (R169). -/
def lengthOk (body : List Byte) (n hdr : Nat) : Bool :=
  let d := bodyLen body
  decide (32 * (n - 1) < d) && decide (d ≤ 32 * n) && decide (hdr ≤ d) && (body.drop d).all (· = 0)

/-- The reader over a body's payload. -/
def readerOf (body : List Byte) (hdr : Nat) : Reader := ⟨bitsOfBytes ((body.take (bodyLen body)).drop hdr), 8 * hdr⟩

/-- The coded bodies of R169 read. -/
def readBody (v : ExpandEnv) (m : Mode) (id n : Nat) (body : List Byte) : Expanded :=
  let d := bodyLen body
  let byte (i : Nat) : Nat := (body.getD i 0).toNat
  match v.code id with
  | none => .error ⟨8, d, 0, 0⟩
  | some code =>
    match m with
    | .table =>
      if !lengthOk body n 4 || decide (byte 2 ≠ 0) || decide (byte 3 ≠ 0) then .error ⟨7, d, 0, 0⟩
      else readTable d code (readerOf body 4)
    | .delta =>
      if !lengthOk body n 8 || decide (16 ≤ byte 3) then .error ⟨7, d, 0, 0⟩
      else
        match readRuns d code 256 [] (readerOf body 8) with
        | .error e => .error e
        | .ok (dd, r) =>
          match bodyEnd d r dd, v.footing with
          | .error e, _ => .error e
          | .ok _, .error e => .error e
          | .ok dd, .ok base => .ok (List.zipWith (· ^^^ ·) dd base)
    | _ =>
      let hdr := if m = .weight then 8 else 4
      let sm := byte 3
      let sc := byte 4 + 256 * byte 5
      let smT := if 128 ≤ sm then (v.code (sm % 32)).map some else some none
      let scT := if m = .weight ∧ 32768 ≤ sc then (v.code (sc % 32)).map some else some none
      match smT, scT with
      | some smT, some scT =>
        match splitOf (byte 2) with
        | none => .error ⟨7, d, 0, 0⟩
        | some p =>
          if !lengthOk body n hdr || decide (bitsOf sm 6 5 ≠ 0) || (smT.isSome && decide (8 < p.smw))
              || (decide (m = .weight) && decide (bitsOf sc 14 5 ≠ 0)) then
            .error ⟨7, d, 0, 0⟩
          else readPlane d (byte 2) v.pos p code smT scT (readerOf body hdr)
      | _, _ => .error ⟨8, d, 0, 0⟩

/-- The declared length of a body (R182): LENGTH for a coded one, 32 for FILL, 256 for RAW of eight sectors. -/
def declaredLen (b : Stored) : Nat :=
  match recMode b.record with
  | .zero => 0 | .raw => 32 * recSectors b.record | .fill => 32 | _ => bodyLen b.body

/-- The mismatch of a body read whole whose plaintext fails its CRC (R182, R185). -/
def crcMismatch (b : Stored) : Mismatch := ⟨5, declaredLen b, declaredLen b, 256⟩

/-- The expander (R161, R164, R167, R171, R182): the 256 plaintext bytes, or the size mismatch. -/
def expand (v : ExpandEnv) (b : Stored) : Expanded :=
  if b.record = 0 then .ok (List.replicate 256 0)
  else if !recordOk b.record then .error ⟨6, 0, 0, 0⟩
  else
    let n := recSectors b.record
    let body := fit (32 * n) b.body
    let out : Expanded := match recMode b.record with
      | .zero => .ok (List.replicate 256 0)
      | .raw => .ok (if n = 8 then body else List.replicate 256 0)
      | .fill => if (body.drop 8).all (· = 0) then .ok ((List.replicate 32 (body.take 8)).flatten) else .error ⟨7, 32, 32, 0⟩
      | .reserved => .error ⟨6, 0, 0, 0⟩
      | m => readBody v m (recTable b.record) n body
    match out with
    | .error e => .error e
    | .ok p => if crc32c p = recCrc b.record then .ok p else .error (crcMismatch ⟨b.record, body⟩)

/-- The base a coded DELTA brick names in its header (R170): shelf and version. -/
def baseNamed (b : Stored) : Option (Nat × Nat) :=
  if recMode b.record = .delta then some (ofLe ((b.body.drop 2).take 2), ofLe ((b.body.drop 4).take 4)) else none

/-- The tables a stored brick names (R174): TABLE_ID, SM_TABLE and SCALE_TABLE. -/
def tablesNamed (b : Stored) : List Nat :=
  let m := recMode b.record
  let byte (i : Nat) : Nat := (b.body.getD i 0).toNat
  if b.record = 0 ∨ recPoison b.record then []
  else
    match m with
    | .table => [recTable b.record]
    | .delta => [recTable b.record]
    | .plane => recTable b.record :: (if 128 ≤ byte 3 then [byte 3 % 32] else [])
    | .weight => recTable b.record :: ((if 128 ≤ byte 3 then [byte 3 % 32] else [])
        ++ (if 128 ≤ byte 5 then [byte 4 % 32] else []))
    | _ => []

end Sys2Proof.Machine
end

