-- ==== Sys2Proof/Machine/TypesCellar.lean ====
section
/-!
DEFINITION. Sys2Proof/Machine/TypesCellar.lean: the state of the Cellar's translation layer, as plain data.
-/

namespace Sys2Proof.Machine

/-- Where an image lies (R336, R344): stripe set, way, block, row, its byte offset in the row's data, and the positions that the row's units lie on
(R355, R356, R358). -/
structure Loc where
  set_ : Nat
  way : Nat
  block : Nat
  row : Nat
  off : Nat
  dies : Nat
  deriving DecidableEq, Repr

/-- A Cellar page image (R168, R345): the page it is of (2^34 times the room plus page), its generation and GROUP_SEQ, its
page group and bricks encrypted, where it lies once it is programmed, how many manifests and versions refer to it beside the live page (R342), and
whether its bricks are lost (R354). -/
structure Image where
  page : Nat
  gen : Nat
  groupSeq : Nat
  group : List Byte
  bricks : List Laid
  loc : Option Loc
  refs : Nat
  lost : Bool
  deriving DecidableEq, Repr

/-- Superblock states (R341). -/
inductive SbMode where
  | erased | opened | sealed | victim | erasing
  deriving DecidableEq, Repr

/-- A superblock (R336, R341, R352): state, rows programmed, when it was sealed, erase count. -/
structure Superblock where
  mode : SbMode
  rows : Nat
  sealedAt : Nat
  erases : Nat
  deriving DecidableEq, Repr

/-- An image in a row buffer (R339): its slot, its byte offset in the row, the page it is a write-back or demotion of, none for an image that is
relocated, and where such an image lay when it was put there (R345). -/
structure RowItem where
  slot : Nat
  off : Nat
  page : Option Nat
  src : Option Loc
  deriving DecidableEq, Repr

/-- A row being filled, or being programmed (R339): its superblock's key, its number, its images, bytes used, the stamp of
its first image, and the positions in service when it was begun (R356, R358). -/
structure RowBuf where
  sb : Nat
  row : Nat
  items : List RowItem
  used : Nat
  first : Nat
  dies : Nat
  deriving DecidableEq, Repr

/-- CCH_STATE (R362). -/
inductive CchMode where
  | off | training | serving | rebuilding | disabled
  deriving DecidableEq, Repr

/-- A Cellar channel (R362): state, dies in service, bad blocks by way, counters, last training, recoveries since the last
entry, and when its read path is free for the next fetch (R149). -/
structure CellarChan where
  mode : CchMode
  dies : Nat
  bad : List Nat
  corrected : Nat
  recoveries : Nat
  lost : Nat
  trainedAt : Nat
  recent : Nat
  recentAt : Option Nat
  readAt : Nat
  deriving DecidableEq, Repr

/-- A rebuild of a die or a channel (R358): channel, ways, the slots still to rewrite, images rewritten, and its place in the order of
detection (R33). -/
structure Rebuild where
  channel : Nat
  ways : Nat
  todo : List Nat
  rewritten : Nat
  order : Nat
  deriving DecidableEq, Repr

/-- The Cellar (chapter Cellar Flash Tier). `images` is keyed by slot; `supers` by 2^16 times the set plus 2,543 times the
way plus block; `open_` gives the open superblock of a set (key 2 times the set, plus 1 for relocation); `rows` the row
buffers by the same key; `programs` the rows in programming; `bad` holds blocks replaced; `senses` counts by block, 2^22
times the channel plus 4 times (2,543 times the way plus block) plus the plane; `map` the changed map pages not yet checkpointed with the ROW_SEQ of
their oldest change, oldest first; `zoneRows` the zone's row count by set; `onfi` the identity read
from each die's parameter page (R26), by 8 times the channel plus the way, and `marks` the blocks found factory-marked bad there, as 4,096 times the plane plus the block (R355);
`swaps` gives the block that stands for one replaced (R355, R356) and `spares` the blocks of a plane in no superblock, by plane; `left` the
positions that a superblock runs without. -/
structure Cellar where
  images : Tbl Image
  nextSlot : Nat
  supers : Tbl Superblock
  open_ : Tbl Nat
  rows : Tbl RowBuf
  programs : List (Nat × RowBuf)
  rowSeq : Nat
  chans : Tbl CellarChan
  senses : Tbl Nat
  rebuilds : Tbl (List Rebuild)
  map : List (Nat × Nat)
  zoneSet : Bool
  drain : List Nat
  programmed : Nat
  wearSaid : Nat
  spaceAt : Tbl Nat
  zoneAt : Option Nat
  slotsAt : Option Nat
  queue : List Nat
  onfi : Tbl Nat
  marks : Tbl (List Nat)
  swaps : Tbl Nat
  spares : Tbl (List Nat)
  left : Tbl Nat
  deriving DecidableEq, Repr

end Sys2Proof.Machine
end

