-- ==== Sys2Proof/Machine/TypesCodec.lean ====
section
/-!
DEFINITION. Sys2Proof/Machine/TypesCodec.lean: the state of the table slots, the hardware first pass and packed loads, as
plain data.
-/

namespace Sys2Proof.Machine

/-- One of the 4,096 table slots (R174): its image, and whether the hardware first pass loaded it. -/
structure TableSlot where
  image : List Byte
  built : Bool
  deriving DecidableEq, Repr

/-- A window's sample (R203): bytes received, counts of byte values and of exponent symbols, and whether it is complete. -/
structure Sample where
  bytes : Nat
  values : Tbl Nat
  exps : Tbl Nat
  done : Bool
  deriving DecidableEq, Repr

/-- A packed-image load (R205, R207): state and reason as PACKED_LOAD_STATUS has them; `paid` counts the 64-byte units of the page at hand that
its class has been charged. -/
structure Load where
  src : Nat
  dst : Nat
  total : Nat
  done : Nat
  state : Nat
  reason : Nat
  cause : Nat
  paid : Nat
  deriving DecidableEq, Repr

/-- The codec (chapters 06 and 07): table slots; bindings by 32 times the room plus id; bindings that wait for their boundary, each with its stamp;
samples and the first-pass queue by 16 times the room plus window; from which stamp a window's built tables are used; packed
loads by room; the size mismatches since start; the turns given out in the queues of the compressor lanes. -/
structure Codec where
  slots : Tbl TableSlot
  binds : Tbl Nat
  waiting : List (Nat × Nat × Option Nat)
  samples : Tbl Sample
  queue : List (Nat × Nat)
  usable : Tbl Nat
  loads : Tbl Load
  mismatches : Nat
  turn : Nat
  deriving DecidableEq, Repr

end Sys2Proof.Machine
end

