-- ==== Sys2Proof/Machine/TypesCoherence.lean ====
section
/-!
DEFINITION. Sys2Proof/Machine/TypesCoherence.lean: the state of the directory, of crash scans, and of published regions and
views, as plain data.
-/

namespace Sys2Proof.Machine

/-- The states of a directory entry that is not free (R230). -/
inductive DirMode where
  | shared | owned | lost
  deriving DecidableEq, Repr

/-- A directory entry (R230): state, holders as a bit mask, when it was last granted (R233), and of a Lost one whether its
poison mark is in the landing (R238). BUSY is set while a recall of the line is outstanding. -/
structure DirEntry where
  st : DirMode
  ports : Nat
  granted : Nat
  marked : Bool
  deriving DecidableEq, Repr

/-- An outstanding BackInv (R94, R231): port, TAG, line, when it was sent, and whether the data it brings are discarded
(R219 step 3). -/
structure Recall where
  port : Nat
  tag : Nat
  line : Nat
  since : Nat
  discard : Bool
  deriving DecidableEq, Repr

/-- What a recall or a crash left of a line (R231, R235, R244): the line, its data, whether it is poisoned, and the versions
that hold it, as region and version; with none it is of after the last publish (R245). -/
structure Returned where
  line : Nat
  data : BitVec 512
  poison : Bool
  of_ : List (Nat × Nat)
  deriving DecidableEq, Repr

/-- A crash scan of a port (R234 to R237), running or due at the next boundary: its start S, whether it was declared, the set at which the walk
stands at S, the sets it has passed since, the lines made Lost (false) or freed from Owned (true), and how many Shared entries it cleared. -/
structure Scan where
  port : Nat
  start : Nat
  declared : Bool
  first : Nat
  walked : Nat
  found : Tbl Bool
  cleared : Nat
  deriving DecidableEq, Repr

/-- The directory and the crash scans. `entries` is keyed by 2^40 times the room plus line address bits [45:6]; `grants`
numbers the grants; `victims` is DIR_RECALLS, `recent` and `warnAt` serve DIR_RECALL_PRESSURE; `lists` holds the lines of
the last four scans, newest first, as words of CRASH_BLOCK; `returned` holds lines that wait for their page or its base; `claims` names the victim
that a line's request waits for (R233). -/
structure Dir where
  entries : Tbl DirEntry
  grants : Nat
  recalls : List Recall
  nextTag : Nat
  victims : Nat
  recent : Nat
  recentFrom : Nat
  warnAt : Option Nat
  downs : List Scan
  scans : List Scan
  lists : List (List Nat)
  returned : List Returned
  claims : Tbl Nat
  deriving DecidableEq, Repr

/-- A version of a published region (R241 to R244): number, base, whether it is sealed, whether damaged, its commit
boundary, the recalls it awaits as 4,096 times the port plus the TAG and the lines whose crash outcome it awaits as 2^20 plus
the line, how many there were, and the key of the page that
holds each page of its range, by offset. -/
structure PubVer where
  version : Nat
  base : Nat
  isSealed : Bool
  damaged : Bool
  commit : Nat
  awaits : List Nat
  recalled : Nat
  pages : Tbl Nat
  deriving DecidableEq, Repr

/-- A published region: the highest version ever assigned, and the retained versions, newest first (R241, R242). -/
structure Pub where
  highest : Nat
  vers : List PubVer
  deriving DecidableEq, Repr

/-- A Publish that waits for its boundary (R243). -/
structure PubReq where
  port : Nat
  tag : Nat
  room : Nat
  region : Nat
  base : Nat
  admitted : Nat
  gone : Bool := false
  deriving DecidableEq, Repr

/-- An Open that waits for the end of a Quiet exit (R37). -/
structure OpenWait where
  port : Nat
  tag : Nat
  room : Nat
  line : Nat
  version : Nat
  close : Bool
  gone : Bool := false
  deriving DecidableEq, Repr

/-- Published regions and views: `opens` are the Opens that wait; `views` is the version open by 16 times the room plus window, `last` PUB_LAST_STATUS by
region, `status` VIEW_STATUS by view, `copies` the number of the last page copy. -/
structure Pubs where
  regions : Tbl Pub
  waiting : List PubReq
  opens : List OpenWait
  views : Tbl Nat
  last : Tbl Nat
  status : Tbl Nat
  copies : Nat
  deriving DecidableEq, Repr

end Sys2Proof.Machine
end

