-- ==== Sys2Proof/Machine/TypesControl.lean ====
section
/-!
DEFINITION. Sys2Proof/Machine/TypesControl.lean: the state of time, tally, notifications, the object dictionary, function
states, power, board, Cistern, rooms and admission, as plain data.
-/

namespace Sys2Proof.Machine

/-- The time states of R60. -/
inductive TimeMode where
  | free | locked | loose | holdover | adrift
  deriving DecidableEq, Repr

/-- Where time comes from (R72 TIME_SOURCE). -/
inductive TimeSource where
  | none | ptp | beacon (port : Nat)
  deriving DecidableEq, Repr

/-- The time base, the epoch and the servo (R51 to R60). `slew` is the rate correction of R59 in ppm; the three runs are
the consecutive measurements of R60 in the present state. `course` is never stepped but by the first acquisition (R58); `base` is the
course at which the epoch in force lies, so that a stamp given out counts from that epoch (R51, R57). -/
structure Time where
  course : Nat
  pos : Nat
  base : Nat
  epoch : Nat
  epochFixed : Bool
  history : List (Nat × Nat)
  mode : TimeMode
  offset : Int
  source : TimeSource
  slew : Int
  runNear : Nat
  runOff : Nat
  runFar : Nat
  lastMeas : Nat
  lastPtp : Option Nat
  acquired : Bool
  startedAt : Nat
  hops : Nat
  beaconSent : Tbl Nat
  linkDelay : Tbl Int
  master : Option (Announce × Nat)
  deriving DecidableEq, Repr

/-- A tally entry (R62); its CRC is computed when it is laid out in bytes. `base` is the course of the epoch in force when it was
taken. -/
structure TallyEntry where
  stamp : Nat
  base : Nat
  seq : Nat
  modIdx : Nat
  region : Nat
  unit : Nat
  sev : Nat
  adrift : Bool
  replayed : Bool
  code : Nat
  args : List Byte
  deriving DecidableEq, Repr

/-- The tally (R65 to R68): the entries still held, oldest first, the first of them numbered `oldest`; how many are
drained; the next SEQUENCE of each source; the writer's buffer, each entry with the room of the path of R124 and the rooms whose owner ports
hear of it too; the counts of events not written; the numbers of entries whose Loft word was lost (R368). -/
structure Tally where
  entries : List TallyEntry
  oldest : Nat
  drained : Nat
  seqs : Tbl Nat
  held : List (TallyEntry × Option Nat × List Nat)
  infoOff : Bool
  noticeOff : Bool
  missInfo : Nat
  missNotice : Nat
  missWarning : Nat
  missFault : Nat
  missFirst : Option Nat
  sealed : Bool
  sinceStart : Nat
  damaged : List Nat
  deriving DecidableEq, Repr

/-- One destination's notification queue (R455, R456). -/
structure NotifyQueue where
  queue : List TallyEntry
  dropped : Nat
  seq : Nat
  reported : Option Nat
  deriving DecidableEq, Repr

/-- A block transfer under way (R448). -/
structure Transfer where
  key : Nat
  total : Nat
  got : List Byte
  nextSeq : Nat
  last : Nat
  deriving DecidableEq, Repr

/-- A transport session (R449): its per-session values, its block transfers, when it was last heard. -/
structure Session where
  arr : Arrival
  vals : Tbl Nat
  transfers : List Transfer
  last : Nat
  spdm : List Byte
  deriving DecidableEq, Repr

/-- The I3C target (R452): dynamic address, interrupts enabled, maximum write and read lengths, the reset action of RSTACT, responses that
wait. -/
structure I3c where
  addr : Nat
  irq : Bool
  mwl : Nat
  mrl : Nat
  action : Nat
  waiting : List (List Byte)
  deriving DecidableEq, Repr

/-- The object dictionary: sessions, the values of plain entries by key (an unlisted key reads its default); by key the value that decisions
still use beside one written late in a course, and the boundary that ends this (R47); the values of OCTETS entries, the counters of R462, frames discarded of late by transport, and the I3C target. -/
structure Od where
  sessions : List Session
  vals : Tbl Nat
  late : Tbl (Nat × Nat)
  blobs : Tbl (List Byte)
  requests : Nat
  discarded : Nat
  dropped : Nat
  recentBad : Tbl Nat
  i3c : I3c
  deriving DecidableEq, Repr

/-- The four states of a function (R457). -/
inductive Fn where
  | off | starting | on | stopping
  deriving DecidableEq, Repr

/-- A function-state entry (R457) with the last request written, the request latched and the boundary at which it is acted on
(R47), and when the state last changed. -/
structure FnWord where
  state : Fn
  cause : Nat
  held : Bool
  pendDis : Bool
  pendEn : Bool
  want : Bool
  latched : Option (Bool × Nat)
  since : Nat
  deriving DecidableEq, Repr

/-- Function states by kind (R463: 1 port, 2 core, 3 room, 4 stair, 5 scrubber, 6 Cellar channel) and instance, keyed
1024 times kind plus instance. -/
abbrev Funcs := Tbl FnWord

/-- Power states (R35), with the start sequence between Off and Full. -/
inductive PowerMode where
  | off | starting | full | capped | quiet | brace | flush | sealed
  deriving DecidableEq, Repr

/-- How far a QUIET_ENTER has come (R36). -/
inductive QuietPhase where
  | none | calls | writing | frozen
  deriving DecidableEq, Repr

/-- Why Brace ran (R35, R398). -/
inductive BraceCause where
  | pwrfail | below38 | failure
  deriving DecidableEq, Repr

/-- Power (R35 to R41): `cap` is the cap in force, `capAt` the boundary from which a cap written later counts (R47); `sealedAt` is when it last became Sealed; `core` counts the governor's 0.1 GHz core-clock steps, `store` its Store-rate steps, `x2` its port
step and `cut` its budget reduction in bytes a course, once the fourth step is taken; `regionSteps` the core-clock steps of throttled regions (R27);
`shares` each region's share of the power budget in the present course, in mW (R40). -/
structure Power where
  mode : PowerMode
  cap : Nat
  capAt : Nat
  input : Nat
  demand : Nat
  core : Nat
  store : Nat
  x2 : Bool
  cut : Option Nat
  calmRun : Nat
  quiet : QuietPhase
  exitAt : Option Nat
  exitOwed : Bool
  braceStamp : Nat
  braceCause : BraceCause
  braceQuiet : Bool
  sealedAt : Nat
  flushStamp : Nat
  failure : Bool
  keeperDown : Bool
  keeperRestart : Option Nat
  zeroing : Bool
  regionSteps : Tbl Nat
  shares : List Nat
  deriving DecidableEq, Repr

/-- One discrete input (R508 to R510); `owed` is how many courses it had stood when it was declared faulty in Sealed, where nothing is
recorded: the next start writes the entry. -/
structure Pin where
  taken : Bool
  toggling : Bool
  faulty : Bool
  seen : Bool
  since : Nat
  owed : Option Nat
  deriving DecidableEq, Repr

/-- The IEEE 1149.1 port (R427). -/
inductive JtagIr where
  | idle | bypass | idcode | sample | extest
  deriving DecidableEq, Repr

/-- The board interface (chapter Board Interface): pins 0 PWRFAIL_N, 1 THERM_TRIP_N, 2 RESET_N, 3 PRESENT_N, 4 LID_LOOP;
supplies in mV; die temperatures in 0.1 °C; the boundaries each die has stood at its limit; ROLESEL straps. -/
structure Board where
  pins : Tbl Pin
  vin : Nat
  aux : Nat
  switchOpen : Bool
  auxLost : Bool
  temps : List Int
  hot : Tbl Nat
  straps : Nat
  bench : Bool
  seatLost : Bool
  faultN : Bool
  jtag : JtagIr
  scan : BitVec 512
  deriving DecidableEq, Repr

/-- One Cistern cell: mV, 0.1 °C, capacitance in 0.01 F and ESR in µΩ as last measured, and its first ESR (R387). -/
structure Cell where
  mv : Nat
  temp : Int
  cap : Nat
  esr : Nat
  esr0 : Option Nat
  deriving DecidableEq, Repr

/-- What the pack does (R389, R397): it is not yet assessed, it charges, it is charged, it supplies the module. -/
inductive CisternMode where
  | idle | charging | ready | supplying
  deriving DecidableEq, Repr

/-- The stage of a capacity check (R391): waiting for the dirty total until a course, or discharging. -/
inductive CheckPhase where
  | none | waiting (until_ : Nat) | discharging
  deriving DecidableEq, Repr

/-- The Cistern controller (chapter 15): the ceiling in force and by_energy; `j` in 0.01 J per GB and `energy` in J as last computed; a
fault with its cell; `distrusted` after a failed S08 (R469); how many boundaries in a row found every cell within its limits; the
check under way, the ceiling it sets, and one asked for that waits for a full pack; the courses of the next check and the stamp of the
last; `due` is the cause for which the next boundary recomputes; the ceiling CEILING_CHANGE last reported; durable writes Held since
CEILING_HOLD. -/
structure Cistern where
  mode : CisternMode
  cells : List Cell
  ceiling : Nat
  byEnergy : Nat
  j : Nat
  energy : Nat
  writeThrough : Bool
  fault : Option (Nat × PackCause)
  distrusted : Bool
  okRun : Nat
  phase : CheckPhase
  low : Nat
  asked : Bool
  nextCheck : Nat
  lastCheck : Nat
  eol : Bool
  due : Option Nat
  reported : Nat
  holds : Nat
  holdAt : Option Nat
  breached : Bool
  deriving DecidableEq, Repr

/-- One 8-byte entry of the flush list (R399 step 3), with the page it stands for, when that became DIRTY, its size in a row and
where its image lies in the zone once it is programmed. -/
structure FlushItem where
  slot : Nat
  seq : Nat
  page : Nat
  since : Nat
  bytes : Nat
  loc : Option Loc
  deriving DecidableEq, Repr

/-- A flush manifest (R400). -/
structure FlushManifest where
  kind : Nat
  cause : Nat
  seq : Nat
  brace : Nat
  flush : Nat
  fin : Nat
  entries : Nat
  stored : Nat
  firstRow : Nat
  lastRow : Nat
  energy : Nat
  drawn : Nat
  deriving DecidableEq, Repr

/-- The flush record of the start ledger, the list and the manifests (R398 to R402); what the next start owes to a Brace: an
SHELF_VOID for each shelf command interrupted (shelf, version, operation, room), PUB_VOID for each version void (region, version), and the two
lines of each shelf command by Call (room, line, CALL_ID, result). -/
structure Flush where
  seq : Nat
  isOpen : Bool
  sealed : Bool
  stamp : Nat
  listDone : Bool
  list : List FlushItem
  done : Nat
  durable : Option FlushManifest
  volatile : Option FlushManifest
  volList : List FlushItem
  shelfVoids : List (Nat × Nat × Nat × Nat)
  pubVoids : List (Nat × Nat)
  shelfCalls : List (Nat × Nat × Nat × List Byte)
  deriving DecidableEq, Repr

/-- What the model keeps of a room beside its configuration, which stands in the dictionary's values (R128, R129); `recentRefusals` are the
stamps and pages of the first writes refused in the last 64 courses. -/
structure Room where
  borrowed : Nat
  refusals : Nat
  recentRefusals : List (Nat × Nat)
  refusalAt : Option Nat
  spill : Nat
  stall : Nat
  effStore : Nat
  deriving DecidableEq, Repr

/-- One (room, class) pair (R121 to R126, R130). `used` and `admitted` count bytes of the present course, `reads` and
`late` its reads answered OK and those past the latency target; `last` what was served in the
last course; `queued` the bytes queued at the course's start, `want` the demand that its division used. -/
structure Pair where
  effFloor : Nat
  served : Nat
  used : Nat
  admitted : Nat
  queued : Nat
  share : Nat
  misses : Nat
  missSince : Nat
  missAt : Option Nat
  reads : Nat
  late : Nat
  last : Nat
  want : Nat
  deriving DecidableEq, Repr

/-- Configuration and admission (R117 to R126). `inputs` are what the budget depended on when it was last computed, in the order
of the causes of R131 and for each unit on its own: channels, set point, ports, governor reduction, regions, Cellar limit, packages. -/
structure Adm where
  staging : Tbl Nat
  commitAt : Option Nat
  status : Nat
  detail : Nat
  commitNo : Nat
  store : Nat
  link : Nat
  cellarLimit : Nat
  d : Nat
  limit : Nat
  remainder : Nat
  emptyRaised : Bool
  inputs : List (List Nat)
  pairs : Tbl Pair
  deriving DecidableEq, Repr

end Sys2Proof.Machine
end

