-- ==== Sys2Proof/Machine/TypesTiers.lean ====
section
/-!
DEFINITION. Sys2Proof/Machine/TypesTiers.lean: the state of pages, the Loft landing, the queues of placement, open requests
and stairs, as plain data.
-/

namespace Sys2Proof.Machine

/-- Page states (R132), coded as PAGE_STATUS of R157. -/
inductive PageMode where
  | new | dirty | clean | cellar | volatile | demoted
  deriving DecidableEq, Repr

/-- Transit operations (R133), coded as PAGE_STATUS of R157. -/
inductive Transit where
  | none | fetching | writing | demoting
  deriving DecidableEq, Repr

/-- One page (R132 to R141): its state; the bricks of its Store copy in stored form (R168), with the footing bricks of its
DELTA bricks, each with the generation it lies under (R181, R196); its Store frame; the Cellar map slot of its image; its generation
and GROUP_SEQ, its page group in the Store encrypted and that group's check bytes (R168, R197, R200); the generations taken up for it
so far, and whether its bricks and group stand behind forms already written under their generation (R165); the region of its
Loft copy; the touch counters and heat record; when it became DIRTY; until when it is pinned (R96); the snapshot that a
write-back or demotion copies, in the form it has then, and whether a write came since; its place in the write-back queue (step 1 to 4 of R145,
order queued); whether placement has put it on its way out; whether a Store-pinned window holds it unpinned (R143), whether a stair's Loft step holds it in the Loft (R153), and whether it has been
counted as held back from the Loft (R113); and by brick the highest VERSION drawn that
its record does not show (R215). -/
structure Page where
  mode : PageMode
  transit : Transit
  bricks : List Laid
  footing : Tbl (Nat × Laid)
  frame : Option Nat
  slot : Option Nat
  gen : Nat
  groupSeq : Nat
  group : List Byte
  groupCheck : List Byte
  gens : Nat
  behind : Bool
  loft : Option Nat
  touches : List Nat
  heat : Nat
  lastTouch : Nat
  dirtySince : Nat
  pinUntil : Nat
  snapshot : Option PageForm
  wrote : Bool
  wbStep : Nat
  wbOrder : Nat
  leaving : Bool
  unpinned : Bool
  promote : Bool
  spilled : Bool
  drawn : Tbl Nat
  deriving DecidableEq, Repr

/-- Why a fetch runs (R149): for a request owing a ready stamp, for a stair's step in a class, or for placement. -/
inductive FetchKind where
  | owed (ready : Nat)
  | stair (stair cls step : Nat)
  | placement
  deriving DecidableEq, Repr

/-- A Cellar fetch queued or under way (R149); `step` is the stair and the step that it was issued for, whatever it owes since, `begun` when
its read began. -/
structure Fetch where
  page : Nat
  kind : FetchKind
  channel : Nat
  bytes : Nat
  issued : Nat
  loft : Bool
  step : Option (Nat × Nat)
  begun : Option Nat
  deriving DecidableEq, Repr

/-- A reservation of R96 or R491: stored bytes under the ceiling and landing bricks, for a port or a far page, until a
stamp. -/
structure Reservation where
  port : Nat
  page : Nat
  line : Nat
  bytes : Nat
  bricks : Nat
  until_ : Nat
  deriving DecidableEq, Repr

/-- Placement and the queues of the tiers (chapter Loft, Store and Cellar). `promo` holds the pages queued for promotion,
oldest first; `order` counts pages queued for write-back; `scan` is each room's rotating position (R142); `overAt` and
`spillAt` are when a room last raised STORE_OVERSHOOT and PIN_SPILL, `spills` the stamps at which pages of it were placed unpinned in the last 64
courses; `scale` is
LOFT_QUOTA_SCALE (R137); `stuck` the rooms that R147 holds nothing for; `channels` the Cellar channels in service at the last boundary (R156); `excess` the program bytes
that a course took of the next one's, since a page is taken whole. -/
structure Tier where
  promo : List Nat
  order : Nat
  scan : Tbl Nat
  fetches : List Fetch
  reservations : List Reservation
  overAt : Tbl Nat
  spillAt : Tbl Nat
  spills : Tbl (List Nat)
  lagAt : Option Nat
  scale : Nat
  stuck : List Nat
  pressure : Bool
  channels : Nat
  excess : Nat
  deriving DecidableEq, Repr

/-- One landing slot (R138, R192): the brick's plaintext, which lines are poisoned and
which have been written, whether its fill from the Store is in
flight (writes then wait, and are merged in arrival order when it has been checked), when it was last written, whether it is
queued for compression, and then in which compressor lane's queue and its turn there (R186); whether a shelve's freeze marked it, and the plaintext and poisoned lines of
the marked slot of its brick that a write after the freeze has left behind it (R214). -/
structure Landing where
  data : List Byte
  poison : Nat
  written : Nat
  filling : Bool
  last : Nat
  queued : Bool
  lane : Option Nat
  turn : Nat
  marked : Bool
  under : Option (List Byte × Nat)
  deriving DecidableEq, Repr

/-- The operations on lines (R89, R90). -/
inductive LineOp where
  | rd | own | wr | mask
  deriving DecidableEq, Repr

/-- Why an admitted request waits (R150). -/
inductive Wait where
  | fetch | overshoot | landing | ceiling | scan | recall | fill | read | quiet | share | bays | far | order
  deriving DecidableEq, Repr

/-- A request admitted and not yet answered (R88 to R98); `heldFor` is the reason of the Hold it is a re-issue of (R96), `passed` that its pair
had use of the course left for it (R122), `gone` that its port has been Down since, so that its answer is discarded (R101),
`parity` that a parity error struck its data on the way to the landing (R366). -/
structure OpenReq where
  port : Nat
  tag : Nat
  op : LineOp
  room : Nat
  line : Nat
  data : BitVec 512
  mask : BitVec 64
  poison : Bool
  admitted : Nat
  why : Wait
  ready : Nat
  heldFor : Option Wait
  passed : Bool := false
  gone : Bool := false
  parity : Bool := false
  deriving DecidableEq, Repr

/-- A request answered Hold (R95 to R97): what is kept of it until its pin lapses. -/
structure HeldReq where
  port : Nat
  op : LineOp
  room : Nat
  line : Nat
  why : Wait
  ready : Nat
  deriving DecidableEq, Repr

/-- Requests open and Held, by port. -/
structure Requests where
  opened : List OpenReq
  held : List HeldReq
  deriving DecidableEq, Repr

/-- A step of a stair (R151, R158). -/
structure StairStep where
  base : Nat
  size : Nat
  deadline : Nat
  deriving DecidableEq, Repr

/-- The run of a stair (R152 to R156): its declaration stands in the dictionary's values. `issued` and `late` list steps of
the present pass; `waiting` those withheld while starved. -/
structure Stair where
  k : Nat
  position : Nat
  passes : Nat
  issued : List Nat
  late : List Nat
  waiting : List Nat
  protectedSteps : List Nat
  lateCount : Nat
  lastLate : Nat
  starved : Bool
  starvedRaised : Bool
  firstTouch : Tbl Nat
  passStart : Nat
  deriving DecidableEq, Repr

end Sys2Proof.Machine
end

