-- ==== Sys2Proof/Machine/TypesCores.lean ====
section
/-!
DEFINITION. Sys2Proof/Machine/TypesCores.lean: the state of the Gopepen cores, of calls and of the program store, as plain
data.
-/

namespace Sys2Proof.Machine

/-- The states of a call (R264), coded as CALL_STATUS of R276. -/
inductive CallMode where
  | ready | parked | ending | ended
  deriving DecidableEq, Repr

/-- How a call ends (R264, R267): the place of the ending in the list of R264 (6: an ending no step decides), the core of the
step, the course, OUTCOME, DETAIL, CODE and the 48 bytes of RESULT. -/
structure Ending where
  rank : Nat
  core : Nat
  course : Nat
  outcome : Nat
  detail : Nat
  code : Nat
  result : List Byte
  deriving DecidableEq, Repr

/-- An accepted call (R263 to R267): its fields and argument block, its class, the stamp of its admission, the program it
runs (none for a shelf command), its state, the index of its next step, the stamp it is parked to, whether a step of the
present course ended MORE and whether one ended MORE_AFTER, the cores that ran it in the course before this one, its stream bytes of the course by region, those of its last
eight steps, and its ending. `digest` is the line that a shelf command writes after its completion line (R223). -/
structure Call where
  id : Nat
  handle : Nat
  room : Nat
  line : Nat
  cls : Nat
  cores : Nat
  budget : Nat
  args : List Byte
  accepted : Nat
  prog : Option Nat
  mode : CallMode
  steps : Nat
  kept : Nat
  more : Bool
  moreAfter : Bool
  last : Nat
  flow : List Nat
  bytes : List Nat
  ending : Option Ending
  digest : Option (List Byte)
  deriving DecidableEq, Repr

/-- A stream context (R259, R304, R305): its descriptor, its status as the status word codes it, bytes moved, the ready stamp
of ABSENT or HELD. TARGET is 0 engine feed, 1 wide registers, 2 tile store; `off` the tile-store offset or first register;
`feed` holds bytes moved that no MMA has taken; `why` is the reason of a stop, and `skip` the reason for which a stream
re-issued at its ready stamp is not stopped again (R96). -/
structure Stream where
  configured : Bool
  write : Bool
  base : Nat
  length : Nat
  stride : Nat
  row : Nat
  target : Nat
  off : Nat
  status : Nat
  moved : Nat
  ready : Nat
  feed : List Byte
  why : Option Wait
  skip : Option Wait
  deriving DecidableEq, Repr

/-- A core (R252 to R255, R265): the call and room it is leased to this course, the room whose data its tile store holds, the
call it ran last course; of the running step, whether it runs, whether STEPEND waits and with which status and stamp, its
index, whether it started warm, its cycles of clear and set-up, its first word and the program's length in words; the
registers (an unlisted wide register or tile is zero), the tile store, the stream contexts; stream bytes of the step; steps,
overruns and cold starts since start; whether an engine feed of the step has come through an expander lane (R190); the cycles that the course gives
the step (R265). -/
structure Core where
  call : Option Nat
  room : Option Nat
  holds : Option Nat
  lastCall : Option Nat
  running : Bool
  ending : Option (Nat × Nat)
  index : Nat
  warm : Bool
  setup : Nat
  pc : Nat
  words : Nat
  s : List Word
  w : Tbl Wide
  a : Tbl Tile
  ts : Memory
  st : List Stream
  bytes : Nat
  steps : Nat
  overruns : Nat
  colds : Nat
  expanded : Bool
  cycles : Nat
  deriving DecidableEq, Repr

/-- An image in the program store (R274): its serial number, handle, the rooms that may call it, its bytes, and whether
new Calls find it. -/
structure Prog where
  serial : Nat
  handle : Nat
  rooms : Nat
  image : List Byte
  current : Bool
  deriving DecidableEq, Repr

/-- The cores, the calls and the program store (chapters 10 and 11). `status` is PROG_STATUS by handle; `voids` lists the calls that CALL_VOID names and whose
completion lines S13 owes (R269): room, line, CALL_ID, steps. -/
structure Cores where
  cores : Tbl Core
  calls : List Call
  nextId : Nat
  progs : List Prog
  nextProg : Nat
  status : Tbl Nat
  voids : List (Nat × Nat × Nat × Nat)
  deriving DecidableEq, Repr

end Sys2Proof.Machine
end

