-- ==== Sys2Proof/Machine/TypesIntegrity.lean ====
section
/-!
DEFINITION. Sys2Proof/Machine/TypesIntegrity.lean: the state of scrubbers, repeat tables, repairs and searches, as plain
data.
-/

namespace Sys2Proof.Machine

/-- An entry of a region's repeat table (R382); its course is kept whole. -/
structure RepeatEntry where
  bay : Nat
  unit : Nat
  count : Nat
  course : Nat
  deriving DecidableEq, Repr

/-- A repair that waits for the landing (R374, R375): brick, source as BRICK_REPAIRED has it, plaintext. -/
structure Repair where
  brick : Nat
  source : Nat
  plain : List Byte
  deriving DecidableEq, Repr

/-- Data integrity (chapter 14): repeat tables by region, oldest first, with entries replaced of late and when that was last
said; repairs queued; lost images searched for, by slot; scrub pass start, counts of the pass and since start; Loft words
corrected since start and the stamp of the last Loft pass; parity errors; repairs done. -/
structure Integ where
  repeats : Tbl (List RepeatEntry)
  replaced : Tbl Nat
  fullAt : Tbl Nat
  repairs : List Repair
  searches : List Nat
  scrubFrom : Nat
  passCorrected : Nat
  passUncorrected : Nat
  passes : Nat
  corrected : Nat
  loftCorrected : Nat
  loftFrom : Nat
  parity : Nat
  repaired : Nat
  deriving DecidableEq, Repr

end Sys2Proof.Machine
end

