-- ==== Sys2Proof/Machine/TypesVault.lean ====
section
/-!
DEFINITION. Sys2Proof/Machine/TypesVault.lean: the state of a vault's member, as plain data.
-/

namespace Sys2Proof.Machine

/-- VAULT_STATE (R501). -/
inductive VaultMode where
  | standalone | joining | joined | fenced
  deriving DecidableEq, Repr

/-- The per-peer states of R488, coded as PEER_STATUS of R501. -/
inductive PeerMode where
  | unknown | joined | refused | fenced | lost
  deriving DecidableEq, Repr

/-- A peer (R488, R501): state, last cause, when it was last heard, when it was last sent an Alive or another message; whether a Lost
peer has been heard, or a Fenced one has presented the current epoch, since its last checks. -/
structure Peer where
  st : PeerMode
  cause : Nat
  heard : Nat
  sent : Nat
  again : Bool
  deriving DecidableEq, Repr

/-- A forwarding record of the base (R490, R492, R493): home, target while MOVING, until when no move away is ordered, the
projected commit of the move. -/
structure Forward where
  home : Nat
  target : Option Nat
  dwell : Nat
  commit : Nat
  deriving DecidableEq, Repr

/-- What a requester has heard of a far page it asked for (R491). -/
inductive FarMode where
  | asked | soon (landing : Nat) | deferred (retry : Nat) | landed
  deriving DecidableEq, Repr

/-- A move out of this home (R492 step 3): target, whether the page has been sent, the projected landing. -/
structure Leaving where
  target : Nat
  sent : Bool
  landing : Nat
  deriving DecidableEq, Repr

/-- A PageMove message (R489): other end, kind, SUBJECT, CAUSE, page key, data. -/
structure MoveMsg where
  peer : Nat
  kind : Nat
  subject : Nat
  cause : Nat
  page : Nat
  data : List Byte
  deriving DecidableEq, Repr

/-- A member of a vault (chapter 19): state, peers by module index, JOIN_STATUS, forwarding records by page, far pages asked
for, pages that leave, pages based elsewhere and homed here, pages lost to it (R499), room and peer of the losses said,
messages answered BUSY with the stamp from which they are sent again, when Refused peers were last tried, and the pages a POOL_GATHER
brings back. -/
structure Vault where
  mode : VaultMode
  peers : Tbl Peer
  joinStatus : Nat
  records : Tbl Forward
  far : Tbl FarMode
  leaving : Tbl Leaving
  here : List Nat
  lostPages : List Nat
  lossSaid : List (Nat × Nat)
  again : List (Nat × MoveMsg)
  triedAt : Nat
  gather : List Nat
  deriving DecidableEq, Repr

end Sys2Proof.Machine
end

