-- ==== Sys2Proof/Machine/TypesLink.lean ====
section
/-!
DEFINITION. Sys2Proof/Machine/TypesLink.lean: the state of the Merash link ports, as plain data.
-/

namespace Sys2Proof.Machine

/-- Link states (R77, R104 PORT_LINK_STATE). -/
inductive LinkMode where
  | down | detect | equalise | configure | up | retrain | loopback
  deriving DecidableEq, Repr

/-- A message put together from header and data slots (R82, R83): the header's fields and its data bytes; `need` counts
the announced data slots still to come; one denied at its header is `void`, and its data are dropped as they come. -/
structure Msg where
  op : Nat
  room : Nat
  tag : Nat
  addr : Nat
  arg : Nat
  data : List Byte
  need : Nat
  void : Bool := false
  deriving DecidableEq, Repr

/-- What a read's response is when its first data flit crosses (R50, R123): bytes of a pair, by 8 times the room plus the class, and a latency
from its admission where that counts. -/
structure TxDue where
  key : Nat
  since : Option Nat
  deriving DecidableEq, Repr

/-- A message that waits to be sent: its header slot as W0 plus 2^64 times W1, its data bytes, the credits it takes by type code of R86, its
entry where a PackRsp slot may hold it (R85), the stamp at which it became ready, and what its first data flit is charged as. -/
structure TxMsg where
  head : Nat
  data : List Byte
  cost : List (Nat × Nat)
  entry : Option Nat
  ready : Nat
  due : Option TxDue
  deriving DecidableEq, Repr

/-- A slot to send (R82): a header slot or a data slot, its 16 bytes, what it is charged as. -/
structure TxSlot where
  header : Bool
  bytes : List Byte
  due : Option TxDue
  deriving DecidableEq, Repr

/-- A PAYLOAD flit in the replay buffer (R81): SEQ, SLOT_MAP, the bytes of its slots. -/
structure TxFlit where
  seq : Nat
  map : Nat
  body : List Byte
  deriving DecidableEq, Repr

/-- One port (chapter Merash Link Ports). `role` is the role in force; `lanes` a bit for each lane that trained; `fec` the
corrected bytes of the last 1,000 courses, by 4 times the course plus the lane; `rxSeq` the next PAYLOAD sequence number expected,
`txSeq` the next to send, `acked` the partner's ACK_SEQ; `spent` the partner's credits that have been spent and not returned, `rx` those
granted to the partner that it has not spent, by type code of R86; `announced` the messages whose data slots are not complete; `odTag` the next
TAG of the module's own messages; `odOpen` holds the OdWrite messages not answered, `moveOpen` the PageMove messages by TAG. What is sent
(R79 to R86): `tx` the messages that wait, `slots` those of messages begun, `buffer` the flits not acknowledged, `resend` those a NACK asks for
again, `give` the credits to be returned by type code, `ackDue` and `nackDue` that an ACK_SEQ or a NACK is owed. `retry` says that a Down
port tries again after 5,000 courses (R77). -/
structure Port where
  role : PortRole
  link : LinkMode
  since : Nat
  width : Nat
  lanes : Nat
  laneMap : Nat
  hold : Bool
  partner : Option Partner
  fec : Tbl Nat
  corrected : Nat
  replays : Nat
  retrains : Nat
  rxSeq : Nat
  txSeq : Nat
  acked : Nat
  sinceAck : Nat
  nackSent : Nat
  nackSeq : Nat
  nackRun : Nat
  spent : Tbl Nat
  rx : Tbl Nat
  announced : List Msg
  odTag : Nat
  odOpen : List Nat
  moveOpen : Tbl MoveMsg
  trigger : Nat
  oldWidth : Nat
  tx : List TxMsg
  slots : List TxSlot
  buffer : List TxFlit
  resend : List TxFlit
  give : Tbl Nat
  ackDue : Bool
  nackDue : Bool
  retry : Bool
  deriving DecidableEq, Repr

end Sys2Proof.Machine
end

