-- ==== Sys2Proof/Machine/TypesSecurity.lean ====
section
/-!
DEFINITION. Sys2Proof/Machine/TypesSecurity.lean: the state of the Keystone: lifecycle, firmware slots, room keys, alarms and SPDM, as
plain data.
-/

namespace Sys2Proof.Machine

/-- Firmware slot states (R416). -/
inductive FwMode where
  | empty | staged | trial | committed
  deriving DecidableEq, Repr

/-- A firmware slot (R414, R416): its state, SVN, RELEASE, BODY_DIGEST, and whether the checks of R415 that do not change with the
anti-rollback counter pass. -/
structure FwSlot where
  mode : FwMode
  svn : Nat
  release : Nat
  digest : List Byte
  good : Bool
  deriving DecidableEq, Repr

/-- How far an SPDM connection has come (SPDM 1.3, named by R420). -/
inductive SpdmPhase where
  | none | version | capabilities | negotiated
  deriving DecidableEq, Repr

/-- An SPDM connection (R420, R421): where it is, its phase, the transcript of the negotiation and of the measurements since, the
response a GET_PQ_SIGNATURE may name and what it signed, and a session: 1 begun, 2 open, with its identifier, and how often each direction's keys have been
updated; the handshake secret, the secret from which each direction's key and IV come, and the number of its next secured message. -/
structure Spdm where
  arr : Arrival
  phase : SpdmPhase
  transcript : List Byte
  measured : List Byte
  lastSigned : Option (Nat × List Byte)
  session : Nat
  sid : Nat
  reqKeys : Nat
  rspKeys : Nat
  handshake : List Byte
  reqSecret : List Byte
  rspSecret : List Byte
  reqSeq : Nat
  rspSeq : Nat
  deriving DecidableEq, Repr

/-- The Keystone (chapter Security): the lifecycle log, SEAL_EPOCH, the anti-rollback counter, the firmware slots and which one runs;
the room keys loaded; the sealing key, 32 bytes, none before a start has derived it and after an Erase; the keys' wrapped copies; requests to rooms are denied while `locked`;
LOCK_STATE; the course in which it was set; key slots are disabled; a release waits for the boundary, with the port it came from; an
Erase is under way, for a sensor and with the lifecycle state it leads to; what an Erase discards is still there; the sensors tripped at
present and those that tripped with Lock or Erase, a bit each; trips latched while off; whether the tamper monitor stopped; SPDM
connections. -/
structure Sec where
  locked : Bool
  erasing : Option (Nat × Nat)
  wipe : Bool
  tripped : Nat
  hard : Nat
  log : List Nat
  epoch : Nat
  counter : Nat
  slots : List FwSlot
  running : Nat
  keys : Tbl (BitVec 512)
  sealing : List Byte
  stored : Tbl (List Byte)
  lockState : Nat
  lockedAt : Nat
  keysOff : Bool
  release : Option Nat
  latch : List Nat
  unwatched : Bool
  spdm : List Spdm
  nextSid : Nat
  deriving DecidableEq, Repr

end Sys2Proof.Machine
end

