-- ==== Sys2Proof/Machine/TypesShelf.lean ====
section
/-!
DEFINITION. Sys2Proof/Machine/TypesShelf.lean: the state of the shelves, as plain data.
-/

namespace Sys2Proof.Machine

/-- A page entry of a manifest (R216), with the slot of its image: page number, generation, poison mask, CRCs. -/
structure ManPage where
  page : Nat
  gen : Nat
  slot : Nat
  mask : Nat
  crcs : List Nat
  deriving DecidableEq, Repr

/-- A committed version of a shelf with its manifest (R211, R216). -/
structure ShelfVer where
  version : Nat
  freeze : Nat
  commit : Nat
  digest : List Byte
  ranges : List (Nat × Nat)
  order : List Nat
  pages : List ManPage
  deriving DecidableEq, Repr

/-- Where a shelf command came from (R222): the object dictionary, or a Call with its CALL_ID and completion line. -/
inductive ShelfFrom where
  | od
  | call (id room line : Nat)
  deriving DecidableEq, Repr

/-- A marked page as the freeze has it (R214): the page, its generation, its stored bricks with their footing bricks, the plaintext and poison
mask of the bricks that stood in the landing or that a port owned lines of, whether its content differs from its image, and
whether the live page has been written since. -/
structure MarkedPage where
  page : Nat
  gen : Nat
  bricks : List Laid
  footing : Tbl (Nat × Laid)
  based : Tbl (List Byte × Nat)
  changed : Bool
  written : Bool
  deriving DecidableEq, Repr

/-- A shelve or unshelve that runs (R214, R219): operation 1 or 2, version (0 until it is known), from where, whether it has
frozen or switched, whether its pages have been put to the Cellar, start stamp, the recalls it awaits, the pages marked at the freeze, the pages of
the version whose images are settled, the pages of an unshelve not yet verified and those found to differ from their page
entries, bytes programmed or fetched, bricks poisoned, and the bytes of the manifest that are still to be programmed. -/
structure ShelfJob where
  op : Nat
  version : Nat
  src : ShelfFrom
  begun : Bool
  coded : Bool
  start : Nat
  awaits : List Nat
  marked : List MarkedPage
  pages : List ManPage
  todo : List Nat
  found : List ManPage
  bytes : Nat
  poisoned : Nat
  manifest : Option Nat
  deriving DecidableEq, Repr

/-- A shelf (R209 to R211, R218, R223): its definition, the highest version assigned, the retained versions newest first,
the command that runs, the recorded order of groups and whether it is being recorded, its last result and digest,
and versions released whose images a stored DELTA brick still names (R213). -/
structure Shelf where
  room : Nat
  ranges : List (Nat × Nat)
  cls : Nat
  flags : Nat
  delta : Nat
  highest : Nat
  vers : List ShelfVer
  job : Option ShelfJob
  order : List Nat
  recording : Bool
  result : List Byte
  digest : List Byte
  bases : List ShelfVer
  deriving DecidableEq, Repr

end Sys2Proof.Machine
end

