-- ==== Sys2Proof/Machine/TypesStart.lean ====
section
/-!
DEFINITION. Sys2Proof/Machine/TypesStart.lean: the state of starts, the start ledger and self-test, as plain data.
-/

namespace Sys2Proof.Machine

/-- A step entry of a start record (R468); `base` is the course of the epoch in force at its beginning. -/
structure StepRec where
  outcome : Nat
  detail : Nat
  items : Nat
  start : Nat
  courses : Nat
  base : Nat
  deriving DecidableEq, Repr

/-- A start record (R468); `base` is the course of the epoch in force at its FIRST_STAMP. -/
structure StartRec where
  seq : Nat
  cause : Nat
  lifecycle : Nat
  firmware : Nat
  first : Nat
  alternates : Nat
  outcome : Nat
  failed : Nat
  steps : List StepRec
  base : Nat
  deriving DecidableEq, Repr

/-- The start sequence and the start ledger (R464 to R472): the step running, 1 to 13 (0 none; 14 complete; 15 halted; 16 boot
ROM recovery); a start that waits before S01, by its cause; the records, oldest first, of the ring of 64; failure counts by
item, 256 times the kind plus the instance; items whose counts are to be cleared at the next start; items disabled, mapped out
or retired in this start; rooms whose start at S13 has begun without an end; the room keys' copies not yet tried at S13;
failures of S09 in a row; at S13, once the images are checked, the rooms that are still to be brought online one at a time. -/
structure Start where
  step : Nat
  waiting : Option Nat
  ledger : List StartRec
  counts : Tbl Nat
  clears : List Nat
  items : Nat
  roomsBegun : List Nat
  s09fails : Nat
  roomsLeft : Option (List Nat)
  deriving DecidableEq, Repr

/-- A slice (R474): its kind, region, SOURCE_UNIT and, of a spare rank, the segment. -/
structure Slice where
  kind : Nat
  region : Nat
  unit : Nat
  seg : Nat
  deriving DecidableEq, Repr

/-- The self-test engine (R473 to R478): the slice that runs and when it began; why it is to be aborted at the next boundary; when
the last slice began; a failed slice whose effect the next boundary brings; the slices run and failed of the round, the round's
start and the rounds completed; the report by kind; regions whose sensors are disregarded. -/
structure SelfTest where
  running : Option (Slice × Nat)
  aborting : Option Nat
  last : Nat
  failed : Option (Slice × Nat × Nat)
  done : List Slice
  fails : Nat
  since : Nat
  rounds : Nat
  report : List Nat
  deaf : List Nat
  deriving DecidableEq, Repr

end Sys2Proof.Machine
end

