-- ==== Sys2Proof/Machine/TypesStore.lean ====
section
/-!
DEFINITION. Sys2Proof/Machine/TypesStore.lean: the state of the Store controller, as plain data.
-/

namespace Sys2Proof.Machine

/-- CH_STATE of a Store channel (R333). -/
inductive ChMode where
  | off | training | serving | paused | disabled
  deriving DecidableEq, Repr

/-- RANK_STATE of a rank (R333). -/
inductive RankMode where
  | inService | spare | migrating | retired
  deriving DecidableEq, Repr

/-- A request in a channel's read or write queue (R318, R320): the region bay, its first sector and how many, the stamp of
its admission, its target in stamp units (0: urgency 0 always), its urgency, whether ceiling pressure holds it at 2, and the expander
lane in whose queue its brick is (R186). -/
structure StoreReq where
  bay : Nat
  first : Nat
  count : Nat
  admitted : Nat
  target : Nat
  urgency : Nat
  pressed : Bool
  lane : Option Nat
  deriving DecidableEq, Repr

/-- A sweep under way (R324): its first boundary, the set point at which it runs, its cause (R334). -/
structure Sweep where
  since : Nat
  point : Nat
  cause : Nat
  deriving DecidableEq, Repr

/-- One Store channel (R318 to R326, R333). -/
structure Chan where
  mode : ChMode
  point : Nat
  trained : List Nat
  sweptTemp : Int
  sweep : Option Sweep
  deferred : Bool
  dueChange : Bool
  target : Nat
  corrected : Nat
  uncorrected : Nat
  rhRefreshes : Nat
  forced : Nat
  reads : List StoreReq
  writes : List StoreReq
  draining : Bool
  rhRecent : Nat
  rhAt : Option Nat
  deriving DecidableEq, Repr

/-- One rank's refresh (R322): balance in thousandths of a command, the commands this course must still issue, forced
commands since the last entry and when that was; link ECC retries likewise (R334). -/
structure RankRefresh where
  balance : Int
  need : Nat
  recent : Nat
  at_ : Option Nat
  retries : Nat
  retryAt : Option Nat
  deriving DecidableEq, Repr

/-- A bank's row-hammer table (R323): counts by row, and the spill counter; the rolling count of its activates under refresh management. -/
structure HammerTable where
  counts : Tbl Nat
  spill : Nat
  rolling : Nat
  deriving DecidableEq, Repr

/-- A rank migration, or with no spare the copy off a dead slot (R329, R330): `marked` counts sectors written
uncorrectable; `written` lists the bays of the rank that carry the written flag. -/
structure Migration where
  slot : Nat
  source : Nat
  spare : Option Nat
  cause : Nat
  since : Nat
  written : List Nat
  marked : Nat
  deriving DecidableEq, Repr

/-- A frame map entry (R315): the page it holds, its run of region bays, and the earlier run kept for a shelve. -/
structure Frame where
  page : Nat
  start : Nat
  bays : Nat
  kept : Option (Nat × Nat)
  deriving DecidableEq, Repr

/-- A set-point change under way (R325): old and new set point, the boundary of the decision, channels deferred. -/
structure PointChange where
  old : Nat
  new : Nat
  at_ : Nat
  deferred : Nat
  deriving DecidableEq, Repr

/-- The Store controller (chapter Store Controller). `map` gives a region's logical slot (64 times the region plus slot) its
physical rank, 2 times the region's channel plus rank, 254 dead; an unlisted slot stands as R311 has it. `frames` is keyed
by 150,994,944 times the region plus frame. `fronts` are the zeroing fronts of R327 by region while a pass runs. `rubble` lists a region's weak rows as the words of RUBBLE_BLOCK
(R383 to R385). -/
structure Store where
  point : Nat
  budgetPoint : Nat
  changes : List PointChange
  chans : Tbl Chan
  ranks : Tbl RankMode
  map : Tbl Nat
  spares : Tbl Nat
  migrations : Tbl Migration
  waiting : List (Nat × Nat × Nat)
  masks : List Nat
  refresh : Tbl RankRefresh
  rows : Tbl (Nat × Nat)
  hammer : Tbl HammerTable
  clearedAt : Nat
  frames : Tbl Frame
  fronts : Tbl Nat
  lowAt : Option Nat
  lowHolds : Nat
  rubble : Tbl (List Nat)
  deriving DecidableEq, Repr

end Sys2Proof.Machine
end

