-- ==== Sys2Proof/Machine/State.lean ====
section
/-!
DEFINITION. Sys2Proof/Machine/State.lean: the state of the block, the machine right after reset, and the reasons a step
can stop.
-/

namespace Sys2Proof.Machine

/-- What the module sends to the outside world. -/
inductive Out where
  /-- a response frame of the object dictionary (R445) -/
  | response (dst : Arrival) (frame : List Byte)
  /-- a NOTIFY frame (R455): to a port, 0x40 I3C or 0x41 the rack -/
  | notify (dst : Nat) (frame : List Byte)
  /-- the bytes of an I3C private read or common command (R452) -/
  | i3c (bytes : List Byte)
  /-- an I3C in-band interrupt with its mandatory byte (R452) -/
  | ibi (b : Byte)
  /-- a link response (R85, R91): code, TAG, line data of an OK read, RESP_ARG of a LongRsp -/
  | resp (port tag code : Nat) (data : Option (BitVec 512)) (arg : Nat)
  /-- a BackInv request (R84) -/
  | backInv (port tag room line : Nat)
  /-- a TimeBeacon flit (R105) -/
  | beacon (port : Nat) (b : Beacon)
  /-- a NACK flit with its ACK_SEQ (R81) -/
  | nack (port ackSeq : Nat)
  /-- the replay of the flits from a sequence number (R81) -/
  | replay (port seq : Nat)
  /-- credits returned by type code (R86) -/
  | credit (port type count : Nat)
  /-- a PageMove message on a port with its TAG (R489) -/
  | move (port tag : Nat) (m : MoveMsg)
  /-- the 256 bytes of a flit as they cross a port (R79) -/
  | flit (port : Nat) (bytes : List Byte)
  /-- what the IEEE 1149.1 port shifts out, or under EXTEST drives onto the pins (R427) -/
  | jtag (bits : Nat)
  deriving DecidableEq, Repr

/-- Why a step stops with a fault. -/
inductive Fault where
  /-- Raised by no meaning: every command of the table is executed, whatever its operands and the state. Safe: it stops nothing. -/
  | illFormed
  deriving DecidableEq, Repr

/-- Why a command has no meaning. -/
inductive Refusal where
  /-- Raised by an arm of the dispatch whose command is not modelled. Safe: the model stops where the hardware goes on. -/
  | notModelled (mnemonic : String)
  deriving DecidableEq, Repr

/-- Time at reset: no epoch, state Free. -/
def Time.init : Time := ⟨0, 0, 0, 0, false, [], .free, 0, .none, 0, 0, 0, 0, 0, none, false, 0, 0, [], [], none⟩

/-- An empty tally: the Cellar history as it is created (R65). -/
def Tally.init : Tally := ⟨[], 0, 0, [], [], false, false, 0, 0, 0, 0, none, false, 0, []⟩

/-- A dictionary with every entry at its default and no session; MWL and MRL 268 (R452). -/
def Od.init : Od := ⟨[], [], [], [], 0, 0, 0, [], ⟨0, false, 268, 268, 0, []⟩⟩

/-- Power at reset: Off, with the default cap of R41. -/
def Power.init : Power := ⟨.off, 650, 0, 0, 0, 0, 0, false, none, 0, .none, none, false, 0, .pwrfail, false, 0, 0, false, false, none, false, [], [0, 0, 0, 0]⟩

/-- The board at reset: RESET_N held asserted and the seat made, as R507 and R508 have it before the first start. -/
def Board.init : Board :=
  ⟨[(2, ⟨true, false, false, false, 0, none⟩), (3, ⟨true, false, false, false, 0, none⟩)], 48000, 3300, false, false,
    List.replicate 53 250, [], 0, false, false, false, .idle, 0⟩

/-- The Cistern at reset: twelve cells at the discharge floor (R387), not yet measured. -/
def Cistern.init : Cistern :=
  ⟨.idle, List.replicate 12 ⟨2200, 250, 10000, 0, none⟩, 0, 0, 440, 0, true, none, false, 0, .none, 0, false, 302400000000, 0,
    false, none, 0, 0, none, false⟩

/-- No flush has ever run. -/
def Flush.init : Flush := ⟨0, false, false, 0, false, [], 0, none, none, [], [], [], []⟩

/-- Admission at reset: nothing staged, no budget. -/
def Adm.init : Adm := ⟨[], none, 0, 0, 0, 0, 0, 0, 0, 0, 0, false, [], []⟩

/-- A port that is Off and Down. -/
def Port.init : Port :=
  ⟨.off, .down, 0, 0, 0, 0, false, none, [], 0, 0, 0, 0, 0, 0, 0, 0, 0, 0, [], [], [], 0, [], [], 0, 0, [], [], [], [], [], false, false, false⟩

/-- A room nothing has used. -/
def Room.init : Room := ⟨0, 0, [], none, 0, 0, 0⟩

/-- A pair with no traffic. -/
def Pair.init : Pair := ⟨0, 0, 0, 0, 0, 0, 0, 0, none, 0, 0, 0, 0⟩

/-- A queue with nothing in it. -/
def NotifyQueue.init : NotifyQueue := ⟨[], 0, 0, none⟩

/-- A function Off, its request disable. -/
def FnWord.init : FnWord := ⟨.off, 0, false, false, false, false, none, 0⟩

/-- A page never written (R107, R132). -/
def Page.init : Page :=
  ⟨.new, .none, [], [], none, none, 0, 0, [], [], 0, false, none, [0, 0, 0, 0], 0, 0, 0, 0, none, false, 0, 0, false, false, false, false, []⟩

/-- Placement with nothing queued. -/
def Tier.init : Tier := ⟨[], 0, [], [], [], [], [], [], none, 1000, [], false, 0, 0⟩

/-- A stair at its declaration. -/
def Stair.init : Stair := ⟨1, 0, 0, [], [], [], [], 0, 0, false, false, [], 0⟩

/-- No table, no sample, no load. -/
def Codec.init : Codec := ⟨[], [], [], [], [], [], [], 0, 0⟩

/-- A channel before its first training (R333). -/
def Chan.init : Chan := ⟨.off, 0, [0, 0, 0], 250, none, false, false, 0, 0, 0, 0, 0, [], [], false, 0, none⟩

/-- A rank owing no refresh. -/
def RankRefresh.init : RankRefresh := ⟨0, 0, 0, none, 0, none⟩

/-- The default bank masks (R314). -/
def defaultMasks : List Nat := [0x111111, 0x222222, 0x044444, 0x088888]

/-- The Store at reset: the default rank map, nothing resident. -/
def Store.init : Store := ⟨0, 0, [], [], [], [], [], [], [], defaultMasks, [], [], [], 0, [], [], none, 0, []⟩

/-- A superblock never used. -/
def Superblock.init : Superblock := ⟨.erased, 0, 0, 0⟩

/-- A Cellar channel before bring-up. -/
def CellarChan.init : CellarChan := ⟨.off, 255, List.replicate 8 0, 0, 0, 0, 0, 0, none, 0⟩

/-- The Cellar as manufactured: every superblock erased. -/
def Cellar.init : Cellar := ⟨[], 0, [], [], [], [], 0, [], [], [], [], false, [], 0, 0, [], none, none, [], [], [], [], [], []⟩

/-- A directory in which no port holds a line. -/
def Dir.init : Dir := ⟨[], 0, [], 0, 0, 0, 0, none, [], [], [], [], []⟩

/-- A scan of a port due at a boundary (R234). -/
def Scan.init (port start : Nat) (declared : Bool) : Scan := ⟨port, start, declared, 0, 0, [], 0⟩

/-- No region published. -/
def Pubs.init : Pubs := ⟨[], [], [], [], [], [], 0⟩

/-- A shelf unallotted. -/
def Shelf.init : Shelf := ⟨255, [], 7, 0, 255, 0, [], none, [], false, List.replicate 48 0, List.replicate 48 0, []⟩

/-- No correction yet counted. -/
def Integ.init : Integ := ⟨[], [], [], [], [], 0, 0, 0, 0, 0, 0, 0, 0, 0⟩

/-- A module alone. -/
def Vault.init : Vault := ⟨.standalone, [], 0, [], [], [], [], [], [], [], 0, []⟩

/-- Security at manufacture: Foundry, nothing burnt, no key; firmware in slot A. -/
def Sec.init : Sec :=
  ⟨false, none, false, 0, 0, [], 0, 0, [⟨.committed, 0, 0, List.replicate 48 0, true⟩, ⟨.empty, 0, 0, List.replicate 48 0, false⟩], 0, [], [], [], 0,
    0, false, none, [], false, [], 1⟩

/-- No start has ever run. -/
def Start.init : Start := ⟨0, none, [], [], [], 0, [], 0, none⟩

/-- The self-test engine before its first slice. -/
def SelfTest.init : SelfTest := ⟨none, none, 0, none, [], 0, 0, 0, List.replicate 40 0, []⟩

/-- A stream context that is idle and was never configured. -/
def Stream.init : Stream := ⟨false, false, 0, 0, 0, 0, 0, 0, 0, 0, 0, [], none, none⟩

/-- A core without a lease, its registers and tile store zero. -/
def Core.init : Core :=
  ⟨none, none, none, none, false, none, 0, false, 64, 0, 0, List.replicate 32 0, [], [], [], List.replicate 8 Stream.init, 0, 0, 0, 0, false, 0⟩

/-- No call, no program. -/
def Cores.init : Cores := ⟨[], [], 0, [], 0, [], []⟩

/-- The state of the module: every register, buffer, counter, mode and pin the spec gives it. -/
structure State where
  /-- the commands that wait, first in, first out -/
  pending : List Instr
  /-- time base, epoch and servo -/
  time : Time
  /-- the journal -/
  tally : Tally
  /-- notification queues by destination: port 0 to 31, 0x40 I3C, 0x41 rack (R456) -/
  notify : Tbl NotifyQueue
  /-- the object dictionary -/
  od : Od
  /-- function states -/
  funcs : Funcs
  /-- power state, governor, Quiet -/
  power : Power
  /-- pins, supplies, temperatures -/
  board : Board
  /-- the Cistern controller -/
  cistern : Cistern
  /-- the flush record, list and manifests -/
  flush : Flush
  /-- rooms by number -/
  rooms : Tbl Room
  /-- configuration and admission -/
  adm : Adm
  /-- Merash link ports by number -/
  ports : Tbl Port
  /-- pages by key: 2^34 times the room plus address bits [45:12], a version's copies from 2^40 -/
  pages : Tbl Page
  /-- placement, fetches and reservations -/
  tier : Tier
  /-- landing slots by brick: 2^38 times the room plus address bits [45:8] -/
  landing : Tbl Landing
  /-- line requests open and Held -/
  reqs : Requests
  /-- stairs 0 to 255, unshelve stairs from 256 -/
  stairs : Tbl Stair
  /-- tables, first pass and packed loads -/
  codec : Codec
  /-- the Store controller -/
  store : Store
  /-- retired units and clusters, 1024 times the region plus SOURCE_UNIT (R17, R63) -/
  retired : List Nat
  /-- retirements by region since start (R481) -/
  retirements : Tbl Nat
  /-- the Cellar -/
  cellar : Cellar
  /-- shelves by number -/
  shelves : Tbl Shelf
  /-- the directory and crash scans -/
  dir : Dir
  /-- published regions and views -/
  pubs : Pubs
  /-- scrubbing, repeated corrections and repairs -/
  integ : Integ
  /-- the vault -/
  vault : Vault
  /-- security -/
  sec : Sec
  /-- the start sequence and the start ledger -/
  start : Start
  /-- the self-test engine -/
  test : SelfTest
  /-- the Gopepen cores, calls and programs -/
  cores : Cores
  /-- what the module has sent, oldest first -/
  out : List Out
  /-- how many free values have been drawn (the model's own field, not the spec's) -/
  free : Nat
  deriving DecidableEq, Repr

/-- The machine right after reset: Off before its first start. -/
def State.reset : State where
  pending := []
  time := Time.init
  tally := Tally.init
  notify := []
  od := Od.init
  funcs := []
  power := Power.init
  board := Board.init
  cistern := Cistern.init
  flush := Flush.init
  rooms := []
  adm := Adm.init
  ports := []
  pages := []
  tier := Tier.init
  landing := []
  reqs := ⟨[], []⟩
  stairs := []
  codec := Codec.init
  store := Store.init
  retired := []
  retirements := []
  cellar := Cellar.init
  shelves := []
  dir := Dir.init
  pubs := Pubs.init
  integ := Integ.init
  vault := Vault.init
  sec := Sec.init
  start := Start.init
  test := SelfTest.init
  cores := Cores.init
  out := []
  free := 0

end Sys2Proof.Machine
end

