-- ==== Sys2Proof/Machine/Setters.lean ====
section
/-!
DEFINITION. Sys2Proof/Machine/Setters.lean: one update for each field of the state.
-/

namespace Sys2Proof.Machine

/-- The state with pending replaced. -/
def State.setPending (s : State) (v : List Instr) : State := { s with pending := v }

/-- The state with time replaced. -/
def State.setTime (s : State) (v : Time) : State := { s with time := v }

/-- The state with tally replaced. -/
def State.setTally (s : State) (v : Tally) : State := { s with tally := v }

/-- The state with notify replaced. -/
def State.setNotify (s : State) (v : Tbl NotifyQueue) : State := { s with notify := v }

/-- The state with od replaced. -/
def State.setOd (s : State) (v : Od) : State := { s with od := v }

/-- The state with funcs replaced. -/
def State.setFuncs (s : State) (v : Funcs) : State := { s with funcs := v }

/-- The state with power replaced. -/
def State.setPower (s : State) (v : Power) : State := { s with power := v }

/-- The state with board replaced. -/
def State.setBoard (s : State) (v : Board) : State := { s with board := v }

/-- The state with cistern replaced. -/
def State.setCistern (s : State) (v : Cistern) : State := { s with cistern := v }

/-- The state with flush replaced. -/
def State.setFlush (s : State) (v : Flush) : State := { s with flush := v }

/-- The state with rooms replaced. -/
def State.setRooms (s : State) (v : Tbl Room) : State := { s with rooms := v }

/-- The state with adm replaced. -/
def State.setAdm (s : State) (v : Adm) : State := { s with adm := v }

/-- The state with ports replaced. -/
def State.setPorts (s : State) (v : Tbl Port) : State := { s with ports := v }

/-- The state with pages replaced. -/
def State.setPages (s : State) (v : Tbl Page) : State := { s with pages := v }

/-- The state with tier replaced. -/
def State.setTier (s : State) (v : Tier) : State := { s with tier := v }

/-- The state with landing replaced. -/
def State.setLanding (s : State) (v : Tbl Landing) : State := { s with landing := v }

/-- The state with reqs replaced. -/
def State.setReqs (s : State) (v : Requests) : State := { s with reqs := v }

/-- The state with stairs replaced. -/
def State.setStairs (s : State) (v : Tbl Stair) : State := { s with stairs := v }

/-- The state with codec replaced. -/
def State.setCodec (s : State) (v : Codec) : State := { s with codec := v }

/-- The state with store replaced. -/
def State.setStore (s : State) (v : Store) : State := { s with store := v }

/-- The state with retired replaced. -/
def State.setRetired (s : State) (v : List Nat) : State := { s with retired := v }

/-- The state with retirements replaced. -/
def State.setRetirements (s : State) (v : Tbl Nat) : State := { s with retirements := v }

/-- The state with cellar replaced. -/
def State.setCellar (s : State) (v : Cellar) : State := { s with cellar := v }

/-- The state with shelves replaced. -/
def State.setShelves (s : State) (v : Tbl Shelf) : State := { s with shelves := v }

/-- The state with dir replaced. -/
def State.setDir (s : State) (v : Dir) : State := { s with dir := v }

/-- The state with pubs replaced. -/
def State.setPubs (s : State) (v : Pubs) : State := { s with pubs := v }

/-- The state with integ replaced. -/
def State.setInteg (s : State) (v : Integ) : State := { s with integ := v }

/-- The state with vault replaced. -/
def State.setVault (s : State) (v : Vault) : State := { s with vault := v }

/-- The state with sec replaced. -/
def State.setSec (s : State) (v : Sec) : State := { s with sec := v }

/-- The state with start replaced. -/
def State.setStart (s : State) (v : Start) : State := { s with start := v }

/-- The state with test replaced. -/
def State.setTest (s : State) (v : SelfTest) : State := { s with test := v }

/-- The state with cores replaced. -/
def State.setCores (s : State) (v : Cores) : State := { s with cores := v }

/-- The state with out replaced. -/
def State.setOut (s : State) (v : List Out) : State := { s with out := v }

/-- The state with free replaced. -/
def State.setFree (s : State) (v : Nat) : State := { s with free := v }

end Sys2Proof.Machine
end

