-- ==== Sys2Proof/Machine/Ops.lean ====
section
/-!
DEFINITION. Sys2Proof/Machine/Ops.lean: the named operations every meaning uses: stamps, dictionary values, function
words, ports, and raising an event with all that follows from it (R51, R62 to R69, R455, R456).
-/

namespace Sys2Proof.Machine

/-- A stamp from course and position (R51). -/
def stampOf (course pos : Nat) : Nat := course * 4096 + pos

/-- The present stamp. -/
def State.now (s : State) : Nat := stampOf s.time.course s.time.pos

/-- A stamp as it is given out: from the epoch in force (R51, R57). -/
def State.shown (s : State) (st : Nat) : Nat := st - 4096 * s.time.base

/-- The stamp that a value given in the epoch in force names (R51, R57). -/
def State.ofShown (s : State) (st : Nat) : Nat := st + 4096 * s.time.base

/-- The first course boundary at or after a stamp. -/
def boundaryAt (st : Nat) : Nat := ((st + 4095) / 4096) * 4096

/-- The first course boundary after a stamp. -/
def boundaryAfter (st : Nat) : Nat := (st / 4096 + 1) * 4096

/-- The boundary at which a decision uses an input that arrived at a stamp (R47): the next one, or past position 3,968 the one after. -/
def decisionAt (st : Nat) : Nat := if st % 4096 ≤ 3968 then boundaryAfter st else boundaryAfter st + 4096

/-- The boundary at which a decision uses an input of the present position (R47). -/
def State.decidedAt (s : State) : Nat := stampOf (s.time.course + (if s.time.pos ≤ 3968 then 1 else 2)) 0

/-- The module is adrift: its time state is Free or Adrift (R61). -/
def State.isAdrift (s : State) : Bool := s.time.mode = .free || s.time.mode = .adrift

/-- The value in force of an entry instance: the value written, or its default (R437). -/
def State.val (s : State) (e : Ent) (i j : Nat) : Nat := Tbl.get s.od.vals (e.row.key i j) e.row.dflt

/-- The value of an entry that a boundary's decision uses (R47): the one before a write that arrived too late for this boundary. -/
def State.decided (s : State) (e : Ent) (i j : Nat) : Nat :=
  match Tbl.find s.od.late (e.row.key i j) with
  | some (old, until_) => if s.now < until_ then old else s.val e i j
  | none => s.val e i j

/-- The value a decision still uses is kept beside one that is written after position 3,968 (R47). -/
def State.keepLate (s : State) (e : Ent) (i j : Nat) : State :=
  if s.time.pos ≤ 3968 then s
  else s.setOd { s.od with late := Tbl.put s.od.late (e.row.key i j) (s.decided e i j, s.decidedAt) }

/-- The state with the value of an entry instance set. -/
def State.setVal (s : State) (e : Ent) (i j v : Nat) : State :=
  s.setOd { s.od with vals := Tbl.put s.od.vals (e.row.key i j) v }

/-- The entry instance has been written since its default was last restored. -/
def State.written (s : State) (e : Ent) (i j : Nat) : Bool := (Tbl.find s.od.vals (e.row.key i j)).isSome

/-- The octets of an entry instance, or a default. -/
def State.blob (s : State) (e : Ent) (i j : Nat) (d : List Byte) : List Byte := Tbl.get s.od.blobs (e.row.key i j) d

/-- The state with the octets of an entry instance set. -/
def State.setBlob (s : State) (e : Ent) (i j : Nat) (v : List Byte) : State :=
  s.setOd { s.od with blobs := Tbl.put s.od.blobs (e.row.key i j) v }

/-- A port, by number. -/
def State.port (s : State) (p : Nat) : Port := Tbl.get s.ports p Port.init

/-- The state with a port replaced. -/
def State.setPort (s : State) (p : Nat) (v : Port) : State := s.setPorts (Tbl.put s.ports p v)

/-- The state with a port changed. -/
def State.updPort (s : State) (p : Nat) (f : Port → Port) : State := s.setPort p (f (s.port p))

/-- A room, by number. -/
def State.room (s : State) (k : Nat) : Room := Tbl.get s.rooms k Room.init

/-- The state with a room replaced. -/
def State.setRoom (s : State) (k : Nat) (v : Room) : State := s.setRooms (Tbl.put s.rooms k v)

/-- The state with a room changed. -/
def State.updRoom (s : State) (k : Nat) (f : Room → Room) : State := s.setRoom k (f (s.room k))

/-- A (room, class) pair. -/
def State.pair (s : State) (k c : Nat) : Pair := Tbl.get s.adm.pairs (8 * k + c) Pair.init

/-- The state with a pair replaced. -/
def State.setPair (s : State) (k c : Nat) (v : Pair) : State :=
  s.setAdm { s.adm with pairs := Tbl.put s.adm.pairs (8 * k + c) v }

/-- The state with a pair changed. -/
def State.updPair (s : State) (k c : Nat) (f : Pair → Pair) : State := s.setPair k c (f (s.pair k c))

/-- The state with one item appended to what the module has sent. -/
def State.send (s : State) (o : Out) : State := s.setOut (s.out ++ [o])

/-- The kind number of a function (R463). -/
def fnKind : FnId → Nat
  | .port _ => 1 | .core _ => 2 | .room _ => 3 | .stair _ => 4 | .scrubber => 5 | .cellar _ => 6

/-- The instance number of a function. -/
def fnInst : FnId → Nat
  | .port p => p.val | .core c => c.val | .room k => k.val | .stair t => t.val | .scrubber => 0 | .cellar c => c.val

/-- The key of a function in the table of function words. -/
def fnKey (f : FnId) : Nat := 1024 * fnKind f + fnInst f

/-- The default request of a function (R458): enable, but for rooms and stairs. -/
def fnDflt (f : FnId) : FnWord := if fnKind f = 3 ∨ fnKind f = 4 then FnWord.init else { FnWord.init with want := true }

/-- A function's word. -/
def State.fn (s : State) (f : FnId) : FnWord := Tbl.get s.funcs (fnKey f) (fnDflt f)

/-- The state with a function's word replaced. -/
def State.setFn (s : State) (f : FnId) (w : FnWord) : State := s.setFuncs (Tbl.put s.funcs (fnKey f) w)

/-- The code of a function state (R457). -/
def Fn.code : Fn → Nat
  | .off => 0 | .starting => 1 | .on => 2 | .stopping => 3

/-- The module takes no event: it is Sealed or Off (R68). -/
def State.dark (s : State) : Bool := s.power.mode = .sealed || s.power.mode = .off

/-- A port that carries messages: its link is Up. -/
def State.isUp (s : State) (p : Nat) : Bool := (s.port p).link = .up

/-- A port whose link is Up or in Retrain, in which flits stand still and nothing is lost (R77). -/
def State.isLinked (s : State) (p : Nat) : Bool := (s.port p).link = .up || (s.port p).link = .retrain

/-- The role of a port in force. -/
def State.roleOf (s : State) (p : Nat) : PortRole := (s.port p).role

/-- The owner ports of a room in force, as a bit mask (R106). -/
def State.owners (s : State) (k : Nat) : Nat := s.val .roomOwnerPorts k 0

/-- A port owns a room (R106). -/
def State.owns (s : State) (p k : Nat) : Bool := bitOf (s.owners k) p

/-- The next free value: which opaque value of Config stands here, and the state that has drawn it. -/
def State.draw (s : State) : Nat × State := (s.free, s.setFree (s.free + 1))

/-- Credits of a type that a list of costs names. -/
def costOf (l : List (Nat × Nat)) (t : Nat) : Nat := ((l.filter fun c => c.1 = t).map (·.2)).sum

/-- Credits of a type that a port's partner grants and that are not spent (R86). -/
def Port.granted (q : Port) (type : Nat) : Nat :=
  (match q.partner with | some x => (x.credits.getD type 0).toNat | none => 0) - Tbl.get q.spent type 0

/-- The credits of a type that are left once the messages that wait have gone. -/
def State.creditLeft (s : State) (p type : Nat) : Nat :=
  let q := s.port p
  q.granted type - (q.tx.map fun m => costOf m.cost type).sum

/-- A header slot (R83) as one number, W0 plus 2^64 times W1. -/
def headOf (op room tag addr arg : Nat) : Nat :=
  (op % 64 * 2 ^ 58 + room % 64 * 2 ^ 52 + tag % 4096 * 2 ^ 40 + addr % 2 ^ 40) + 2 ^ 64 * (arg % 2 ^ 64)

/-- Nothing waits to be sent on a port: what waited is lost with its link (R101). -/
def Port.unsent (q : Port) : Port :=
  { q with tx := [], slots := [], buffer := [], resend := [], give := [], ackDue := false, nackDue := false }

/-- A message joins those that a port is to send (R86). -/
def State.queueTx (s : State) (p head : Nat) (data : List Byte) (cost : List (Nat × Nat)) : State :=
  s.updPort p fun q => { q with tx := q.tx ++ [⟨head, data, cost, none, s.now, none⟩] }

/-- The module's own OdWrite message of a frame to a port takes its next TAG, which stays open until the partner answers (R84, R451). -/
def State.odFlit (s : State) (p : Nat) (frame : List Byte) : State :=
  (s.queueTx p (headOf 0x19 0 (s.port p).odTag 0 0) frame [(7, 1)]).updPort p fun q =>
    { q with odOpen := q.odOpen ++ [q.odTag], odTag := (q.odTag + 1) % 4096 }

/- ## The tally -/

/-- The ring's capacity in entries (R66). -/
def ringSize : Nat := 2097152

/-- The Cellar history's capacity in entries (R66). -/
def historySize : Nat := 2147483648

/-- The writer's buffer (R31, R67). -/
def heldSize : Nat := 65536

/-- How many entries have been written since the Cellar history was created (R72). -/
def Tally.written (t : Tally) : Nat := t.oldest + t.entries.length

/-- Entries written and not yet drained (R66). -/
def Tally.undrained (t : Tally) : Nat := t.written - t.drained

/-- The first 30 bytes of a tally entry as it is laid out (R62). -/
def TallyEntry.body (e : TallyEntry) : List Byte :=
  let w1 := e.seq % 2 ^ 32 * 2 ^ 32 + e.modIdx % 4096 * 2 ^ 20 + e.region % 4 * 2 ^ 18 + e.unit % 1024 * 2 ^ 8
    + e.sev % 4 * 64 + bit01 e.adrift * 32 + bit01 e.replayed * 16
  let a := fit 12 e.args
  leBytes 8 (e.stamp - 4096 * e.base) ++ leBytes 8 w1 ++ a.take 6 ++ leBytes 2 e.code ++ a.drop 6

/-- A tally entry in 32 bytes (R62). -/
def TallyEntry.bytes (e : TallyEntry) : List Byte := e.body ++ leBytes 2 (crc16 e.body)

/-- An event as its chapter's table gives it: code, severity (R62), source (R63), argument bytes; the room whose owner
ports also hear of it by the path of R124, if any; rooms whose owner ports alone hear of it too; and whether it is replayed (R68). -/
structure Ev where
  code : Nat
  sev : Nat
  region : Nat := 0
  unit : Nat
  args : List Byte := []
  room : Option Nat := none
  also : List Nat := []
  replayed : Bool := false
  deriving DecidableEq, Repr

/-- The destinations an entry is bound for (R69, R124, R455). DESIGN CHOICE: a port in Retrain, whose link carries nothing for the moment, is a
destination still, and its frame waits for the link. -/
def State.notifyDests (s : State) (e : TallyEntry) (room : Option Nat) (also : List Nat) : List Nat :=
  let loud := decide (2 ≤ e.sev) || decide (s.val .notifyMinSeverity 0 0 ≤ e.sev)
  let ports := (upTo 32).filter fun p => s.isLinked p &&
    (((loud || room.isSome) && decide (s.roleOf p = .companion))
      || (match room with | some k => s.owns p k | none => false) || also.any fun k => s.owns p k)
  let i3c := s.od.i3c.irq && ((decide (1 ≤ e.sev) && (decide (e.code / 256 = 0x78) || decide (e.code / 4096 = 0xC)))
    || decide (e.code = 0x9010))
  let rack := loud && decide (ofLe (s.blob .rackNotifyMac 0 0 []) ≠ 0)
  ports ++ (if i3c then [0x40] else []) ++ (if rack then [0x41] else [])

/-- A queue with an entry added; past 256 the oldest is dropped (R456). -/
def NotifyQueue.push (q : NotifyQueue) (e : TallyEntry) : NotifyQueue :=
  let l := q.queue ++ [e]
  if l.length ≤ 256 then { q with queue := l } else { q with queue := l.drop 1, dropped := q.dropped + 1 }

/-- An entry put into the queue of each destination (R455); on I3C an in-band interrupt says what waits: 1 a response, 2 notifications alone
(R452). -/
def State.notifyAll (s : State) (e : TallyEntry) : List Nat → State
  | [] => s
  | d :: ds =>
    let s := s.setNotify (Tbl.upd s.notify d NotifyQueue.init (·.push e))
    let s := if d = 0x40 then s.send (.ibi (if s.od.i3c.waiting.isEmpty then 2 else 1)) else s
    s.notifyAll e ds

/-- An entry enters the ring; the ring's reaching 90 % and 100 % ends the writing of Info and of Notice (R67). -/
def Tally.append (t : Tally) (e : TallyEntry) : Tally :=
  let n := t.undrained + 1
  { t with entries := t.entries ++ [e], sinceStart := t.sinceStart + 1,
           infoOff := t.infoOff || decide (9 * ringSize ≤ 10 * n), noticeOff := t.noticeOff || decide (ringSize ≤ n) }

/-- The next `n` entries are drained; past the history's size its oldest pages of 128 go (R66). -/
def Tally.drain (t : Tally) (n : Nat) : Tally :=
  let gone := (t.drained + n - t.oldest - historySize + 127) / 128 * 128
  { t with drained := t.drained + n, entries := t.entries.drop gone, oldest := t.oldest + gone }

/-- An entry of this severity is counted and not written (R67). -/
def Tally.shut (t : Tally) (sev : Nat) : Bool :=
  (decide (sev = 0) && (t.infoOff || decide (9 * ringSize ≤ 10 * t.undrained)))
    || (decide (sev = 1) && (t.noticeOff || decide (ringSize ≤ t.undrained)))

/-- An event counted and not written (R67). -/
def Tally.miss (t : Tally) (e : TallyEntry) : Tally :=
  let t := if t.missFirst.isSome then t else { t with missFirst := some e.seq }
  match e.sev with
  | 0 => { t with missInfo := t.missInfo + 1 }
  | 1 => { t with missNotice := t.missNotice + 1 }
  | 2 => { t with missWarning := t.missWarning + 1 }
  | _ => { t with missFault := t.missFault + 1 }

/-- An entry waits in the writer's buffer, or is dropped past its end (R31, R67). -/
def Tally.hold (t : Tally) (e : TallyEntry) (room : Option Nat) (also : List Nat) : Tally :=
  if t.held.length < heldSize then { t with held := t.held ++ [(e, room, also)] } else t.miss e

/-- An entry is written, held or counted, as the ring's fill decides (R67); with the Keeper down all are held (R31). -/
def State.record (s : State) (e : TallyEntry) (room : Option Nat) (also : List Nat) : State :=
  let t := s.tally
  if t.sealed then s
  else if s.power.keeperDown then s.setTally (t.hold e room also)
  else if t.shut e.sev then s.setTally (t.miss e)
  else if !t.held.isEmpty || decide (ringSize ≤ t.undrained) then s.setTally (t.hold e room also)
  else (s.setTally (t.append e)).notifyAll e (s.notifyDests e room also)

/-- The next SEQUENCE of a source (R65). -/
def State.nextSeq (s : State) (region unit : Nat) : Nat := Tbl.get s.tally.seqs (region * 1024 + unit) 0

/-- The entry an event makes at this stamp (R53, R61, R62). -/
def State.entryOf (s : State) (e : Ev) : TallyEntry :=
  { stamp := s.now, base := s.time.base, seq := s.nextSeq e.region e.unit, modIdx := if s.vault.mode = .standalone then 0 else s.val .moduleIndex 0 0, region := e.region, unit := e.unit,
    sev := e.sev, adrift := s.isAdrift, replayed := e.replayed, code := e.code, args := e.args }

/-- An event raised once, its source's counter advanced (R65). -/
def State.raiseOne (s : State) (e : Ev) : State :=
  let t := s.tally
  let n := (s.nextSeq e.region e.unit + 1) % 2 ^ 32
  (s.setTally { t with seqs := Tbl.put t.seqs (e.region * 1024 + e.unit) n }).record (s.entryOf e) e.room e.also

/-- SEQUENCE_WRAP of a counter (R64, R65), by the tally writer. -/
def wrapEv (counter : Nat) : Ev := { code := 0x1211, sev := 0, unit := 5, args := leBytes 2 counter }

/-- An event raised; a counter that wraps writes SEQUENCE_WRAP (R65), the tally writer's own that this entry moves on too. -/
def State.raise (s : State) (e : Ev) : State :=
  let s' := s.raiseOne e
  if s.nextSeq e.region e.unit = 2 ^ 32 - 1 then
    let s'' := s'.raiseOne (wrapEv (e.region * 1024 + e.unit))
    if s'.nextSeq 0 5 = 2 ^ 32 - 1 then s''.raiseOne (wrapEv 5) else s''
  else s'

/-- Several events raised in order. -/
def State.raiseAll (s : State) : List Ev → State
  | [] => s
  | e :: es => (s.raise e).raiseAll es

/-- The entries of the writer's buffer enter the ring as far as there is room (R31, R67); an Info or Notice that the ring's fill shuts out by
then is counted. -/
def State.unholdN (s : State) : Nat → State
  | 0 => s
  | n + 1 =>
    match s.tally.held with
    | [] => s
    | (e, room, also) :: es =>
      if s.tally.shut e.sev then (s.setTally ({ s.tally with held := es }.miss e)).unholdN n
      else if ringSize ≤ s.tally.undrained then s
      else
        let s' := (s.setTally ({ s.tally with held := es }.append e))
        (s'.notifyAll e (s.notifyDests e room also)).unholdN n

/-- The writer's buffer drains into the ring. -/
def State.unhold (s : State) : State := if s.power.keeperDown then s else s.unholdN s.tally.held.length

/-- Events of this model's centre-block sources (R63). -/
def srcKeeper : Nat := 0
/-- Keystone. -/
def srcKeystone : Nat := 1
/-- Power governor. -/
def srcGovernor : Nat := 2
/-- Time-base receiver. -/
def srcTime : Nat := 3
/-- Cistern controller. -/
def srcCistern : Nat := 4
/-- Tally writer. -/
def srcTally : Nat := 5
/-- Board interface. -/
def srcBoard : Nat := 6
/-- Admission. -/
def srcAdmission : Nat := 8
/-- The source of a room's events. -/
def srcRoom (k : Nat) : Nat := 0x300 + k

/- ## Changes of function states (R457, R459, R463) -/

/-- The source of a function's own events: region and SOURCE_UNIT (R63, R463). -/
def fnSource : FnId → Nat × Nat
  | .port p => (p.val / 8, 0x060 + p.val % 8)
  | .core c => (c.val / 8, 0x0A0 + c.val % 8)
  | .room k => (0, 0x300 + k.val)
  | .stair _ => (0, 0x300)
  | .scrubber => (0, 0x2C5)
  | .cellar c => (c.val / 8, 0x200 + c.val % 8)

/-- A function's new word; a change of its STATE is stamped by FUNCTION_STATE_CHANGE (R459, R463). -/
def State.fnTo (s : State) (f : FnId) (w : FnWord) : State :=
  let old := (s.fn f).state
  let s := s.setFn f w
  if old = w.state then s
  else
    let s := s.setFn f { w with since := s.now }
    let src := fnSource f
    let unit := match f with | .stair t => srcRoom (s.val .stairRoom t 0 % 64) | _ => src.2
    s.raise { code := 0x2001, sev := bit01 w.held, region := src.1, unit := unit,
              args := [BitVec.ofNat 8 (fnKind f), BitVec.ofNat 8 (fnInst f), BitVec.ofNat 8 old.code, BitVec.ofNat 8 w.state.code,
                       BitVec.ofNat 8 w.cause, BitVec.ofNat 8 (16 * bit01 w.held + 8 * bit01 w.pendDis + 4 * bit01 w.pendEn)] }

/-- A function that the module holds Off (R459): by a retirement (cause 2) or the start ledger (cause 3). -/
def State.fnHold (s : State) (f : FnId) (cause : Nat) : State :=
  let w := s.fn f
  let w' := { w with held := true, latched := none, pendDis := false, pendEn := false }
  match w.state with
  | .on => s.fnTo f { w' with state := .stopping, cause := cause }
  | .starting => s.fnTo f { w' with state := .off, cause := cause }
  | _ => s.setFn f { w' with cause := cause }

/- ## Frames -/

/-- A frame of the object dictionary (R444). -/
def odFrame (op idx sub seq : Nat) (payload : List Byte) : List Byte :=
  let h := leBytes 1 op ++ leBytes 2 idx ++ leBytes 1 sub ++ leBytes 2 payload.length ++ leBytes 2 seq ++ payload
  h ++ leBytes 4 (crc32c h)

end Sys2Proof.Machine
end

