-- ==== Sys2Proof/Machine/Units.lean ====
section
/-!
DEFINITION. Sys2Proof/Machine/Units.lean: units, clusters and their retirement (R12, R16 to R19, R63), and the frequencies
and temperatures that a region's rules use (R26, R27).
-/

namespace Sys2Proof.Machine

/-- The code under which a unit or cluster is kept: 1024 times its region plus its SOURCE_UNIT (R63). -/
def unitCode (region unit : Nat) : Nat := 1024 * region + unit

/-- A unit or cluster is retired (R17). -/
def State.isRetired (s : State) (region unit : Nat) : Bool := s.retired.contains (unitCode region unit)

/-- The function that a retired cluster carried, held Off (R459). -/
def State.holdCluster (s : State) (region unit : Nat) : State :=
  if h : 0x060 ≤ unit ∧ unit < 0x068 ∧ region < 4 then s.fnHold (.port ⟨8 * region + (unit - 0x060), by omega⟩) 2
  else if h : 0x0A0 ≤ unit ∧ unit < 0x0A8 ∧ region < 4 then s.fnHold (.core ⟨8 * region + (unit - 0x0A0), by omega⟩) 2
  else if h : 0x200 ≤ unit ∧ unit < 0x208 ∧ region < 4 then s.fnHold (.cellar ⟨8 * region + (unit - 0x200), by omega⟩) 2
  else s

/-- The unit is marked retired and UNIT_RETIRED written, once; a cluster's function is held Off (R17, R19, R459, R481). -/
def State.markRetired (s : State) (region unit level cause : Nat) : State :=
  if s.isRetired region unit then s
  else
    let n := Tbl.get s.retirements region 0 + 1
    let s := ((s.setRetired (s.retired ++ [unitCode region unit])).setRetirements (Tbl.put s.retirements region n)).raise
      { code := 0xA020, sev := 2, region := region, unit := unit,
        args := leBytes 1 level ++ leBytes 1 cause ++ leBytes 2 n }
    s.holdCluster region unit

/-- How many of the units from `base` to `base + n - 1` of a region still stand. -/
def State.standing (s : State) (region base n : Nat) : Nat :=
  ((upTo n).filter fun i => !s.isRetired region (base + i)).length

/-- A cluster below its minimum is retired as a whole (R18): `unit` is the cluster, its units `n` from `base` on. -/
def State.checkCluster (s : State) (region unit base n least : Nat) : State :=
  if s.standing region base n < least then s.markRetired region unit 1 5 else s

/- ## Codec lanes (R16, R18, R186, R188) -/

/-- The codec clusters of a region that stand, each beside its core 0 to 7. -/
def State.codecClusters (s : State) (region : Nat) : List Nat := (upTo 8).filter fun c => !s.isRetired region (0x100 + c)

/-- The cluster that does a cluster's work (R18): itself, or the next core's of the region that stands. -/
def State.codecFor (s : State) (region core : Nat) : Option Nat :=
  ((upTo 8).map fun i => (core + i) % 8).find? fun c => (s.codecClusters region).contains c

/-- An engine or a codec lane that a self-test slice has out of service (R476). -/
def State.underTest (s : State) (region unit : Nat) : Bool :=
  match s.test.running with
  | some (x, _) => decide (x.kind ≤ 3) && decide (x.region = region) && decide (x.unit = unit)
  | none => false

/-- The lanes of a cluster in service, by the number of unit 0x0C0 + 8c + lane of R63: expanders 0 to 3, compressors 4 and 5. -/
def State.lanesOf (s : State) (region core : Nat) (pack : Bool) : List Nat :=
  (if pack then [4, 5] else [0, 1, 2, 3]).filter fun l =>
    !s.isRetired region (0x0C0 + 8 * core + l) && !s.underTest region (0x0C0 + 8 * core + l)

/-- A lane's code: 64 times the region, 8 times the core, and the lane. -/
def laneCode (region core lane : Nat) : Nat := 64 * region + 8 * core + lane

/-- The bricks in a lane's queue: reads on their way to an expander, landing slots queued for a compressor. -/
def State.laneLoad (s : State) (code : Nat) : Nat :=
  (s.store.chans.map fun e => (e.2.reads.filter fun q => decide (q.lane = some code)).length).sum
    + Tbl.count s.landing fun _ l => l.queued && decide (l.lane = some code)

/-- The first of a list with the least of a measure. -/
def leastBy (f : Nat → Nat) : List Nat → Option Nat
  | [] => none
  | x :: l => match leastBy f l with | none => some x | some y => if f y < f x then some y else some x

/-- The lane that takes a brick in some clusters of a region (R186): of the cluster with the fewest bricks queued, the lowest core on a tie.
DESIGN CHOICE: within the cluster, the lane with the fewest, the lowest on a tie. -/
def State.pickLane (s : State) (region : Nat) (clusters : List Nat) (pack : Bool) : Option Nat :=
  let lanes (c : Nat) : List Nat := (s.lanesOf region c pack).map (laneCode region c)
  (leastBy (fun c => ((lanes c).map s.laneLoad).sum) (clusters.filter fun c => !(lanes c).isEmpty)).bind fun c =>
    leastBy s.laneLoad (lanes c)

/-- The lane for a link read, a landing fill or a landing slot of a region (R186). -/
def State.placeLane (s : State) (region : Nat) (pack : Bool) : Option Nat := s.pickLane region (s.codecClusters region) pack

/-- Where a brick in a lane's queue goes once its lane no longer stands (R18, R188), or is under test (R476): to the other lanes of the cluster, or,
where it no longer stands, to the next core's cluster. -/
def State.laneNow (s : State) (lane : Option Nat) : Option Nat :=
  lane.bind fun x =>
    let region := x / 64
    let core := x / 8 % 8
    if s.isRetired region (0x0C0 + x % 64) || s.isRetired region (0x100 + core) then
      s.pickLane region (s.codecFor region core).toList (decide (4 ≤ x % 8))
    else if s.underTest region (0x0C0 + x % 64) then (s.pickLane region [core] (decide (4 ≤ x % 8))).orElse fun _ => some x
    else some x

/-- Every brick in a lane's queue put where it now belongs, one after another. -/
def State.settleLanes (s : State) : State :=
  let s := s.store.chans.foldl (fun s e => (upTo e.2.reads.length).foldl (fun s i =>
    let lane := (e.2.reads[i]?).bind (·.lane)
    let now := s.laneNow lane
    if now = lane then s
    else s.setStore { s.store with chans := Tbl.each s.store.chans fun k c =>
      if k = e.1 then { c with reads := c.reads.modify i fun q => { q with lane := now } } else c }) s) s
  s.landing.foldl (fun s e =>
    let now := s.laneNow e.2.lane
    if now = e.2.lane then s else s.setLanding (Tbl.put s.landing e.1 { e.2 with lane := now })) s

/-- The clusters of R18 that a unit belongs to, each checked: a core with no engine, a port with no lane, a codec cluster
with no expander or no compressor lane, a package with no rank, a Cellar channel with fewer than 2 dies, a bond block with
no bank group. -/
def State.checkClusterOf (s : State) (region unit : Nat) : State :=
  let at_ (lo n : Nat) : Bool := decide (lo ≤ unit) && decide (unit < lo + 8 * n)
  if at_ 0x040 4 then let p := (unit - 0x040) / 4; s.checkCluster region (0x060 + p) (0x040 + 4 * p) 4 1
  else if at_ 0x080 4 then let c := (unit - 0x080) / 4; s.checkCluster region (0x0A0 + c) (0x080 + 4 * c) 4 1
  else if at_ 0x0C0 8 then
    let k := (unit - 0x0C0) / 8
    ((s.checkCluster region (0x100 + k) (0x0C0 + 8 * k) 4 1).checkCluster region (0x100 + k) (0x0C4 + 8 * k) 2 1).settleLanes
  else if at_ 0x140 8 then let q := (unit - 0x140) / 8; s.checkCluster region (0x1A0 + q) (0x140 + 8 * q) 8 1
  else if at_ 0x1C0 8 then let j := (unit - 0x1C0) / 8; s.checkCluster region (0x200 + j) (0x1C0 + 8 * j) 8 2
  else if at_ 0x240 8 then let b := (unit - 0x240) / 8; s.checkCluster region (0x280 + b) (0x240 + 8 * b) 8 1
  else s

/-- A unit is retired and its cluster checked (R17 to R19). -/
def State.retireUnit (s : State) (region unit cause : Nat) : State :=
  (s.markRetired region unit 0 cause).checkClusterOf region unit

/-- A die's temperature in 0.1 °C, in the order of DIE_TEMPS (R514). -/
def State.temp (s : State) (die : Nat) : Int := s.board.temps.getD die 0

/-- A die's limit in 0.1 °C (R26): logic and Loft dies 105 °C, Store packages 95 °C, Cellar packages 85 °C. -/
def dieLimit (die : Nat) : Int := if die < 5 then 1050 else if die < 37 then 950 else 850

/-- The regions a die belongs to (R12, R26): the logic die all four, a Loft die its own, Store packages eight and Cellar
packages four a region. -/
def dieRegions (die : Nat) : List Nat :=
  if die = 0 then [0, 1, 2, 3] else if die < 5 then [die - 1] else if die < 37 then [(die - 5) / 8] else [(die - 37) / 4]

/-- A die within 5 °C of its limit throttles its region (R27), and so do dies left without a working sensor (R477). -/
def State.throttled (s : State) (region : Nat) : Bool :=
  s.test.deaf.contains region || (upTo 53).any fun d => (dieRegions d).contains region && decide (dieLimit d - 50 ≤ s.temp d)

/-- The temperature of Store package 0 to 31. -/
def State.packageTemp (s : State) (pkg : Nat) : Int := s.temp (5 + pkg)

end Sys2Proof.Machine
end

