-- ==== Sys2Proof/Machine/Store.lean ====
section
/-!
DEFINITION. Sys2Proof/Machine/Store.lean: the Store controller (chapter Store Controller): rank map, bays, queues, refresh,
row-hammer defence, training, set points, migrations.
-/

namespace Sys2Proof.Machine

/- ## Ranks, slots and bays (R310 to R317) -/

/-- Logical slots of a region (R311). -/
def slotsPerRegion : Nat := 62

/-- Bays in the data space of a rank: 8 GB less 0.637 GB of metadata, in runs of 272 B (R312, R313). -/
def baysPerRank : Nat := 7363000000 / 272

/-- Frames of a region (R315). -/
def framesPerRegion : Nat := 150994944

/-- The default rank map (R311): slots 0 to 31 rank 0 of channel s, slots 32 to 61 rank 1 of channel s - 32. -/
def defaultRank (slot : Nat) : Nat := if slot < 32 then 2 * slot else 2 * (slot - 32) + 1

/-- The physical rank of a region's slot, 2 times the region's channel plus rank; 254 dead (R311, R332). -/
def State.slotRank (s : State) (region slot : Nat) : Nat := Tbl.get s.store.map (64 * region + slot) (defaultRank slot)

/-- A region's standing spare 0 or 1, 255 once taken or retired (R311, R332). -/
def State.spare (s : State) (region i : Nat) : Nat := Tbl.get s.store.spares (2 * region + i) (2 * (30 + i) + 1)

/-- The spares a region still has. -/
def State.sparesLeft (s : State) (region : Nat) : Nat := ((upTo 2).filter fun i => s.spare region i ≠ 255).length

/-- The SOURCE_UNIT of a region's physical rank (R63, R310). -/
def rankUnit (rank : Nat) : Nat := 0x140 + rank

/-- The module channel of a region's physical rank. -/
def rankChannel (region rank : Nat) : Nat := 32 * region + rank / 2

/-- The state of a physical rank; spares stand by until they are taken (R311, R333). -/
def State.rankMode (s : State) (region rank : Nat) : RankMode :=
  Tbl.get s.store.ranks (64 * region + rank) (if rank = 61 ∨ rank = 63 then .spare else .inService)

/-- The state with a physical rank's state set. -/
def State.setRank (s : State) (region rank : Nat) (m : RankMode) : State :=
  s.setStore { s.store with ranks := Tbl.put s.store.ranks (64 * region + rank) m }

/-- A Store channel. -/
def State.chan (s : State) (n : Nat) : Chan := Tbl.get s.store.chans n Chan.init

/-- The state with a Store channel replaced. -/
def State.setChan (s : State) (n : Nat) (c : Chan) : State := s.setStore { s.store with chans := Tbl.put s.store.chans n c }

/-- Where a bay lies (R313). -/
structure BayPlace where
  slot : Nat
  bank : Nat
  row : Nat
  col : Nat
  deriving DecidableEq, Repr

/-- The bank of a row-slot under four masks (R313): bit i is the parity of the masked row-slot. -/
def bankOf (masks : List Nat) (n : Nat) : Nat :=
  (upTo 4).foldl (fun b i => b + parityOf22 (n &&& masks.getD i 0) * 2 ^ i) 0
where
  /-- The parity of 22 bits. -/
  parityOf22 (v : Nat) : Nat := ((upTo 22).filter fun i => bitOf v i).length % 2

/-- The row-slot `n` and column of a region bay, and its slot (R313). -/
def bayPlace (masks : List Nat) (b : Nat) : BayPlace :=
  let o := b / 62 * 272
  let n := o / 2048
  ⟨b % 62, bankOf masks n, n >>> 4, o % 2048⟩

/-- The rows a bay touches: its own, and the next row-slot's when it runs on (R313). -/
def bayRows (masks : List Nat) (b : Nat) : List (Nat × Nat) :=
  let n := b / 62 * 272 / 2048
  let p := bayPlace masks b
  (p.bank, p.row) :: if 1776 < p.col then [(bankOf masks (n + 1), (n + 1) >>> 4)] else []

/-- The masks a BANK_MASK value holds are legal (R314): mask i has bit i and no other of bits [3:0], and 22 bits. -/
def masksOk (ms : List Nat) : Bool :=
  decide (ms.length = 4) && (upTo 4).all fun i => decide (ms.getD i 0 % 16 = 2 ^ i) && decide (ms.getD i 0 < 2 ^ 22)

/-- A run of bays taken by frames: start, bays, and those kept for a shelve (R315, R316). -/
def Frame.runs (f : Frame) : List (Nat × Nat) := (f.start, f.bays) :: f.kept.toList

/-- The bays a frame holds. -/
def Frame.held (f : Frame) : Nat := (f.runs.map (·.2)).sum

/-- The bays taken in a region. -/
def State.baysUsed (s : State) (region : Nat) : Nat :=
  Tbl.total s.store.frames fun k f => if k / framesPerRegion = region then f.held else 0

/-- The slots of a region that are not dead. -/
def State.liveSlots (s : State) (region : Nat) : Nat :=
  ((upTo slotsPerRegion).filter fun t => s.slotRank region t ≠ 254).length

/-- Free bays of a region: those of its live slots below the zeroing front, less those taken (R317, R327, R330). -/
def State.baysFree (s : State) (region : Nat) : Nat :=
  let all := baysPerRank * slotsPerRegion
  let front := match Tbl.find s.store.fronts region with | some f => min f all | none => all
  front * s.liveSlots region / slotsPerRegion - s.baysUsed region

/-- Free bays of the module (R332). -/
def State.baysFreeAll (s : State) : Nat := (upTo 4).foldl (fun n r => n + s.baysFree r) 0

/-- Free bays of a region in MB, and whether it has more than BAY_RESERVE (R317). -/
def State.baysMb (bays : Nat) : Nat := bays * 256 / 1000000

/-- Free bays across the module are below BAY_RESERVE (R317). -/
def State.baysLow (s : State) : Bool := decide (State.baysMb s.baysFreeAll < s.val .bayReserve 0 0)

/-- The region a frame is allocated in for a port or core of `home` (R317): its own while it has more than BAY_RESERVE
free, else the one with the most free bays, the lower on a tie. -/
def State.frameRegion (s : State) (home : Nat) : Nat :=
  if s.val .bayReserve 0 0 < State.baysMb (s.baysFree home) then home
  else (upTo 4).foldl (fun r i => if s.baysFree r < s.baysFree i then i else r) 0

/-- Two runs of bays meet. -/
def runsMeet (a b : Nat × Nat) : Bool := decide (a.1 < b.1 + b.2) && decide (b.1 < a.1 + a.2)

/-- A row as RUBBLE_BLOCK lists it (R385): channel, rank, bank, row. -/
def rowWord (ch rank bank row : Nat) : Nat := ch * 2 ^ 25 + rank * 2 ^ 24 + bank * 2 ^ 20 + row

/-- The rows a region bay touches, as words (R313, R383). -/
def State.bayRowWords (s : State) (region bay : Nat) : List Nat :=
  let pr := s.slotRank region (bay % 62)
  (bayRows s.store.masks bay).map fun br => rowWord (rankChannel region pr) (pr % 2) br.1 br.2

/-- A region's rubble list. -/
def State.rubble (s : State) (region : Nat) : List Nat := Tbl.get s.store.rubble region []

/-- A run may be laid at a start in a region (R317, R327, R330, R383): in the data space, below the zeroing front, across
no dead slot and no rubble row, and on no bay a frame holds. -/
def State.runFree (s : State) (region start bays : Nat) : Bool :=
  let front := (Tbl.find s.store.fronts region).getD (baysPerRank * slotsPerRegion)
  decide (start + bays ≤ min front (baysPerRank * slotsPerRegion))
    && (upTo bays).all (fun i => decide (s.slotRank region ((start + i) % 62) ≠ 254)
        && ((s.rubble region).isEmpty || !(s.bayRowWords region (start + i)).any (s.rubble region).contains))
    && s.store.frames.all fun (k, f) =>
        decide (k / framesPerRegion ≠ region) || f.runs.all fun r => !runsMeet r (start, bays)

/-- Where a run of bays is laid: the first place that is free, from the foot of the region or the end of a run (DESIGN
CHOICE: the controller's placement is not stated). -/
def State.findRun (s : State) (region bays : Nat) : Option Nat :=
  let ends := (s.store.frames.filter fun e => e.1 / framesPerRegion = region).flatMap fun e =>
    e.2.runs.map fun r => r.1 + r.2
  (0 :: ends).flatMap (fun c => (upTo 63).map (c + ·)) |>.find? fun c => s.runFree region c bays

/-- The number of a free frame of a region: the lowest (DESIGN CHOICE, as for runs). -/
def State.findFrame (s : State) (region : Nat) : Nat :=
  firstFree s.store.frames s.store.frames.length (framesPerRegion * region)
where
  /-- The first key from `i` on that no frame has. -/
  firstFree (t : Tbl Frame) : Nat → Nat → Nat
    | 0, i => i
    | n + 1, i => if (Tbl.find t i).isSome then firstFree t n (i + 1) else i

/-- A frame's run replaced by one of the bays given (R316), the earlier run kept for a shelve when asked. -/
def State.reRun (s : State) (k bays : Nat) (keep : Bool) : Option State :=
  match Tbl.find s.store.frames k, s.findRun (k / framesPerRegion) bays with
  | some f, some start =>
    let f' := { f with start := start, bays := bays,
                       kept := if keep && f.kept.isNone then some (f.start, f.bays) else f.kept }
    some (s.setStore { s.store with frames := Tbl.put s.store.frames k f' })
  | _, _ => none

/- ## Queues (R318 to R321) -/

/-- The urgency of a request at a stamp (R320). -/
def StoreReq.urgencyAt (q : StoreReq) (now : Nat) : Nat :=
  let a := now - q.admitted
  if q.pressed then 2
  else if q.target = 0 then 0
  else if 2 * a < q.target then 0
  else if 4 * a < 3 * q.target then 1
  else if a < q.target then 2
  else 3

/-- The key of a bank: 32 times the module channel plus 16 times the rank plus the bank. -/
def bankKey (ch rank bank : Nat) : Nat := 32 * ch + 16 * rank + bank

/-- An activate of a row counted in its bank's row-hammer table (R323). -/
def HammerTable.activate (h : HammerTable) (row : Nat) : HammerTable :=
  match Tbl.find h.counts row with
  | some n => { h with counts := Tbl.put h.counts row (min 65535 (n + 1)) }
  | none =>
    if h.counts.length < 256 then { h with counts := Tbl.put h.counts row (h.spill + 1) }
    else
      let sp := h.spill + 1
      match h.counts.find? (fun e => e.2 = sp) with
      | some e => { h with counts := Tbl.put (Tbl.del h.counts e.1) row sp, spill := sp }
      | none => { h with spill := sp }

/-- An activate of a row of a bank (R323): its table counts it, and so does the rolling count of refresh management, which a refresh-management
command takes back to zero at the device's threshold. -/
def HammerTable.opened (h : HammerTable) (row : Nat) : HammerTable :=
  let h := h.activate row
  { h with rolling := if Config.refreshThreshold ≤ h.rolling then 0 else h.rolling + 1 }

/-- A row is accessed (R319, R323): an open row stays open, another is activated; its last use is kept. -/
def State.accessRow (s : State) (ch rank bank row : Nat) : State :=
  let k := bankKey ch rank bank
  let isOpen := match Tbl.find s.store.rows k with | some (r, _) => decide (r = row) | none => false
  let st := { s.store with rows := Tbl.put s.store.rows k (row, s.now) }
  s.setStore (if isOpen then st
    else { st with hammer := Tbl.upd st.hammer k ⟨[], 0, 0⟩ (·.opened row) })

/-- Bytes that a migration copies (R329, R330): a rank of 8 GB; off a dead slot, the frames with a bay on it. -/
def State.copyLength (s : State) (region : Nat) (m : Migration) : Nat :=
  match m.spare with
  | some _ => 8000000000
  | none => 272 * Tbl.total s.store.frames fun k f =>
      if k / framesPerRegion = region && f.runs.any fun r => (upTo r.2).any fun i => decide ((r.1 + i) % 62 = m.slot) then f.held else 0

/-- Bytes that a migration has copied by now, at 4,000 B a course (R329). -/
def State.copiedBytes (s : State) (region : Nat) (m : Migration) : Nat :=
  min (s.copyLength region m) (4000 * (s.time.course - m.since / 4096))

/-- A migration's copy has reached the top (R329), or every frame's has been made (R330). -/
def State.copyDone (s : State) (region : Nat) (m : Migration) : Bool :=
  decide (s.copyLength region m ≤ 4000 * (s.time.course - m.since / 4096))

/-- The rank a bay is read from (R311, R329): while a migration fills a spare, the spare below the copy point and where the written flag
stands, else the failing rank, which also serves a slot that is dead until its frames have been copied (R330). -/
def State.readRank (s : State) (region bay : Nat) : Nat :=
  match Tbl.find s.store.migrations region with
  | none => s.slotRank region (bay % 62)
  | some m =>
    if m.slot ≠ bay % 62 then s.slotRank region (bay % 62)
    else match m.spare with
      | none => m.source
      | some p => if 272 * (bay / 62) < s.copiedBytes region m ∨ m.written.contains (bay / 62) then p else m.source

/-- The rank a bay is written to (R329): every write goes to the spare that is being filled. -/
def State.writeRank (s : State) (region bay : Nat) : Nat :=
  match Tbl.find s.store.migrations region with
  | none => s.slotRank region (bay % 62)
  | some m => if m.slot ≠ bay % 62 then s.slotRank region (bay % 62) else m.spare.getD m.source

/-- A bay written beyond a copy point: its written flag is set (R329). -/
def State.flagWritten (s : State) (region bay : Nat) : State :=
  match Tbl.find s.store.migrations region with
  | none => s
  | some m =>
    if m.slot ≠ bay % 62 ∨ m.spare.isNone ∨ m.written.contains (bay / 62) then s
    else s.setStore { s.store with migrations := Tbl.put s.store.migrations region { m with written := (bay / 62) :: m.written } }

/-- Every row a bay touches is accessed, on a rank of its region. -/
def State.accessBay (s : State) (region rank bay : Nat) : State :=
  if rank = 254 then s
  else (bayRows s.store.masks bay).foldl (fun s br => s.accessRow (rankChannel region rank) (rank % 2) br.1 br.2) s

/-- A read is covered by the write queue (R318): every sector it reads lies in queued writes of its bay. -/
def Chan.covers (c : Chan) (bay first count : Nat) : Bool :=
  (upTo count).all fun i => c.writes.any fun w => decide (w.bay = bay) && decide (w.first ≤ first + i)
    && decide (first + i < w.first + w.count)

/-- A write queued (R318): one to sectors that an earlier queued write covers replaces that write's data. -/
def Chan.queueWrite (c : Chan) (q : StoreReq) : Chan :=
  if c.covers q.bay q.first q.count then c else { c with writes := c.writes ++ [q] }

/-- The urgencies of a channel's queues at a stamp. -/
def Chan.reurge (c : Chan) (now : Nat) : Chan :=
  { c with reads := c.reads.map fun q => { q with urgency := q.urgencyAt now },
           writes := c.writes.map fun q => { q with urgency := q.urgencyAt now } }

/-- Request urgencies are re-evaluated every 32 cycles (R320). -/
def execUrgencyUpdate (s : State) : Host.Outcome State Fault Refusal :=
  .next (s.setStore { s.store with chans := Tbl.each s.store.chans fun _ c => c.reurge s.now })

/-- No command has reached a bank's row for ROW_IDLE cycles (R319). -/
def State.rowPast (s : State) (last : Nat) : Bool := decide (s.val .rowIdle 0 0 * 4096 ≤ (s.now - last) * 2400)

/-- A row that no command has reached for ROW_IDLE cycles is closed (R319). -/
def execRowIdle (channel : Fin 128) (rank : Fin 2) (bank : Fin 16) (s : State) : Host.Outcome State Fault Refusal :=
  .next (match Tbl.find s.store.rows (bankKey channel rank bank) with
    | none => s
    | some (_, last) => if s.rowPast last then s.setStore { s.store with rows := Tbl.del s.store.rows (bankKey channel rank bank) } else s)

/-- A write of a channel's queue hits rows that are open (R319, R321). -/
def State.rowHit (s : State) (ch : Nat) (q : StoreReq) : Bool :=
  (bayRows s.store.masks q.bay).all fun br =>
    match Tbl.find s.store.rows (bankKey ch (s.writeRank (ch / 32) q.bay % 2) br.1) with | some (row, _) => decide (row = br.2) | none => false

/-- Where a write stands in the order in which a channel issues (R321): urgency 3 first, oldest first; the others by urgency, row hits before
misses, then oldest. -/
def State.issueKey (s : State) (ch : Nat) (q : StoreReq) : List Nat :=
  if q.urgency = 3 then [0, 0, q.admitted] else [4 - q.urgency, bit01 (!s.rowHit ch q), q.admitted]

/-- The write that a channel issues next (R321). -/
def State.nextWrite (s : State) (ch : Nat) : Option StoreReq :=
  (s.chan ch).writes.foldl (fun a q => match a with
    | none => some q | some b => if s.issueKey ch q < s.issueKey ch b then some q else some b) none

/-- Writes issued in the order of R321, each touching its rows, so many of them. -/
def State.issueWrites (s : State) (ch : Nat) : Nat → State
  | 0 => s
  | n + 1 =>
    match s.nextWrite ch with
    | none => s
    | some q =>
      let rank := s.writeRank (ch / 32) q.bay
      ((s.setChan ch { s.chan ch with writes := (s.chan ch).writes.erase q }).accessBay (ch / 32) rank q.bay).issueWrites ch n

/-- A channel's write queue starts draining at 48 writes or when no read is queued, and stops at 16 (R321). A paused or
sweeping channel issues nothing (R324, R325). -/
def execWriteQueueDrain (channel : Fin 128) (s : State) : Host.Outcome State Fault Refusal :=
  let c := s.chan channel
  if c.mode = .serving ∧ c.sweep.isNone ∧ (48 ≤ c.writes.length ∨ c.reads.isEmpty) then
    .next (s.issueWrites channel (c.writes.length - 16))
  else .next s

/- ## Refresh (R322) -/

/-- A rank's refresh. -/
def State.rankRefresh (s : State) (ch r : Nat) : RankRefresh := Tbl.get s.store.refresh (2 * ch + r) RankRefresh.init

/-- Commands a rank owes a course, in thousandths: 4.096, or 8.192 above 85 °C (R322). -/
def State.owed (s : State) (ch : Nat) : Int := if 850 < s.packageTemp (ch / 4) then 8192 else 4096

/-- The refresh of one rank over a boundary (R322): the commands the past course still had to issue are issued; the new
course's are owed; those that keep the balance at +8 or below are needed; where a bank pair is free up to 4 more are issued while
the balance stays above -8. A paused channel issues none. -/
def RankRefresh.course (f : RankRefresh) (owed : Int) (paused idle : Bool) : RankRefresh :=
  let b := f.balance - (if paused then 0 else 1000 * (f.need : Int)) + owed
  if paused then { f with balance := b, need := 0 }
  else
    let need := if 8000 < b then ((b - 8000 + 999) / 1000).toNat else 0
    let extra : Nat := if idle then min 4 ((b - 1000 * (need : Int) + 8000 - 1) / 1000).toNat else 0
    { f with balance := b - 1000 * (extra : Int), need := need }

/-- A bank pair of a rank takes a planned refresh (R322): its two banks have no queued request, and no open row or one past ROW_IDLE. DESIGN
CHOICE: pair i is banks 2i and 2i + 1. -/
def State.pairFree (s : State) (ch r i : Nat) : Bool :=
  let c := s.chan ch
  let mine (q : StoreReq) (rank : Nat) : Bool := decide (rank % 2 = r) && (bayRows s.store.masks q.bay).any fun br => decide (br.1 / 2 = i)
  !(c.reads.any fun q => mine q (s.readRank (ch / 32) q.bay)) && !(c.writes.any fun q => mine q (s.writeRank (ch / 32) q.bay))
    && [2 * i, 2 * i + 1].all fun b => match Tbl.find s.store.rows (bankKey ch r b) with | none => true | some (_, last) => s.rowPast last

/-- Refresh placed on every slotted rank for the course that begins (R48, R322). -/
def State.placeRefresh (s : State) : State :=
  (upTo 256).foldl (fun s k =>
    let ch := k / 2
    let c := s.chan ch
    if c.mode = .off || c.mode = .disabled then s
    else
      let idle := (upTo 8).any (s.pairFree ch (k % 2))
      let f := (s.rankRefresh ch (k % 2)).course (s.owed ch) (decide (c.mode = .paused)) idle
      s.setStore { s.store with refresh := Tbl.put s.store.refresh k f }) s

/-- 64 courses have passed since a stamp, or there was none: the rule of the entries written at most once per 64 courses. -/
def State.quiet64 (s : State) (at_ : Option Nat) : Bool :=
  match at_ with | none => true | some t => decide (t + 64 * 4096 ≤ s.now)

/-- A needed refresh without a free bank pair by position 3,277 is forced (R322): the controller precharges a pair of its choice, a free
value, and issues the command. -/
def execRefreshForced (channel : Fin 128) (rank : Fin 2) (s : State) : Host.Outcome State Fault Refusal :=
  let f := s.rankRefresh channel rank
  if f.need = 0 ∨ s.time.pos < 3277 then .next s
  else
    let c := s.chan channel
    let (n, s) := (s.setChan channel { c with forced := c.forced + 1 }).draw
    let kept := Tbl.keep s.store.rows fun k _ => decide (k / 2 ≠ bankKey channel rank 0 / 2 + Config.refreshPair n % 8)
    let s := s.setStore { s.store with rows := kept }
    let f := { f with balance := f.balance - 1000, need := f.need - 1, recent := f.recent + 1 }
    let put (s : State) (f : RankRefresh) : State :=
      s.setStore { s.store with refresh := Tbl.put s.store.refresh (2 * channel.val + rank.val) f }
    let pr := 2 * (channel.val % 32) + rank.val
    if s.quiet64 f.at_ then
      .next ((put s { f with recent := 0, at_ := some s.now }).raise
        { code := 0x6007, sev := 1, region := channel.val / 32, unit := rankUnit pr,
          args := leBytes 1 channel ++ leBytes 1 rank ++ leBytes 2 f.recent })
    else .next (put s f)

/- ## Row hammer (R323) -/

/-- A row's count reaches RH_THRESHOLD: rows n - 2 to n + 2 other than n are refreshed, and the count returns to the spill
counter (R323). -/
def execRowHammerRefresh (channel : Fin 128) (rank : Fin 2) (bank : Fin 16) (row : BitVec 18) (s : State) :
    Host.Outcome State Fault Refusal :=
  let k := bankKey channel rank bank
  let h := Tbl.get s.store.hammer k ⟨[], 0, 0⟩
  match Tbl.find h.counts row.toNat with
  | none => .next s
  | some n =>
    if n < s.val .rhThreshold 0 0 then .next s
    else
      let c := s.chan channel
      let nb := ([row.toNat + 1, row.toNat + 2].filter (· < 2 ^ 18)).length + min 2 row.toNat
      let c := { c with rhRefreshes := c.rhRefreshes + nb, rhRecent := c.rhRecent + 1 }
      let st := { s.store with hammer := Tbl.put s.store.hammer k { h with counts := Tbl.put h.counts row.toNat h.spill },
                               rows := Tbl.del s.store.rows k }
      let s := s.setStore st
      if s.quiet64 c.rhAt then
        .next ((s.setChan channel { c with rhRecent := 0, rhAt := some s.now }).raise
          { code := 0x6006, sev := 0, region := channel.val / 32, unit := 0x180 + channel.val % 32,
            args := leBytes 1 channel ++ leBytes 1 rank ++ leBytes 1 bank ++ leBytes 4 row.toNat ++ leBytes 2 c.rhRecent })
      else .next (s.setChan channel c)

/-- Row-hammer tables and spill counters clear every 16,000 courses, or every 8,000 above 85 °C (R323), a package at a
time. -/
def execRhTableClear (s : State) : Host.Outcome State Fault Refusal :=
  let hot (k : Nat) : Bool := decide (850 < s.packageTemp (k / 32 / 4))
  let due := s.store.clearedAt + 16000 * 4096 ≤ s.now
  let half := s.store.clearedAt + 8000 * 4096 ≤ s.now
  let wipe (p : Nat → Bool) : Tbl HammerTable :=
    Tbl.each s.store.hammer fun k h => if p k then { h with counts := [], spill := 0 } else h
  if due then .next (s.setStore { s.store with hammer := wipe fun _ => true, clearedAt := s.now })
  else if half then .next (s.setStore { s.store with hammer := wipe hot })
  else .next s

/- ## Rank retirement and migration (R328 to R331) -/

/-- The slot a region's physical rank serves, if any. -/
def State.rankSlot (s : State) (region rank : Nat) : Option Nat :=
  (upTo slotsPerRegion).find? fun t => s.slotRank region t = rank

/-- A migration begins (R329), or with no spare left the slot is marked dead and its frames are to be copied (R330). -/
def State.startMigration (s : State) (region rank cause : Nat) : State :=
  match s.rankSlot region rank with
  | none => s
  | some slot =>
    let i := (upTo 2).find? fun i => s.spare region i ≠ 255
    let sp := i.map fun i => s.spare region i
    let st := s.store
    let st := { st with migrations := Tbl.put st.migrations region ⟨slot, rank, sp, cause, s.now, [], 0⟩ }
    let st := match i, sp with
      | some i, some p => { st with spares := Tbl.put st.spares (2 * region + i) 255,
                                    ranks := Tbl.put (Tbl.put st.ranks (64 * region + p) .inService) (64 * region + rank) .migrating }
      | _, _ => { st with map := Tbl.put st.map (64 * region + slot) 254,
                          ranks := Tbl.put st.ranks (64 * region + rank) .migrating }
    let b (o : Option Nat) (f : Nat → Nat) : Nat := match o with | some p => f p | none => 255
    (s.setStore st).raise
      { code := 0x6001, sev := 2, region := region, unit := rankUnit rank,
        args := leBytes 1 (8 * region + rank / 8) ++ leBytes 1 (rank % 8) ++ leBytes 1 cause
          ++ leBytes 1 (b sp fun p => 8 * region + p / 8) ++ leBytes 1 (b sp (· % 8)) }

/-- A rank is the spare that a running migration fills. -/
def State.filling (s : State) (region rank : Nat) : Bool :=
  match Tbl.find s.store.migrations region with | some m => decide (m.spare = some rank) | none => false

/-- A rank is taken out of service (R328): UNIT_RETIRED with its cause, then its migration with its own, or a place behind the
migration that runs in the region (R23). A spare that fails while it is filled waits for the slot it takes. -/
def State.retireRankAs (s : State) (region rank cause unitCause : Nat) : State :=
  if s.isRetired region (rankUnit rank) then s
  else
    let s := s.retireUnit region (rankUnit rank) unitCause
    if (s.rankSlot region rank).isNone ∧ !s.filling region rank then
      let drop (i : Nat) (t : Tbl Nat) : Tbl Nat := if s.spare region i = rank then Tbl.put t (2 * region + i) 255 else t
      (s.setStore { s.store with spares := drop 1 (drop 0 s.store.spares) }).setRank region rank .retired
    else if (Tbl.find s.store.migrations region).isSome then
      (s.setStore { s.store with waiting := s.store.waiting ++ [(region, rank, cause)] }).setRank region rank .migrating
    else s.startMigration region rank cause

/-- A rank is taken out of service for a cause of R334. -/
def State.retireRank (s : State) (region rank cause : Nat) : State := s.retireRankAs region rank cause (if cause = 5 then 1 else 3)

/-- Both ranks of a channel are retired for a channel cause (R328). -/
def State.retireChannelRanks (s : State) (ch cause : Nat) : State :=
  let r := 2 * (ch % 32)
  (s.retireRank (ch / 32) r cause).retireRank (ch / 32) (r + 1) cause

/-- The rank that waits in a region begins its migration at the first boundary after the previous one ended (R23). -/
def execRankMigrationStart (region : Fin 4) (s : State) : Host.Outcome State Fault Refusal :=
  match s.store.waiting.find? (fun w => w.1 = region.val) with
  | none => .next s
  | some w =>
    if (Tbl.find s.store.migrations region).isSome ∨ s.time.pos ≠ 0 then .next s
    else .next ((s.setStore { s.store with waiting := s.store.waiting.erase w }).startMigration region w.2.1 w.2.2)

/-- Every frame of a region that has a bay which fails a test is copied to a new run (R330, R383); the answer says whether
all were. -/
def State.copyFrames (s : State) (bad : Nat → Bool) : List (Nat × Frame) → Bool × State
  | [] => (true, s)
  | (k, f) :: r =>
    if f.runs.any fun x => (upTo x.2).any fun i => bad (x.1 + i) then
      match s.reRun k f.bays false with
      | some s' => s'.copyFrames bad r
      | none => let (_, s') := s.copyFrames bad r; (false, s')
    else s.copyFrames bad r

/-- The frames of a region. -/
def State.framesIn (s : State) (region : Nat) : List (Nat × Frame) :=
  s.store.frames.filter fun e => e.1 / framesPerRegion = region

/- ## Training and set points (R324 to R326) -/

/-- A channel's package is already sweeping on another channel (R324). -/
def State.packageSweeps (s : State) (ch : Nat) : Bool :=
  (upTo 4).any fun i => decide (4 * (ch / 4) + i ≠ ch) && (s.chan (4 * (ch / 4) + i)).sweep.isSome

/-- A re-centring sweep is due on a channel (R324), and by which cause of R334: 1 the interval, 2 the temperature. -/
def State.sweepDue (s : State) (ch : Nat) : Option Nat :=
  let c := s.chan ch
  let iv := s.val .trainInterval 0 0
  if 100 ≤ (s.packageTemp (ch / 4) - c.sweptTemp).natAbs then some 2
  else if iv ≠ 0 ∧ c.trained.getD c.point 0 + iv * 4096 ≤ s.now then some 1
  else if c.trained.getD 0 0 = 0 ∨ c.trained.getD 1 0 = 0 ∨ c.trained.getD 2 0 = 0 then some 1
  else none

/-- A channel's wave of a set-point change starts in the present course (R326). -/
def State.waveNow (s : State) (ch : Nat) : Bool :=
  s.store.changes.any fun p => decide (p.at_ + (ch % 4) * 4096 = stampOf s.time.course 0)

/-- A re-centring sweep begins from a course boundary, with the channel out of traffic (R324), at the current set point, or
at one that a start left untrained (R326); never on a paused channel,
nor in a course in which its wave starts (R326), nor beside another of its package. -/
def execTrainingSweep (channel : Fin 128) (s : State) : Host.Outcome State Fault Refusal :=
  let c := s.chan channel
  match s.sweepDue channel with
  | none => .next s
  | some cause =>
    if c.mode ≠ .serving ∨ c.sweep.isSome ∨ s.packageSweeps channel ∨ s.waveNow channel ∨ s.time.pos ≠ 0 then .next s
    else
      let point := if c.trained.getD c.point 0 = 0 then c.point
        else ((upTo 3).find? fun i => c.trained.getD i 0 = 0).getD c.point
      .next (s.setChan channel { c with sweep := some ⟨s.now, point, cause⟩ })

/-- A sweep ends (R324): its values are filed against the set point at which it ran; a byte lane with no passing window
fails it, the previous values are kept and the channel's ranks are retired (R328). -/
def execTrainingSweepEnd (channel : Fin 128) (narrowest : BitVec 16) (failedLanes : BitVec 2) (s : State) :
    Host.Outcome State Fault Refusal :=
  let c := s.chan channel
  match c.sweep with
  | none => .next s
  | some w =>
    let ok := failedLanes = 0
    let c' := { c with
      sweep := none
      trained := if ok then c.trained.set w.point s.now else c.trained
      sweptTemp := if ok then s.packageTemp (channel.val / 4) else c.sweptTemp
      dueChange := c.dueChange || c.deferred
      deferred := false }
    let s := (s.setChan channel c').raise
      { code := 0x6005, sev := 0, region := channel.val / 32, unit := 0x180 + channel.val % 32,
        args := leBytes 1 channel ++ leBytes 1 w.point ++ leBytes 1 w.cause ++ leBytes 2 narrowest.toNat
          ++ leBytes 1 failedLanes.toNat }
    .next (if ok then s else s.retireChannelRanks channel 4)

/-- A channel pauses for the change: it takes no command, and its open rows are precharged (R325). -/
def State.pauseChan (s : State) (ch : Nat) : State :=
  let s := s.setChan ch { s.chan ch with mode := .paused, dueChange := false }
  s.setStore { s.store with rows := Tbl.keep s.store.rows fun k _ => decide (k / 32 ≠ ch) }

/-- A channel meets its wave of the change `p`: it pauses, or, paused for an earlier change, goes on to the later set point;
one that sweeps defers its change (R326). -/
def State.waveChan (p : PointChange) (s : State) (ch : Nat) : State :=
  let c := s.chan ch
  match c.mode, c.sweep with
  | .paused, _ => s.setChan ch { c with target := p.new }
  | .serving, none => if c.point = p.new then s else (s.setChan ch { c with target := p.new }).pauseChan ch
  | .serving, some w =>
    let s := s.setChan ch { c with deferred := true, target := p.new }
    let one (x : PointChange) : PointChange := if x.at_ = p.at_ then { x with deferred := x.deferred + 1 } else x
    (s.setStore { s.store with changes := s.store.changes.map one }).raise
      { code := 0x6004, sev := 0, region := ch / 32, unit := 0x180 + ch % 32, args := leBytes 1 ch ++ leBytes 1 w.point }
  | _, _ => s

/-- Wave `w` of a set-point change begins at boundary B + w (R325): channel w of every package pauses; one that sweeps
defers its change (R326). -/
def execSetPointWave (wave : Fin 4) (s : State) : Host.Outcome State Fault Refusal :=
  match s.store.changes.find? fun p => decide (p.at_ + wave.val * 4096 = stampOf s.time.course 0) with
  | none => .next s
  | some p => .next ((upTo 32).foldl (fun s q => s.waveChan p (4 * q + wave.val)) s)

/-- Channels whose deferred change is due pause at this boundary (R326). -/
def State.pauseDue (s : State) : State :=
  (upTo 128).foldl (fun s ch => if (s.chan ch).dueChange && (s.chan ch).mode = .serving then s.pauseChan ch else s) s

/-- No channel has the change `p` still to make (R325): its waves have begun, and no channel pauses or waits for it. -/
def State.changeDone (s : State) (p : PointChange) : Bool :=
  decide (p.at_ + 3 * 4096 ≤ s.now) && (upTo 128).all fun ch =>
    let c := s.chan ch
    decide (c.target ≠ p.new) || !(c.mode = .paused || c.deferred || c.dueChange)

/-- The changes that are done end, oldest first, with SET_POINT_CHANGE from the last channel that resumed. -/
def State.endChanges (s : State) (ch : Nat) : State :=
  let done := s.store.changes.filter s.changeDone
  let one (s : State) (p : PointChange) : State := s.raise
    { code := 0x6003, sev := 1, region := ch / 32, unit := 0x180 + ch % 32,
      args := leBytes 1 p.old ++ leBytes 1 p.new ++ leBytes 2 p.deferred }
  done.foldl one (s.setStore { s.store with changes := s.store.changes.filter fun p => !s.changeDone p })

/-- A paused channel resumes at its new set point (R325); the last one ends the change. -/
def execSetPointResume (channel : Fin 128) (s : State) : Host.Outcome State Fault Refusal :=
  let c := s.chan channel
  if c.mode ≠ .paused then .next s
  else .next ((s.setChan channel { c with mode := .serving, point := c.target }).endChanges channel)

/-- The transfer rate of a set point in MT/s (R332). -/
def rateOf (point : Nat) : Nat := match point with | 0 => 10667 | 1 => 8533 | _ => 6400

/-- A set-point change is decided at a boundary (R325), for a set point every channel in service has values for. A lower
rate counts in the budget at once, a higher one from the boundary after the last channel resumes. -/
def State.decidePoint (s : State) (new : Nat) : State :=
  let trained := (upTo 128).all fun ch => (s.chan ch).mode = .off || (s.chan ch).mode = .disabled
    || decide ((s.chan ch).trained.getD new 0 ≠ 0)
  if new = s.store.point ∨ !trained then s
  else s.setStore { s.store with
    point := new
    changes := s.store.changes ++ [⟨s.store.point, new, stampOf s.time.course 0, 0⟩]
    budgetPoint := if s.store.budgetPoint < new then new else s.store.budgetPoint }

/-- The set point the budget counts: a raised one once no change runs (R325). -/
def State.settleBudgetPoint (s : State) : State :=
  if s.store.changes.isEmpty then s.setStore { s.store with budgetPoint := s.store.point } else s

end Sys2Proof.Machine
end

