-- ==== Sys2Proof/Machine/Pages.lean ====
section
/-!
DEFINITION. Sys2Proof/Machine/Pages.lean: pages, windows, usage, the dirty total, heat, quotas and the write-back queue
(R107 to R116, R132 to R147).
-/

namespace Sys2Proof.Machine

/-- The key of a page: 2^34 times the room plus address bits [45:12]. A version's own copy of a page (R245) has the page's
key plus 2^40 times the number of the copy. -/
def pageKey (room page : Nat) : Nat := 2 ^ 34 * room + page
/-- The key of a page that a command names. -/
def pageIdKey (p : PageId) : Nat := 2 ^ 40 * p.copy.toNat + pageKey p.room p.page.toNat
/-- The room of a page key. -/
def pageRoom (k : Nat) : Nat := k / 2 ^ 34 % 64
/-- The page number of a page key, address bits [45:12]. -/
def pageNo (k : Nat) : Nat := k % 2 ^ 34
/-- The key of a brick: 16 times its page's key plus its number (R160). -/
def brickKey (page b : Nat) : Nat := 16 * page + b

/-- A page. -/
def State.page (s : State) (k : Nat) : Page := Tbl.get s.pages k Page.init
/-- The state with a page replaced; a page in state NEW is not listed. -/
def State.setPage (s : State) (k : Nat) (p : Page) : State :=
  s.setPages (if p = Page.init then Tbl.del s.pages k else Tbl.put s.pages k p)
/-- The state with a page changed. -/
def State.updPage (s : State) (k : Nat) (f : Page → Page) : State := s.setPage k (f (s.page k))

/- ## Windows (R109, R110) -/

/-- A field of a window's attributes in force. -/
def State.attr (s : State) (room w : Nat) : Nat := s.val .windowAttr room w
/-- CLASS of an attribute word (R110). -/
def attrClass (a : Nat) : Nat := bitsOf a 28 26
/-- ELEMENT_TYPE of an attribute word (R110). -/
def attrElement (a : Nat) : Nat := bitsOf a 25 23
/-- PLACEMENT of an attribute word (R110): 0 automatic, 1 Loft-pinned, 2 Store-pinned, 3 Cellar-only. -/
def attrPlacement (a : Nat) : Nat := bitsOf a 22 21
/-- DURABLE of an attribute word (R110). -/
def attrDurable (a : Nat) : Bool := bitOf a 20
/-- SEALED of an attribute word (R110). -/
def attrSealed (a : Nat) : Bool := bitOf a 19
/-- PUBLISHER of an attribute word (R110). -/
def attrPublisher (a : Nat) : Bool := bitOf a 18
/-- STALE_OK of an attribute word (R110). -/
def attrStaleOk (a : Nat) : Bool := bitOf a 17
/-- POOL_LOSS_FATAL of an attribute word (R110). -/
def attrPoolFatal (a : Nat) : Bool := bitOf a 16
/-- VOLATILE_FLUSH of an attribute word (R110). -/
def attrVolFlush (a : Nat) : Bool := bitOf a 15

/-- The window of a room that an address lies in (R109). -/
def State.windowAt (s : State) (room addr : Nat) : Option Nat :=
  (upTo 16).find? fun w => decide (s.val .windowBase room w ≤ addr)
    && decide (addr < s.val .windowBase room w + s.val .windowSize room w)

/-- The window of a page. -/
def State.windowOf (s : State) (k : Nat) : Option Nat := s.windowAt (pageRoom k) (pageNo k * 4096)

/-- The attributes of a page's window; the reset value where it lies in none. -/
def State.pageAttr (s : State) (k : Nat) : Nat :=
  match s.windowOf k with | some w => s.attr (pageRoom k) w | none => Ent.row .windowAttr |>.dflt

/-- A page's class. -/
def State.pageClass (s : State) (k : Nat) : Nat := attrClass (s.pageAttr k)

/- ## Sizes and usage (R112, R146, R168) -/

/-- Stored size of 16 bricks: 128 B and 32 B a sector (R168). -/
def storedSize (bs : List Laid) : Nat := 128 + 32 * (bs.map fun b => recSectors b.record).sum

/-- The bricks of a page's Store copy, sixteen. -/
def Page.store (p : Page) : List Laid := if p.bricks.isEmpty then List.replicate 16 Laid.blank else p.bricks

/-- One brick of a page's Store copy. -/
def Page.brick (p : Page) (b : Nat) : Laid := p.store.getD b Laid.blank

/-- A page's Store copy as it stands, in the form a write-back copies (R134). -/
def Page.form (p : Page) : PageForm := ⟨p.gen, p.groupSeq, p.store, p.group⟩

/-- A page that has returned to NEW: nothing stands of it but how many generations have been taken up for it, so that no full version
repeats under a key that stands (R165). DESIGN CHOICE: the spec names ROOM_ERASE alone, which brings a new key, as the way back to
generation 0. -/
def Page.freed (p : Page) : Page := { Page.init with gens := p.gens }

/-- A page has a Store copy (R132). -/
def Page.inStore (p : Page) : Bool := p.mode = .dirty || p.mode = .clean || p.mode = .volatile

/-- A page is allocated (R107). -/
def Page.allocated (p : Page) : Bool := decide (p.mode ≠ .new)

/-- The pages of a room that pass, counted. -/
def State.countPages (s : State) (room : Nat) (f : Page → Bool) : Nat :=
  Tbl.count s.pages fun k p => decide (pageRoom k = room) && f p

/-- U_L in bytes (R112). -/
def State.usedLoft (s : State) (room : Nat) : Nat := 4096 * s.countPages room fun p => p.loft.isSome
/-- U_S in bytes (R112). -/
def State.usedStore (s : State) (room : Nat) : Nat := 4096 * s.countPages room (·.inStore)
/-- V_S in bytes (R112). -/
def State.usedVolatile (s : State) (room : Nat) : Nat := 4096 * s.countPages room fun p => p.mode = .volatile
/-- The pages a manifest takes in the Cellar (R216). -/
def ShelfVer.pagesOf (v : ShelfVer) : Nat := ceilDiv (344 + 4 * v.order.length + 88 * v.pages.length) 4096

/-- The pages of a room's images that only retained versions refer to, and of its manifests (R212). -/
def State.shelfPages (s : State) (room : Nat) : Nat :=
  Tbl.count s.cellar.images (fun sl i => decide (pageRoom i.page = room) && decide (i.refs ≠ 0)
      && !s.pages.any fun e => decide (e.2.slot = some sl))
    + Tbl.total s.shelves fun _ f => if f.room = room then (f.vers.map ShelfVer.pagesOf).sum else 0

/-- U_C in bytes: durable pages allocated, and volatile pages demoted, a demotion charged from its start (R112, R147), and
what shelves keep (R212). -/
def State.usedCellar (s : State) (room : Nat) : Nat :=
  4096 * s.shelfPages room + 4096 * s.countPages room fun p => p.mode = .dirty || p.mode = .clean || p.mode = .cellar
    || p.mode = .demoted || (p.mode = .volatile && p.transit = .demoting)

/-- The page of a brick key is durable. -/
def State.durableBrick (s : State) (b : Nat) : Bool := attrDurable (s.pageAttr (b / 16))

/-- The undrained ring's fixed share of the dirty total (R66, R146). -/
def tallyShare : Nat := 67108864

/-- The dirty total DIRTY_STORED (R146): stored sizes of DIRTY pages and 8 B each; 256 B a landing slot of a durable page;
the reservations of R96 and R491; the fixed 64 MiB of R66. -/
def State.dirtyStored (s : State) : Nat :=
  Tbl.total s.pages (fun _ p => if p.mode = .dirty then storedSize p.store + 8 else 0)
    + Tbl.total s.landing (fun b l => if s.durableBrick b then 256 + 256 * bit01 l.under.isSome else 0)
    + (s.tier.reservations.map (·.bytes)).sum + tallyShare

/-- A page has bricks in the landing. -/
def State.inLanding (s : State) (k : Nat) : Bool := s.landing.any fun e => decide (e.1 / 16 = k)

/-- Landing slots in use, of 1,048,576 (R135, R157), marked ones left behind (R214) and those reserved included. -/
def State.landingUsed (s : State) : Nat :=
  s.landing.length + Tbl.count s.landing (fun _ l => l.under.isSome) + (s.tier.reservations.map (·.bricks)).sum

/-- The landing's size in slots (R135). -/
def landingSize : Nat := 1048576

/- ## Heat (R139) -/

/-- The effective heat of a page in a course. -/
def State.heatOf (s : State) (p : Page) : Nat :=
  p.heat >>> ((s.time.course - p.lastTouch) / max 1 (s.val .heatHalfLife 0 0))

/-- A page's heat and touch counters after a touch from a region (R136, R139): HEAT rises once a course. -/
def State.touchPage (s : State) (p : Page) (region : Nat) : Page :=
  if p.mode = .new then p
  else
    let c := p.touches.getD region 0
    let p' := { p with touches := p.touches.set region (min 15 (c + 1)) }
    if p.lastTouch = s.time.course ∧ p.heat ≠ 0 then p'
    else { p' with heat := min 255 (s.heatOf p + 1), lastTouch := s.time.course }

/-- The ageing pass (R139): records whose effective heat is 0 are rewritten. -/
def State.agePages (s : State) : State :=
  s.setPages (Tbl.each s.pages fun _ p =>
    if p.allocated ∧ s.heatOf p = 0 then { p with heat := 0, lastTouch := s.time.course } else p)

/-- The region a page's Loft copy goes to (R136): most touches, the lower on a tie; with none, that of its frame. -/
def loftRegion (p : Page) : Nat :=
  if p.touches.all (· = 0) then (p.frame.getD 0) / framesPerRegion
  else (upTo 4).foldl (fun r i => if p.touches.getD r 0 < p.touches.getD i 0 then i else r) 0

/-- A page's Loft copy dropped; its touch counters return to zero (R136). -/
def Page.dropLoft (p : Page) : Page := if p.loft.isSome then { p with loft := none, touches := [0, 0, 0, 0] } else p

/- ## Quotas and overdraft (R113 to R116) -/

/-- Bytes borrowed from the reserve by all rooms. -/
def State.borrowedAll (s : State) : Nat := Tbl.total s.rooms fun _ r => r.borrowed

/-- What the reserve has free (R115, R130). -/
def State.reserveFree (s : State) : Nat := s.val .overdraftReserve 0 0 - s.borrowedAll

/-- A room's overdraft allowance in bytes (R115, R128). -/
def State.allowance (s : State) (room : Nat) : Nat :=
  s.val .roomCellarQuota room 0 * s.val .roomOverdraft room 0 / 10000

/-- O of R114: the overdraft a room can still use. -/
def State.overdraftLeft (s : State) (room : Nat) : Nat :=
  min (s.allowance room - (s.room room).borrowed) s.reserveFree

/-- U_C and 4 KiB more would pass Q_C + borrowed + O (R114). -/
def State.cellarFull (s : State) (room : Nat) : Bool :=
  decide (s.val .roomCellarQuota room 0 + (s.room room).borrowed + s.overdraftLeft room < s.usedCellar room + 4096)

/-- A first write is refused for quota (R114). -/
def State.quotaRefuses (s : State) (room : Nat) (durable : Bool) : Bool :=
  if durable then s.cellarFull room
  else decide ((s.room room).effStore < s.usedVolatile room + 4096) && s.cellarFull room

/-- OVERDRAFT_RESERVE_EMPTY (R115): once each time the reserve becomes empty. -/
def State.settleReserve (s : State) : State :=
  if s.reserveFree ≠ 0 then s.setAdm { s.adm with emptyRaised := false }
  else if s.adm.emptyRaised then s
  else (s.setAdm { s.adm with emptyRaised := true }).raise
    { code := 0x4012, sev := 2, unit := srcAdmission, args := leBytes 8 (s.val .overdraftReserve 0 0) }

/-- What a room uses of the Cellar beyond its quota. -/
def State.overQuota (s : State) (room : Nat) : Nat := s.usedCellar room - s.val .roomCellarQuota room 0

/-- What a room has borrowed and no longer needs goes back to the reserve (R115). -/
def State.returnOverdraft (s : State) (room : Nat) : State :=
  let need := s.overQuota room
  if (s.room room).borrowed ≤ need then s else (s.updRoom room fun r => { r with borrowed := need }).settleReserve

/-- The room's borrowing follows its U_C (R115): as U_C passes Q_C it rises 4 KiB at a time within O, and it falls back as U_C does. DESIGN
CHOICE: the first borrowing, which raises OVERDRAFT_BORROW, is each that begins while the room has nothing borrowed. -/
def State.settleOverdraft (s : State) (room : Nat) : State :=
  let r := s.room room
  let need := s.overQuota room
  let steps := min (ceilDiv (need - r.borrowed) 4096) (s.overdraftLeft room / 4096)
  if need ≤ r.borrowed then s.returnOverdraft room
  else if steps = 0 then s
  else
    let got := r.borrowed + 4096 * steps
    let s := s.setRoom room { r with borrowed := got }
    let s := if r.borrowed = 0 then s.raise { code := 0x4011, sev := 1, unit := srcRoom room, args := leBytes 8 got } else s
    s.settleReserve

/- ## Frames -/

/-- A page's frame and its runs are freed. -/
def State.freeFrame (s : State) (k : Nat) : State :=
  match (s.page k).frame with
  | none => s
  | some f => s.setStore { s.store with frames := Tbl.del s.store.frames f }

/-- A page leaves the Store (R133): its frame freed, its Loft copy dropped, its state as given. -/
def State.leaveStore (s : State) (k : Nat) (m : PageMode) : State :=
  (s.freeFrame k).updPage k fun p =>
    { p.dropLoft with mode := m, transit := .none, bricks := [], footing := [], frame := none, group := [], groupCheck := [],
                      snapshot := none, wrote := false, wbStep := 0, leaving := false, promote := false, spilled := false }

/- ## Write-back (R134, R145) -/

/-- Placement may not take a page from the Store (R134): in the Loft, in the landing, in transit or pinned. Stair
protection is a further bar, in the file of stairs. -/
def State.heldInStore (s : State) (k : Nat) (p : Page) : Bool :=
  p.loft.isSome || s.inLanding k || decide (p.transit ≠ .none) || decide (s.now < p.pinUntil)

/-- A DIRTY page is queued for write-back at a step of R145; one already queued keeps the earlier step and its place, and one whose write-back
runs, with no write since it began, needs no other. -/
def State.queueWriteBack (s : State) (k step : Nat) : State :=
  let p := s.page k
  if p.mode ≠ .dirty ∨ (p.wbStep ≠ 0 ∧ p.wbStep ≤ step) ∨ (p.transit = .writing ∧ !p.wrote) then s
  else
    let n := if p.wbStep = 0 then s.tier.order else p.wbOrder
    (s.setPage k { p with wbStep := step, wbOrder := n }).setTier
      { s.tier with order := if p.wbStep = 0 then s.tier.order + 1 else s.tier.order }

/-- A VOLATILE page is queued to be demoted at a step of R145, unless its room's margin forbids it (R147). -/
def State.queueDemotion (s : State) (k step : Nat) : State :=
  let p := s.page k
  if p.mode ≠ .volatile ∨ p.wbStep ≠ 0 ∨ p.transit ≠ .none ∨ s.cellarFull (pageRoom k) then s
  else (s.setPage k { p with wbStep := step, wbOrder := s.tier.order }).setTier { s.tier with order := s.tier.order + 1 }

/-- A marked page of a running shelve (R214). -/
def State.isMarked (s : State) (k : Nat) : Bool :=
  s.shelves.any fun e => match e.2.job with
    | some j => decide (j.op = 1) && j.begun && j.marked.any fun m => decide (m.page = k)
    | none => false

/-- A landing slot queued for compression (R186, R194), in the region whose channel will hold its brick; one queued already keeps its place. -/
def State.queueSlot (s : State) (bk : Nat) : State :=
  match Tbl.find s.landing bk with
  | none => s
  | some l =>
    if l.queued then s
    else
      let lane := s.placeLane (((s.page (bk / 16)).frame.getD 0) / framesPerRegion) true
      (s.setLanding (Tbl.put s.landing bk { l with queued := true, lane := lane, turn := s.codec.turn })).setCodec
        { s.codec with turn := s.codec.turn + 1 }

/-- The landing slots that pass are queued, in the order of their bricks. -/
def State.queueSlots (s : State) (f : Nat → Landing → Bool) : State :=
  s.landing.foldl (fun s e => if f e.1 e.2 then s.queueSlot e.1 else s) s

/-- The order in which the write-back queue is served (R145): step, class, then the oldest dirty page in step 1 and the
order queued in the others. -/
def State.wbBefore (s : State) (a b : Nat × Page) : Bool :=
  let key (e : Nat × Page) : List Nat :=
    [e.2.wbStep, s.pageClass e.1, if e.2.wbStep = 1 then e.2.dirtySince else e.2.wbOrder]
  decide (key a < key b)

/-- An element put into a list before the first that it must precede. -/
def insertBy {α : Type} (lt : α → α → Bool) (x : α) : List α → List α
  | [] => [x]
  | y :: ys => if lt x y then x :: y :: ys else y :: insertBy lt x ys

/-- A list sorted by an order, equal elements in their order. -/
def sortBy {α : Type} (lt : α → α → Bool) (l : List α) : List α := l.foldl (fun acc x => insertBy lt x acc) []

/-- The pages queued for write-back or demotion, in the order they are served (R145). -/
def State.wbQueue (s : State) : List (Nat × Page) :=
  sortBy s.wbBefore (s.pages.filter fun e => decide (e.2.wbStep ≠ 0) && decide (e.2.transit = Transit.none))

/-- A datapath parity error recorded (R365, R366, R386). -/
def State.parityError (s : State) (region unit path : Nat) (poisoned : Bool) (room : Nat) : State :=
  (s.setInteg { s.integ with parity := s.integ.parity + 1 }).raise
    { code := 0x7001, sev := 1, region := region, unit := unit, args := leBytes 1 path ++ leBytes 1 (bit01 poisoned) ++ leBytes 1 room }

end Sys2Proof.Machine
end

