-- ==== Sys2Proof/Machine/Rs.lean ====
section
/-!
DEFINITION. Sys2Proof/Machine/Rs.lean: the Store code RS(34,32) (R369 to R371). Bytes stand as numbers below 256.
-/

namespace Sys2Proof.Machine

/-- A byte of GF(2^8) times α = 2, modulo 0x11D (R369). -/
def gfTwo (a : Nat) : Nat := if 128 ≤ a then (2 * a) ^^^ 0x11D else 2 * a

/-- A byte times a power of α. -/
def gfPow (a : Nat) : Nat → Nat
  | 0 => a
  | n + 1 => gfPow (gfTwo a) n

/-- The polynomial a unit's bytes are, at α (R370): byte i is the coefficient of x^(33 - i). -/
def syndrome1 (bs : List Nat) : Nat := bs.foldl (fun a b => gfTwo a ^^^ b) 0

/-- The exclusive or of a unit's bytes (R370). -/
def syndrome0 (bs : List Nat) : Nat := bs.foldl (· ^^^ ·) 0

/-- The check bytes P0 and P1 of 32 bytes (R369): the remainder by x² + 3x + 2, from the two syndromes of the data. -/
def checkBytes (data : List Nat) : Nat × Nat :=
  let r := (data ++ [0, 0]).foldl (fun (r : Nat × Nat) b =>
    let h := r.1
    (r.2 ^^^ (gfTwo h ^^^ h), b ^^^ gfTwo h)) (0, 0)
  (r.1, r.2)

/-- What the decoder makes of two syndromes (R370): clean; a byte at a degree out by a value; uncorrectable. -/
inductive RsSays where
  | clean
  | fix (degree value : Nat)
  | bad
  deriving DecidableEq, Repr

/-- The decoder of R370. -/
def rsDecode (s0 s1 : Nat) : RsSays :=
  if s0 = 0 ∧ s1 = 0 then .clean
  else if s0 = 0 ∨ s1 = 0 then .bad
  else match (upTo 34).find? fun j => gfPow s0 j = s1 with | some j => .fix j s0 | none => .bad

/-- Two check bytes as a list. -/
def checkPair (p : Nat × Nat) : List Byte := [BitVec.ofNat 8 p.1, BitVec.ofNat 8 p.2]

/-- The check bytes of `n` sectors of 32 bytes, or of a page group's quarters (R200). -/
def sectorChecks : Nat → List Byte → List Byte
  | 0, _ => []
  | n + 1, bs => checkPair (checkBytes ((bs.take 32).map (·.toNat))) ++ sectorChecks n (bs.drop 32)

/-- The check bytes that mark a unit uncorrectable (R371): those with which S0 is 0x01 and S1 is α^200. They are the data's own check
bytes plus the one pair with these syndromes, since the code is linear. -/
def markedChecks (data : List Nat) : List Byte :=
  let p := checkBytes data
  let h := gfPow (gfPow 1 200 ^^^ 1) 230
  checkPair (p.1 ^^^ h, p.2 ^^^ h ^^^ 1)

/-- An error pattern over a unit's 34 bytes. -/
def errPattern (e : List (Fin 34 × Byte)) : List Nat :=
  e.foldl (fun l x => l.set x.1 (l.getD x.1 0 ^^^ x.2.toNat)) (List.replicate 34 0)

/-- What comes of a unit read with errors: right as read, corrected rightly, wrong though it passes the code, or
uncorrectable. -/
inductive UnitSays where
  | right | corrected | wrong | bad
  deriving DecidableEq, Repr

/-- A stored unit of 34 bytes read with errors and decoded (R370). -/
def unitSays (unit : List Nat) (e : List (Fin 34 × Byte)) : UnitSays :=
  let p := errPattern e
  let c := List.zipWith (· ^^^ ·) (fit34 unit) p
  match rsDecode (syndrome0 c) (syndrome1 c) with
  | .clean => if p.all (· = 0) then .right else .wrong
  | .bad => .bad
  | .fix j v => if (p.set (33 - j) (p.getD (33 - j) 0 ^^^ v)).all (· = 0) then .corrected else .wrong
where
  /-- Thirty-four bytes, the missing ones zero. -/
  fit34 (l : List Nat) : List Nat := (l ++ List.replicate (34 - l.length) 0).take 34

end Sys2Proof.Machine
end

