-- ==== Sys2Proof/Machine/Media.lean ====
section
/-!
DEFINITION. Sys2Proof/Machine/Media.lean: bricks and page groups between their coded form and a medium: encryption under the room's
key (R195 to R198) and check bytes (R200, R369), and the units a Store bay holds (R313, R316).
-/

namespace Sys2Proof.Machine

/- ## Encryption (R195 to R198) -/

/-- A room's key pair (R195, R411): that of its slot of the Keystone. DESIGN CHOICE: what S09 writes before the slots are loaded at S13, a
torn page's replacement, goes under the pair of the stored copy; zero stands where there is neither, and no such room runs (R198). -/
def State.roomKey (s : State) (room : Nat) : BitVec 512 :=
  match Tbl.find s.sec.keys room with
  | some key => key
  | none => BitVec.ofNat 512 (ofLe (((Tbl.find s.sec.stored room).bind (keyUnwrap s.sec.sealing)).getD []))

/-- The tweak value of a unit of a page: brick 0 to 15, or 16 for the page group (R196). -/
def unitTweak (k unit gen version : Nat) : Nat := tweakOf (pageRoom k) (pageNo k) unit gen version

/-- A coded brick encrypted and given its check bytes (R15, R195, R200), under its page's generation and its own VERSION. -/
def State.sealBrick (s : State) (k b gen : Nat) (st : Stored) : Laid :=
  let n := recSectors st.record
  let c := xtsSeal (s.roomKey (pageRoom k)) (unitTweak k b gen (recVersion st.record)) (fit (32 * n) st.body)
  ⟨st.record, c, sectorChecks n c, tablesNamed st, baseNamed st⟩

/-- A brick of a medium decrypted (R195, R196). -/
def State.openBrick (s : State) (k b gen : Nat) (l : Laid) : Stored :=
  ⟨l.record, xtsOpen (s.roomKey (pageRoom k)) (unitTweak k b gen (recVersion l.record)) l.sectors⟩

/-- The page group of a page's records encrypted (R168, R195). -/
def State.sealGroup (s : State) (k gen seq : Nat) (bs : List Laid) : List Byte :=
  xtsSeal (s.roomKey (pageRoom k)) (unitTweak k 16 gen seq) (bs.flatMap fun l => leBytes 8 l.record)

/-- The sixteen records of a page group (R168); an unwritten group holds unwritten records. -/
def State.openGroup (s : State) (k gen seq : Nat) (group : List Byte) : List Nat :=
  let plain := xtsOpen (s.roomKey (pageRoom k)) (unitTweak k 16 gen seq) group
  (upTo 16).map fun b => ofLe ((plain.drop (8 * b)).take 8)

/-- The bricks of an image as they come into the Store (R168, R200): with the records of its page group, and with check bytes. -/
def State.landedBricks (s : State) (i : Image) : List Laid :=
  List.zipWith (fun r (l : Laid) => { l with record := r, check := sectorChecks (l.sectors.length / 32) l.sectors })
    (s.openGroup i.page i.gen i.groupSeq i.group) i.bricks

/-- A page's group rewritten in the Store from its records, under its generation and GROUP_SEQ (R197, R200). -/
def State.layGroup (s : State) (k : Nat) : State :=
  let p := s.page k
  let g := s.sealGroup k p.gen p.groupSeq p.store
  s.setPage k { p with group := g, groupCheck := sectorChecks 4 g }

/-- The first generation never taken up for a page number, the versions' own copies of the page counted (R165, R245). -/
def State.freshGen (s : State) (k : Nat) : Nat :=
  s.pages.foldl (fun g e => if e.1 % 2 ^ 40 = k % 2 ^ 40 then max g e.2.gens else g) 0

/-- The page generation advances (R165, R197): every brick of the Store copy is encrypted again under the new full version, keeping its
VERSION, mode and sectors; GROUP_SEQ returns to 0, PAGE_GENERATION_ADVANCE is written. -/
def State.advanceGen (s : State) (k : Nat) : State :=
  let p := s.page k
  let g := max (p.gen + 1) (s.freshGen k)
  let again (b : Nat) : Laid := s.sealBrick k b g (s.openBrick k b p.gen (p.brick b))
  let bs := if p.bricks.isEmpty then [] else (upTo 16).map again
  ((s.setPage k { p with gen := g, gens := g + 1, behind := false, groupSeq := 0, drawn := [], bricks := bs }).layGroup k).raise
    { code := 0x5003, sev := 0, unit := srcRoom (pageRoom k), args := leBytes 5 (pageNo k) ++ leBytes 4 g }

/-- A page whose bricks or group stand behind forms already written under their generation takes a fresh one (R165). -/
def State.freshen (s : State) (k : Nat) : State := if (s.page k).behind then s.advanceGen k else s

/-- The VERSION of a brick's next stored form, and the state after a wrap of it (R165). One counter serves live writes and
shelves (R215). -/
def State.nextVersion (s : State) (bk : Nat) : Nat × State :=
  let s := s.freshen (bk / 16)
  let p := s.page (bk / 16)
  let v := max (recVersion (p.brick (bk % 16)).record) (Tbl.get p.drawn (bk % 16) 0)
  if v = 0xFFFF then (0, s.advanceGen (bk / 16)) else (v + 1, s)

/-- The page group is rewritten (R197): GROUP_SEQ advances, past 0xFFFF into a new generation. -/
def State.groupWritten (s : State) (k : Nat) : State :=
  let p := s.page k
  if p.behind ∨ p.groupSeq = 0xFFFF then s.advanceGen k
  else (s.updPage k fun p => { p with groupSeq := p.groupSeq + 1 }).layGroup k

/- ## The units of a Store bay (R313, R316) -/

/-- Sector `u` of a brick as a unit of 34 bytes (R369). -/
def Laid.unit (l : Laid) (u : Nat) : List Nat :=
  natsOf ((l.sectors.drop (32 * u)).take 32 ++ (l.check.drop (2 * u)).take 2)

/-- Quarter `q` of a page group as a unit of 34 bytes (R200). -/
def Page.groupUnit (p : Page) (q : Nat) : List Nat :=
  natsOf ((p.group.drop (32 * q)).take 32 ++ (p.groupCheck.drop (2 * q)).take 2)

/-- The brick of a list of sector counts that a sector lies in, and which of its sectors it is. -/
def sectorBrick : List Nat → Nat → Nat → Option (Nat × Nat)
  | [], _, _ => none
  | n :: ns, b, i => if i < n then some (b, i) else sectorBrick ns (b + 1) (i - n)

/-- The brick and sector that a unit of a region bay holds; none where the bay is free, past the page's bricks, or holds a footing
brick. -/
def State.unitBrick (s : State) (region bay unit : Nat) : Option (Nat × Nat) :=
  (s.store.frames.find? fun e => decide (e.1 / framesPerRegion = region) && decide (e.2.start ≤ bay)
      && decide (bay < e.2.start + e.2.bays)).bind fun e =>
    (sectorBrick ((s.page e.2.page).store.map fun l => recSectors l.record) 0 (8 * (bay - e.2.start) + unit)).map fun x =>
      (brickKey e.2.page x.1, x.2)

/-- The unit a bay holds; a unit that no brick uses stands as zeros, which are a code word (R369). -/
def State.bayUnit (s : State) (region bay unit : Nat) : List Nat :=
  match s.unitBrick region bay unit with
  | some (bk, u) => ((s.page (bk / 16)).brick (bk % 16)).unit u
  | none => List.replicate 34 0

/-- A sector written with the check bytes that always decode uncorrectable (R329, R371). -/
def State.markUnit (s : State) (region bay unit : Nat) : State :=
  match s.unitBrick region bay unit with
  | none => s
  | some (bk, u) =>
    s.updPage (bk / 16) fun p =>
      let l := p.brick (bk % 16)
      let m := markedChecks ((l.unit u).take 32)
      { p with bricks := p.store.set (bk % 16) { l with check := l.check.take (2 * u) ++ m ++ l.check.drop (2 * u + 2) } }

/- ## The ends of copies (R329, R330) -/

/-- The copy of a migration reaches the top (R329): the sectors that could not be corrected, but for those of bays written meanwhile, stand marked, the rank map takes the
spare and the failing rank is retired. -/
def execRankMigrationEnd (region : Fin 4) (marked : List BayUnit) (s : State) : Host.Outcome State Fault Refusal :=
  match Tbl.find s.store.migrations region with
  | none => .next s
  | some m =>
    match m.spare with
    | none => .next s
    | some p =>
      let units := marked.filter fun u => decide (u.bay.toNat % 62 = m.slot) && !m.written.contains (u.bay.toNat / 62)
      if !s.copyDone region m then .next s
      else
      let s := units.foldl (fun s u => s.markUnit region u.bay.toNat u.unit) s
      let st := { s.store with
        migrations := Tbl.del s.store.migrations region
        map := Tbl.put s.store.map (64 * region.val + m.slot) p
        ranks := Tbl.put s.store.ranks (64 * region.val + m.source) .retired }
      .next ((s.setStore st).raise
        { code := 0x6002, sev := 1, region := region, unit := rankUnit m.source,
          args := leBytes 1 (8 * region.val + m.source / 8) ++ leBytes 1 (m.source % 8)
            ++ leBytes 4 baysPerRank ++ leBytes 4 units.length })

/-- The copy of every frame off a dead slot ends (R330), with sectors that could not be corrected marked (R329), and the migration count falls. -/
def execSlotDeadCopyEnd (copy : SlotCopy) (s : State) : Host.Outcome State Fault Refusal :=
  let region := copy.region
  match Tbl.find s.store.migrations region with
  | none => .next s
  | some m =>
    if m.spare.isSome ∨ !s.copyDone region m then .next s
    else
      let units := copy.marked.filter fun u => u.bay.toNat % 62 = m.slot
      let s := units.foldl (fun s u => s.markUnit region u.bay.toNat u.unit) s
      let (all, s) := s.copyFrames (fun b => decide (b % 62 = m.slot)) (s.framesIn region)
      .next (if all then (s.setStore { s.store with migrations := Tbl.del s.store.migrations region }).setRank region m.source .retired else s)

end Sys2Proof.Machine
end

