-- ==== Sys2Proof/Machine/Steps.lean ====
section
/-!
DEFINITION. Sys2Proof/Machine/Steps.lean: the overshoot of a room (R141, R147); what a stair's declaration says (R151, R220), what a stair
protects (R154), and the pages that removal would choose (R141, R142).
-/

namespace Sys2Proof.Machine

/-- The room above its effective Store quota, and the overshoot limit (R141, R157): 64 MiB at least. -/
def State.overshootLimit (s : State) (room : Nat) : Nat :=
  max 67108864 ((s.room room).effStore * s.val .storeOvershoot 0 0 / 10000)

/-- A room is more than STORE_OVERSHOOT above its quota, and removal can restore it (R141, R147). -/
def State.overshoots (s : State) (room : Nat) : Bool :=
  decide ((s.room room).effStore + s.overshootLimit room < s.usedStore room) && !s.tier.stuck.contains room

/-- The shelf and the version that an unshelve stair serves (R220); stair 256 + n serves shelf n. -/
def State.stairShelf (s : State) (t : Nat) : Option (Shelf × ShelfJob × ShelfVer) :=
  (Tbl.find s.shelves (t - 256)).bind fun f => f.job.bind fun j =>
    (f.vers.find? fun v => v.version = j.version).map fun v => (f, j, v)

/-- The group of 64 pages of a page (R218). -/
def groupOf (page : Nat) : Nat := page / 64

/-- The order of groups an unshelve stair follows (R220): the recorded ones, then every other group of the version. -/
def ShelfVer.groups (v : ShelfVer) : List Nat :=
  let all := (v.pages.map fun p => groupOf p.page).foldl (fun a g => if a.contains g then a else a ++ [g]) []
  (v.order.filter all.contains) ++ all.filter fun g => !v.order.contains g

/-- A list cut into pieces. -/
def chunks {α : Type} : Nat → Nat → List α → List (List α)
  | 0, _, _ => []
  | fuel + 1, n, l => if l.isEmpty then [] else l.take n :: chunks fuel n (l.drop n)

/-- The room of a stair. -/
def State.stairRoomOf (s : State) (t : Nat) : Nat :=
  if t < 256 then s.val .stairRoom t 0 else ((Tbl.find s.shelves (t - 256)).map (·.room)).getD 255

/-- The steps of a stair, each a list of ranges of its room (R151, R220). -/
def State.stairSteps (s : State) (t : Nat) : List (List (Nat × Nat)) :=
  if t < 256 then
    (upTo (s.val .stairStepCount t 0)).map fun n =>
      let b := s.blob .stairStep t n []
      [(ofLe (b.take 8), ofLe ((b.drop 8).take 8))]
  else
    match s.stairShelf t with
    | none => []
    | some (_, _, v) =>
      let g := v.groups
      (chunks 255 (max 1 (ceilDiv g.length 255)) g).map fun l => l.map fun x => (x * 262144, 262144)

/-- The deadline of a stair's step, as written; none where zero. -/
def State.stairDeadline (s : State) (t m : Nat) : Nat := ofLe ((s.blob .stairStep t m []).drop 16)

/-- A deadline in the module's own count: software's stamps are of the epoch in force (R57). -/
def State.stairDeadlineAt (s : State) (t m : Nat) : Nat := s.ofShown (s.stairDeadline t m)

/-- Deadline mode (R151). -/
def State.stairTimed (s : State) (t : Nat) : Bool := decide (t < 256) && decide (s.val .stairMode t 0 = 1)
/-- WRAP of a stair. -/
def State.stairWraps (s : State) (t : Nat) : Bool := decide (t < 256) && decide (s.val .stairWrap t 0 ≠ 0)
/-- LOOKAHEAD_MAX of a stair. -/
def State.stairMax (s : State) (t : Nat) : Nat := if t < 256 then s.val .stairLookaheadMax t 0 else 8
/-- The class of a stair. -/
def State.stairClassOf (s : State) (t : Nat) : Nat :=
  if t < 256 then s.val .stairClass t 0 else ((Tbl.find s.shelves (t - 256)).map (·.cls)).getD 7
/-- The stair brings pages to the Loft as well. -/
def State.stairLoft (s : State) (t : Nat) : Bool :=
  if t < 256 then decide (s.val .stairTarget t 0 = 1) else bitOf (((Tbl.find s.shelves (t - 256)).map (·.flags)).getD 0) 1

/-- A stair that runs. -/
def State.stairRuns (s : State) (t : Nat) : Bool :=
  if h : t < 256 then decide ((s.fn (.stair ⟨t, h⟩)).state = Fn.on) else (Tbl.find s.stairs t).isSome

/-- A stair is Off: its look-ahead is the declared one (R155, R158). -/
def State.stairOff (s : State) (t : Nat) : Bool :=
  if h : t < 256 then decide ((s.fn (.stair ⟨t, h⟩)).state = Fn.off) else (Tbl.find s.stairs t).isNone

/-- A stair's run. -/
def State.stair (s : State) (t : Nat) : Stair := Tbl.get s.stairs t Stair.init
/-- The state with a stair's run replaced. -/
def State.setStair (s : State) (t : Nat) (x : Stair) : State := s.setStairs (Tbl.put s.stairs t x)

/-- A page lies in a step. -/
def inStep (ranges : List (Nat × Nat)) (page : Nat) : Bool :=
  ranges.any fun r => decide (r.1 ≤ 4096 * page) && decide (4096 * page < r.1 + r.2)

/-- The pages of a step that are not NEW, in address order. -/
def State.stepPages (s : State) (t m : Nat) : List Nat :=
  let r := (s.stairSteps t).getD m []
  (s.pages.filter fun e => decide (e.1 < 2 ^ 40) && decide (pageRoom e.1 = s.stairRoomOf t) && e.2.allocated
    && inStep r (pageNo e.1)).map (·.1)

/-- A page is protected by a stair (R154). -/
def State.stairHolds (s : State) (k : Nat) : Bool :=
  decide (k < 2 ^ 40) && s.stairs.any fun e => decide (s.stairRoomOf e.1 = pageRoom k)
    && e.2.protectedSteps.any fun m => inStep ((s.stairSteps e.1).getD m []) (pageNo k)

/-- The bytes of a room that stairs protect (R154). -/
def State.protectedBytes (s : State) (room : Nat) : Nat :=
  4096 * Tbl.count s.pages fun k p => decide (pageRoom k = room) && p.allocated && s.stairHolds k

/-- A page placement may take out of the Store (R134, R143, R154). -/
def State.removable (s : State) (k : Nat) (p : Page) : Bool :=
  p.inStore && !s.heldInStore k p && !s.stairHolds k && !p.leaving
    && !(decide (attrPlacement (s.pageAttr k) = 2) && !p.unpinned)
    && !(decide (p.mode = PageMode.volatile) && s.cellarFull (pageRoom k))

/-- The next 16 eligible pages of a room from its rotating scan position, those named left out, and the one taken (R142): the lowest effective
heat, the oldest LAST_TOUCH on a tie. -/
def State.pickRemoval (s : State) (room : Nat) (taken : List Nat) : Option (Nat × Page) :=
  let l := s.pages.filter fun e => decide (pageRoom e.1 = room) && s.removable e.1 e.2 && !taken.contains e.1
  let at_ := (taken.getLast?.map (· + 1)).getD (Tbl.get s.tier.scan room 0)
  let turn := (l.filter fun e => at_ ≤ e.1) ++ l.filter fun e => e.1 < at_
  (turn.take 16).foldl (fun (a : Option (Nat × Page)) e => match a with
    | none => some e
    | some b =>
      let x := s.heatOf e.2
      let y := s.heatOf b.2
      if x < y ∨ (x = y ∧ e.2.lastTouch < b.2.lastTouch) then some e else a) none

/-- The next pages that the scan would choose (R141), up to `n`. -/
def State.picks (s : State) (room : Nat) : List Nat → Nat → List (Nat × Page)
  | _, 0 => []
  | taken, n + 1 => match s.pickRemoval room taken with | some e => e :: s.picks room (taken ++ [e.1]) n | none => []

/-- Pages of a room on their way out (R141). -/
def State.leavingBytes (s : State) (room : Nat) : Nat := 4096 * s.countPages room fun p => p.inStore && p.leaving

end Sys2Proof.Machine
end

