-- ==== Sys2Proof/Machine/Cellar.lean ====
section
/-!
DEFINITION. Sys2Proof/Machine/Cellar.lean: the Cellar's translation layer (chapter Cellar Flash Tier): slots, rows,
superblocks, fetches, relocation, rebuild, training.
-/

namespace Sys2Proof.Machine

/- ## Slots and images (R342, R343) -/

/-- Slots of the Cellar map (R342). -/
def slotCount : Nat := 12800000000

/-- Slots below which the quotas and the reserve stay (R342). -/
def slotBound : Nat := 12695312500

/-- Free slots (R362). -/
def State.slotsFree (s : State) : Nat := slotCount - s.cellar.images.length

/-- Slots below SLOT_LOW (R343). -/
def State.slotsLow (s : State) : Bool := decide (s.slotsFree < s.val .slotLow 0 0)

/-- The image a slot holds. -/
def State.image (s : State) (slot : Nat) : Option Image := Tbl.find s.cellar.images slot

/-- The live page whose slot this is, if any. -/
def State.slotPage (s : State) (slot : Nat) : Option Nat := (s.pages.find? fun e => e.2.slot = some slot).map (·.1)

/-- A map page is changed (R346): it joins the end of the list unless it waits there already. -/
def Cellar.mapChange (c : Cellar) (slot : Nat) : Cellar :=
  let pg := slot * 5 / 4096
  if c.map.any (fun e => e.1 = pg) then c else { c with map := c.map ++ [(pg, c.rowSeq)] }

/-- An image stored in a slot. -/
def State.putImage (s : State) (slot : Nat) (i : Image) : State :=
  s.setCellar ({ s.cellar with images := Tbl.put s.cellar.images slot i }.mapChange slot)

/-- A slot freed when nothing refers to its image (R342). -/
def State.releaseSlot (s : State) (slot : Nat) : State :=
  match s.image slot with
  | none => s
  | some i =>
    if i.refs ≠ 0 ∨ (s.slotPage slot).isSome then s
    else s.setCellar ({ s.cellar with images := Tbl.del s.cellar.images slot }.mapChange slot)

/-- A reference of a manifest or version taken on an image, or given up. -/
def State.refImage (s : State) (slot : Nat) : State :=
  match s.image slot with
  | none => s
  | some i => s.setCellar { s.cellar with images := Tbl.put s.cellar.images slot { i with refs := i.refs + 1 } }

/-- A reference given up; the slot is freed with the last. -/
def State.unrefImage (s : State) (slot : Nat) : State :=
  match s.image slot with
  | none => s
  | some i =>
    (s.setCellar { s.cellar with images := Tbl.put s.cellar.images slot { i with refs := i.refs - 1 } }).releaseSlot slot

/-- The first number from `i` on, within `fuel`, that a table does not list. -/
def firstUnlisted {α : Type} (t : Tbl α) : Nat → Nat → Nat
  | 0, i => i
  | n + 1, i => if (Tbl.find t i).isSome then firstUnlisted t n (i + 1) else i

/-- A slot for a new image: the lowest free one (DESIGN CHOICE: which slot is taken is not stated). -/
def State.newSlot (s : State) : Nat := firstUnlisted s.cellar.images s.cellar.images.length 0

/- ## Superblocks and rows (R336, R339, R341, R349, R352) -/

/-- Superblocks of a set (R336). -/
def sbPerSet : Nat := 8 * 2543
/-- Zone superblocks of a set (R349). -/
def zonePerSet : Nat := 894
/-- Bytes of a unit of a TLC row, or of a pSLC row (R336). -/
def unitBytes (zone : Bool) : Nat := if zone then 65536 else 196608
/-- Data bytes of a TLC superblock of 16 dies (R336). -/
def tlcSbBytes : Nat := 1509949440
/-- Rows of a superblock: wordlines of a block (R335). -/
def rowsPerSb : Nat := 512

/-- The key of a superblock. -/
def sbKey (set way block : Nat) : Nat := 65536 * set + 2543 * way + block
/-- The set of a superblock's key. -/
def sbSet (k : Nat) : Nat := k / 65536
/-- A zone superblock: the first 894 of each set once the zone is set (DESIGN CHOICE: R349 does not say which). -/
def State.isZone (s : State) (k : Nat) : Bool := s.cellar.zoneSet && decide (k % 65536 < zonePerSet)

/-- A superblock. -/
def State.super (s : State) (k : Nat) : Superblock := Tbl.get s.cellar.supers k Superblock.init
/-- The state with a superblock replaced. -/
def State.setSuper (s : State) (k : Nat) (b : Superblock) : State :=
  s.setCellar { s.cellar with supers := Tbl.put s.cellar.supers k b }

/-- ERASED TLC superblocks of a set (R351, R362). -/
def State.erasedTlc (s : State) (set : Nat) : Nat :=
  sbPerSet - (if s.cellar.zoneSet then zonePerSet else 0)
    - Tbl.count s.cellar.supers fun k b => decide (sbSet k = set) && !s.isZone k && decide (b.mode ≠ .erased)

/-- A Cellar channel. -/
def State.cchan (s : State) (c : Nat) : CellarChan := Tbl.get s.cellar.chans c CellarChan.init
/-- The state with a Cellar channel replaced. -/
def State.setCchan (s : State) (c : Nat) (v : CellarChan) : State :=
  s.setCellar { s.cellar with chans := Tbl.put s.cellar.chans c v }

/-- The positions of a superblock in service, a bit for each (R336): those whose die is in service (R358) and which it does not run without
(R355, R356). -/
def State.sbDies (s : State) (k : Nat) : Nat :=
  (upTo 16).foldl (fun m p => setBit m p (bitOf (s.cchan (2 * p + sbSet k)).dies (k % 65536 / 2543) && !bitOf (Tbl.get s.cellar.left k 0) p)) 0

/-- The positions of a mask, in order. -/
def positionsOf (dies : Nat) : List Nat := (upTo 16).filter fun p => bitOf dies p

/-- Data bytes of a row, its header among them, with a unit on each of the positions: all but the parity unit's (R336, R339, R356). -/
def rowData (dies : Nat) (zone : Bool) : Nat := ((positionsOf dies).length - 1) * unitBytes zone

/-- ZONE_READY (R349): the image capacity of the ERASED zone superblocks. -/
def State.zoneReady (s : State) : Nat :=
  if !s.cellar.zoneSet then 0
  else
    let full (set : Nat) : Nat := rowsPerSb * rowData ((upTo 16).foldl (fun m p => setBit m p (bitOf (s.cchan (2 * p + set)).dies 0)) 0) true
    let less (k : Nat) : Nat := full (sbSet k) - rowsPerSb * rowData (s.sbDies k) true
    zonePerSet * (full 0 + full 1)
      - Tbl.total s.cellar.supers (fun k b => if s.isZone k && decide (b.mode ≠ .erased) then full (sbSet k) else 0)
      - Tbl.total s.cellar.left fun k _ => if s.isZone k ∧ (s.super k).mode = .erased then less k else 0

/-- Bytes of an image in a row: tag and page image, aligned to 64 B (R339, R345). -/
def imageBytes (bs : List Laid) : Nat := (16 + storedSize bs + 63) / 64 * 64

/-- The image of a page's stored form: its sectors go without check bytes (R168, R200). -/
def imageOf (k : Nat) (f : PageForm) (loc : Option Loc) (refs : Nat) : Image :=
  ⟨k, f.gen, f.groupSeq, f.group, f.bricks.map Laid.bare, loc, refs, false⟩

/-- The valid image bytes of a superblock (R345, R351). -/
def State.validBytes (s : State) (k : Nat) : Nat :=
  Tbl.total s.cellar.images fun _ i =>
    match i.loc with | some l => if sbKey l.set_ l.way l.block = k then imageBytes i.bricks else 0 | none => 0

/-- The slots whose images lie in a superblock. -/
def State.slotsIn (s : State) (k : Nat) : List Nat :=
  (s.cellar.images.filter fun e => match e.2.loc with
    | some l => decide (sbKey l.set_ l.way l.block = k) | none => false).map (·.1)

/-- The superblock to open in a set: among those ERASED, the lowest erase count, then the lowest number (R352). -/
def State.pickErased (s : State) (set : Nat) : Option Nat :=
  let base := 65536 * set + (if s.cellar.zoneSet then zonePerSet else 0)
  let fresh := firstUnlisted s.cellar.supers s.cellar.supers.length base
  if fresh < 65536 * set + sbPerSet then some fresh
  else
    let l := s.cellar.supers.filter fun e => decide (sbSet e.1 = set) && !s.isZone e.1 && decide (e.2.mode = .erased)
    (l.foldl (fun (a : Option (Nat × Superblock)) e => match a with
      | none => some e
      | some b => if e.2.erases < b.2.erases then some e else a) none).map (·.1)

/-- A set is full (R360): fewer than 8 ERASED, and no SEALED superblock with less than 10 % valid bytes. -/
def State.setFull (s : State) (set : Nat) : Bool :=
  decide (s.erasedTlc set < 8) && !(s.cellar.supers.any fun e => decide (sbSet e.1 = set) && !s.isZone e.1
    && decide (e.2.mode = .sealed) && decide (10 * s.validBytes e.1 < tlcSbBytes))

/-- The key of a set's row buffer: 2 times the set, plus 1 for relocation. -/
def rowKey (set : Nat) (reloc : Bool) : Nat := 2 * set + bit01 reloc

/-- A superblock opened for a row buffer, and its first row (R339, R341). -/
def State.openRow (s : State) (key : Nat) : Option State :=
  match Tbl.find s.cellar.open_ key with
  | some sb =>
    let r := (s.super sb).rows + (s.cellar.programs.filter fun p => p.1 = key).length
    if r < rowsPerSb then
      some (s.setCellar { s.cellar with rows := Tbl.put s.cellar.rows key ⟨sb, r, [], 64, s.now, s.sbDies sb⟩ })
    else pick s
  | none => pick s
where
  /-- A new superblock opened. -/
  pick (s : State) : Option State :=
    match s.pickErased (key / 2) with
    | none => none
    | some sb =>
      let s := s.setSuper sb { s.super sb with mode := .opened, rows := 0 }
      some (s.setCellar { s.cellar with open_ := Tbl.put s.cellar.open_ key sb,
                                        rows := Tbl.put s.cellar.rows key ⟨sb, 0, [], 64, s.now, s.sbDies sb⟩ })

/-- A row buffer goes to programming (R339). -/
def State.closeRow (s : State) (key : Nat) : State :=
  match Tbl.find s.cellar.rows key with
  | none => s
  | some r =>
    if r.items.isEmpty then s
    else s.setCellar { s.cellar with rows := Tbl.del s.cellar.rows key, programs := s.cellar.programs ++ [(key, r)] }

/-- An image placed in a set's row (R339): images never cross a row boundary, so a row without room is programmed and
another begun. -/
def State.placeItem (s : State) (key slot bytes : Nat) (page : Option Nat) : Option State :=
  let put (s : State) (r : RowBuf) : State :=
    let src := if page.isSome then none else (s.image slot).bind (·.loc)
    let r' := { r with items := r.items ++ [⟨slot, r.used, page, src⟩], used := r.used + bytes,
                       first := if r.items.isEmpty then s.now else r.first }
    s.setCellar { s.cellar with rows := Tbl.put s.cellar.rows key r' }
  let fresh (s : State) : Option State :=
    (s.openRow key).map fun s => match Tbl.find s.cellar.rows key with | some r => put s r | none => s
  match Tbl.find s.cellar.rows key with
  | none => fresh s
  | some r => if r.used + bytes ≤ rowData r.dies false then some (put s r) else fresh (s.closeRow key)

/- ## Write-back and demotion (R133, R145, R340) -/

/-- A page's write-back or demotion given up (R133): what its rows hold of it counts for nothing, and the partial copy is freed. The place in
the row stays taken; it bears the slot number past the last. -/
def State.cancelItems (s : State) (k : Nat) : State :=
  let mine (i : RowItem) : Bool := decide (i.page = some k)
  let void (r : RowBuf) : RowBuf := { r with items := r.items.map fun i => if mine i then { i with slot := slotCount, page := none } else i }
  let c := s.cellar
  let slots := ((c.rows.map (·.2)) ++ c.programs.map (·.2)).flatMap fun r => (r.items.filter mine).map (·.slot)
  let s := s.setCellar { c with rows := Tbl.each c.rows fun _ r => void r, programs := c.programs.map fun e => (e.1, void e.2) }
  slots.foldl (fun s sl => match s.image sl with | some i => if i.loc.isNone then s.releaseSlot sl else s | none => s) s

/-- A page's write-back in flight goes on as that of another page, which has taken its image and state (R245). -/
def State.moveItems (s : State) (k k' : Nat) : State :=
  let move (r : RowBuf) : RowBuf := { r with items := r.items.map fun i => if i.page = some k then { i with page := some k' } else i }
  let c := s.cellar
  s.setCellar { c with rows := Tbl.each c.rows fun _ r => move r, programs := c.programs.map fun e => (e.1, move e.2) }

/-- The slot a page's new image takes: its own when nothing else refers to that image, else a new one (R342, R403). -/
def State.slotFor (s : State) (p : Page) : Nat :=
  match p.slot with
  | some sl => match s.image sl with
    | some i => if i.refs = 0 then sl else s.newSlot
    | none => sl
  | none => s.newSlot

/-- One queued page begins its write-back or demotion: its bricks are copied as they stand and join a row (R134, R339). A
page with bricks in the landing has its slots queued first (R194). Where its set is full (R360), or it needs a new slot and none is free (R343),
it waits. DESIGN CHOICE: a page goes to the set its slot's lowest bit
names, or to the other when that one is full. -/
def State.beginWriteBack (s : State) (k : Nat) : State :=
  let p := s.page k
  if s.inLanding k then
    s.queueSlots fun b _ => decide (b / 16 = k)
  else
    let slot := s.slotFor p
    let set := if s.setFull (slot % 2) then 1 - slot % 2 else slot % 2
    if s.setFull set ∨ (p.mode = .volatile ∧ s.cellarFull (pageRoom k)) ∨ ((s.image slot).isNone ∧ s.slotsFree = 0) then s
    else
      match s.placeItem (rowKey set false) slot (imageBytes p.store) (some k) with
      | none => s
      | some s =>
        let s := match s.image slot with
          | some _ => s
          | none => s.putImage slot (imageOf k p.form none 0)
        let tr := if p.mode = .dirty then Transit.writing else Transit.demoting
        (s.setPage k { p with transit := tr, snapshot := some p.form, wrote := false, wbStep := 0 }).settleOverdraft (pageRoom k)

/-- The Cellar channels in service. -/
def State.channelsIn (s : State) : Nat :=
  ((upTo 32).filter fun c => (Tbl.get s.cellar.chans c CellarChan.init).mode = .serving
    || (Tbl.get s.cellar.chans c CellarChan.init).mode = .rebuilding).length

/-- A page may not leave the Store as its program ends (R134): the Loft, the landing, a pin or a stair holds it. -/
def State.staysInStore (s : State) (k : Nat) : Bool := s.heldInStore k (s.page k) || s.stairHolds k

/-- A page whose image is now programmed (R133, R134, R340): a DIRTY page becomes CLEAN, or stays DIRTY and queues again after a
later write; a VOLATILE one becomes DEMOTED. One that placement has put on its way out, or a Cellar-only window holds, leaves
the Store, unless something has come to hold it there; a VOLATILE page so held stays, and its copy is freed (DEDUCED). -/
def State.pageProgrammed (s : State) (k slot : Nat) (loc : Loc) : State :=
  let p := s.page k
  let live := (p.transit = .writing ∧ p.mode = .dirty) ∨ (p.transit = .demoting ∧ p.mode = .volatile)
  let img : Image := imageOf k (p.snapshot.getD p.form) (some loc) (((s.image slot).map (·.refs)).getD 0)
  if ¬live then
    match s.image slot with
    | none => s
    | some i =>
      if i.loc.isSome then s
      else if i.refs = 0 then s.releaseSlot slot
      else s.putImage slot { i with loc := some loc }
  else
    let old := p.slot
    let s := (s.putImage slot img).updPage k fun p => { p with slot := some slot, transit := .none, snapshot := none }
    let s := match old with | some o => if o = slot then s else s.releaseSlot o | none => s
    let stays := s.staysInStore k
    if p.mode = .volatile then
      if stays then (s.updPage k fun p => { p with leaving := false, slot := none }).releaseSlot slot else s.leaveStore k .demoted
    else if p.wrote then
      (s.updPage k fun p => { p with wrote := false }).queueWriteBack k 4
    else
      let s := s.updPage k fun p => { p with mode := .clean, dirtySince := 0, wbStep := 0, leaving := false }
      if !stays ∧ (p.leaving ∨ attrPlacement (s.pageAttr k) = 3) then s.leaveStore k .cellar else s

/-- Where an item of a row lies. -/
def rowLoc (r : RowBuf) (off : Nat) : Loc :=
  ⟨sbSet r.sb, r.sb % 65536 / 2543, r.sb % 65536 % 2543, r.row, off, r.dies⟩

/-- The items of a programmed row take effect one by one (R340, R342): an image that moves is repointed if it is still where it was taken from (R345,
R351). -/
def State.rowItems (s : State) (r : RowBuf) : List RowItem → State
  | [] => s
  | it :: its =>
    let s := match it.page with
      | some k => s.pageProgrammed k it.slot (rowLoc r it.off)
      | none =>
        match s.image it.slot with
        | some i => if i.loc = it.src then s.putImage it.slot { i with loc := some (rowLoc r it.off) } else s
        | none => s
    s.rowItems r its

/-- Victims with no valid image left begin to erase (R341). -/
def State.eraseVictims (s : State) : State :=
  s.setCellar { s.cellar with supers := Tbl.each s.cellar.supers fun k b =>
    if b.mode = .victim ∧ (s.slotsIn k).isEmpty then { b with mode := .erasing } else b }

/-- The SOURCE_UNIT of a die (R63): channel c lies in region c div 8. -/
def dieUnit (c way : Nat) : Nat := 0x1C0 + 8 * (c % 8) + way
/-- The SOURCE_UNIT of a Cellar channel. -/
def cchanUnit (c : Nat) : Nat := 0x200 + c % 8

/-- A block is retired (R356): BLOCK_RETIRED, and one more bad block of its die. -/
def State.retireBlock (s : State) (f : BlockFail) (cause : Nat) : State :=
  let c := s.cchan f.channel
  (s.setCchan f.channel { c with bad := c.bad.set f.way (c.bad.getD f.way 0 + 1) }).raise
    { code := 0x6803, sev := 1, region := f.channel.val / 8, unit := dieUnit f.channel f.way,
      args := leBytes 1 f.channel ++ leBytes 1 f.way ++ leBytes 1 f.plane ++ leBytes 2 f.block.toNat ++ leBytes 1 cause }

/- ## Bad blocks (R352, R355, R356) -/

/-- A plane's number: 4 times the die plus the plane, the die being 8 times the channel plus the way. -/
def planeKey (channel way plane : Nat) : Nat := 4 * (8 * channel + way) + plane

/-- The block of a plane that stands in a superblock. -/
def State.blockIn (s : State) (k p plane : Nat) : Nat :=
  let q := planeKey (2 * p + sbSet k) (k % 65536 / 2543) plane
  Tbl.get s.cellar.swaps (4096 * q + k % 65536 % 2543) (k % 65536 % 2543)

/-- A superblock runs without a position from now on (R356): its blocks of the die's other planes are in no superblock. -/
def State.runWithout (s : State) (k p plane : Nat) : State :=
  let free (t : Tbl (List Nat)) (x : Nat) : Tbl (List Nat) :=
    Tbl.upd t (planeKey (2 * p + sbSet k) (k % 65536 / 2543) x) [] fun l => l ++ [s.blockIn k p x]
  s.setCellar { s.cellar with left := Tbl.put s.cellar.left k (setBit (Tbl.get s.cellar.left k 0) p true),
                              spares := ((upTo 4).filter (· ≠ plane)).foldl free s.cellar.spares }

/-- A superblock's block of a plane replaced by another of the plane. -/
def State.swapIn (s : State) (k p plane b : Nat) : State :=
  s.setCellar { s.cellar with swaps := Tbl.put s.cellar.swaps (4096 * planeKey (2 * p + sbSet k) (k % 65536 / 2543) plane + k % 65536 % 2543) b }

/-- The TLC superblock that gives a zone superblock a block (R352). DESIGN CHOICE: the last one of the way never used; the spec does not say which. -/
def State.donor (s : State) (k p : Nat) : Option Nat :=
  let way := k % 65536 / 2543
  ((upTo 2543).map fun i => sbKey (sbSet k) way (2542 - i)).find? fun d =>
    !s.isZone d && (Tbl.find s.cellar.supers d).isNone && !bitOf (Tbl.get s.cellar.left d 0) p

/-- A superblock's block of a plane is bad: another of the plane that is in no superblock stands for it, for a zone superblock one of a TLC
superblock, which then runs without that die; where there is none the superblock itself does (R352, R355, R356). -/
def State.replaceBlock (s : State) (k p plane : Nat) : State :=
  let q := planeKey (2 * p + sbSet k) (k % 65536 / 2543) plane
  if bitOf (Tbl.get s.cellar.left k 0) p then s
  else
    match Tbl.get s.cellar.spares q [] with
    | b :: rest => (s.setCellar { s.cellar with spares := Tbl.put s.cellar.spares q rest }).swapIn k p plane b
    | [] =>
      match (if s.isZone k then s.donor k p else none) with
      | some d => (s.swapIn k p plane (s.blockIn d p plane)).runWithout d p plane
      | none => s.runWithout k p plane

/-- The factory marks of a die that can be (R355): blocks of the die, at most 1.5 % of a plane. -/
def marksOf (die : Nat) : List Nat :=
  (upTo 4).flatMap fun plane => ((Config.factoryMarks die).filter fun m => decide (m / 4096 = plane) && decide (m % 4096 < 2543)).eraseDups.take 38

/-- A die's factory marks read for the first time (R355): its marked blocks are used in no superblock. -/
def State.readMarks (s : State) (die : Nat) : State :=
  if (Tbl.find s.cellar.marks die).isSome then s
  else
    let l := marksOf die
    let s := s.setCellar { s.cellar with marks := Tbl.put s.cellar.marks die l }
    l.foldl (fun s m => s.replaceBlock (sbKey (die / 8 % 2) (die % 8) (m % 4096)) (die / 16) (m / 4096)) s

/-- A block of a superblock fails its program or erase status (R356): it is retired and replaced. -/
def State.failBlock (s : State) (k : Nat) (f : BlockFail) (cause : Nat) : State :=
  let s := s.retireBlock f cause
  if f.channel.val % 2 = sbSet k ∧ f.way.val = k % 65536 / 2543 then s.replaceBlock k (f.channel.val / 2) f.plane else s

/-- Images programmed again in a new row (R356), but for those that move and have changed since. -/
def State.replace (s : State) (key : Nat) : List RowItem → State
  | [] => s
  | it :: its =>
    let bytes := match it.page with
      | some k => imageBytes (((s.page k).snapshot.map (·.bricks)).getD [])
      | none => imageBytes (((s.image it.slot).map (·.bricks)).getD [])
    let stale := it.page.isNone && decide (((s.image it.slot).bind (·.loc)) ≠ it.src)
    (if stale then s else (s.placeItem key it.slot bytes it.page).getD s).replace key its

/-- WEAR_USED in 0.01 % of the rating of 140 PB (R361). -/
def State.wearUsed (s : State) : Nat := min 65535 (s.cellar.programmed * 10000 / (140 * 10 ^ 15))

/-- CELLAR_WEAR at 80 %, 90 % and 100 % (R361). -/
def State.wearCheck (s : State) : State :=
  let step := if 10000 ≤ s.wearUsed then 100 else if 9000 ≤ s.wearUsed then 90 else if 8000 ≤ s.wearUsed then 80 else 0
  if step ≤ s.cellar.wearSaid then s
  else (s.setCellar { s.cellar with wearSaid := step }).raise
    { code := 0x6808, sev := 2, unit := 0x2C4, args := leBytes 2 s.wearUsed }

/-- The first row in programming of a set and kind. -/
def State.firstProgram (s : State) (key : Nat) : Option RowBuf := (s.cellar.programs.find? fun p => p.1 = key).map (·.2)

/-- A row taken off the list of those in programming. -/
def State.endProgram (s : State) (key : Nat) (r : RowBuf) : State :=
  s.setCellar { s.cellar with programs := s.cellar.programs.erase (key, r) }

/-- A row is programmed when it is full, or 500 courses after its first image (R339). -/
def execRowProgramTimer (set relocation : Bool) (s : State) : Host.Outcome State Fault Refusal :=
  let key := rowKey (bit01 set) relocation
  match Tbl.find s.cellar.rows key with
  | none => .next s
  | some r => .next (if r.first + 500 * 4096 ≤ s.now then s.closeRow key else s)

/- ## Locators and fetches (R149, R344, R354) -/

/-- The data positions of a row, the parity position left out (R336): the row number counts the positions in service. -/
def Loc.dataPositions (l : Loc) : List Nat :=
  let ps := positionsOf l.dies
  ps.eraseIdx (l.row % 16 % max 1 ps.length)

/-- The die position on which an image's tag starts (R344). -/
def Loc.position (l : Loc) (zone : Bool) : Nat := l.dataPositions.getD (l.off / unitBytes zone) 0

/-- The 40-bit locator of an image (R344). -/
def Loc.word (l : Loc) (zone : Bool) : Nat :=
  let u := l.off % unitBytes zone
  let pg := l.block * 1536 + (if zone then l.row else 3 * l.row + u / 65536)
  l.set_ * 2 ^ 39 + l.way * 2 ^ 36 + pg * 2 ^ 14 + l.position zone * 2 ^ 10 + u % 65536 / 64

/-- The channel an image's tag lies on (R336, R344). -/
def State.imageChannel (s : State) (i : Image) : Nat :=
  match i.loc with
  | some l => 2 * l.position (s.isZone (sbKey l.set_ l.way l.block)) + l.set_
  | none => 0

/-- A fetch that owes a ready stamp. -/
def Fetch.owed (f : Fetch) : Option Nat := match f.kind with | .owed r => some r | _ => none

/-- The order in which a channel serves its fetches (R149): those owing a ready stamp, the earliest first; stairs' by class and step; placement's. -/
def Fetch.rank (f : Fetch) : List Nat :=
  match f.kind with | .owed r => [0, r] | .stair _ c m => [1, c, m] | .placement => [2]

/-- The time that stored bytes take on one channel's read path (R149, R348): 230,000 / 32 B a course. -/
def readTime (bytes : Nat) : Nat := ceilDiv (bytes * 4096 * 32) 230000

/-- The fetch that a channel's read path takes next. -/
def State.nextFetch (s : State) (channel : Nat) : Option Fetch :=
  (s.tier.fetches.filter fun f => decide (f.channel = channel) && f.begun.isNone).foldl (fun (a : Option Fetch) f => match a with
    | none => some f
    | some b => if f.rank < b.rank then some f else a) none

/-- Up to `n` fetches of a channel whose turn comes before a stamp begin. -/
def State.startFetches (s : State) (channel limit : Nat) : Nat → State
  | 0 => s
  | n + 1 =>
    let c := s.cchan channel
    if limit ≤ c.readAt then s
    else match s.nextFetch channel with
      | none => s
      | some f =>
        let t := max s.now c.readAt
        let begin_ (g : Fetch) : Fetch := if g.page = f.page then { g with begun := some t } else g
        let s := s.setTier { s.tier with fetches := s.tier.fetches.map begin_ }
        (s.setCchan channel { c with readAt := t + readTime f.bytes }).startFetches channel limit n

/-- The projected landing of a fetch owing a ready stamp (R149): 28 courses from admission, and the time of the bytes that owe a stamp on its
channel and of what remains there of transfers under way. -/
def State.projected (s : State) (channel : Nat) : Nat :=
  let ahead := (s.tier.fetches.filter fun f => f.owed.isSome && decide (f.channel = channel) && f.begun.isNone).map (·.bytes) |>.sum
  s.now + 28 * 4096 + readTime ahead + ((s.cchan channel).readAt - s.now)

/-- The page's fetch under way, if any. -/
def State.fetchOf (s : State) (k : Nat) : Option Fetch := s.tier.fetches.find? fun f => f.page = k

/-- A fetch put into its channel's queue; it begins at once where the channel is free. -/
def State.addFetch (s : State) (k : Nat) (kind : FetchKind) (i : Image) (loft : Bool) (step : Option (Nat × Nat)) : State :=
  let ch := s.imageChannel i
  let s := s.setTier { s.tier with fetches := s.tier.fetches ++ [⟨k, kind, ch, storedSize i.bricks, s.now, loft, step, none⟩] }
  (s.updPage k fun p => { p with transit := .fetching }).startFetches ch (s.now + 1) 1

/-- A fetch begun for a page in CELLAR or DEMOTED state (R133, R149); one that runs is joined, and made to owe a ready stamp where the new cause
owes one (R134), which one under way owes 28 courses after it began. Answers the ready stamp. -/
def State.needPage (s : State) (k : Nat) (loft : Bool) : Nat × State :=
  match s.fetchOf k with
  | some f =>
    match f.kind with
    | .owed r => (r, s)
    | _ =>
      let r := boundaryAfter (match f.begun with | some b => max s.now (b + 28 * 4096) | none => s.projected f.channel)
      (r, s.setTier { s.tier with fetches := s.tier.fetches.map fun g => if g.page = k then { g with kind := .owed r } else g })
  | none =>
    match (s.page k).slot.bind s.image with
    | none => (boundaryAfter s.now, s)
    | some i =>
      let r := boundaryAfter (s.projected (s.imageChannel i))
      (r, s.addFetch k (.owed r) i loft none)

/-- A fetch begun that owes no stamp: for a stair's step or for placement (R149). -/
def State.queueFetch (s : State) (k : Nat) (kind : FetchKind) (loft : Bool) : State :=
  if (s.fetchOf k).isSome then s
  else
    match (s.page k).slot.bind s.image with
    | none => s
    | some i => s.addFetch k kind i loft (match kind with | .stair t _ m => some (t, m) | _ => none)

/-- Every channel's fetches whose turn comes in the course that begins. -/
def State.serveFetches (s : State) : State :=
  (upTo 32).foldl (fun s c => s.startFetches c (s.now + 4096) s.tier.fetches.length) s

/-- Stored bytes queued for fetch (R157). -/
def State.fetchBacklog (s : State) : Nat := (s.tier.fetches.map (·.bytes)).sum

/-- The key of a block's sense count. -/
def senseKey (channel way block plane : Nat) : Nat := 2 ^ 22 * channel + 4 * (2543 * way + block) + plane

/-- The block, as a key of its sense count, that a byte of a row's data lies in (R335, R336): the units' pages of 16,384 B go over the four planes. -/
def Loc.blockAt (l : Loc) (zone : Bool) (byte : Nat) : Nat :=
  senseKey (2 * l.dataPositions.getD (byte / unitBytes zone) 0 + l.set_) l.way l.block (byte % unitBytes zone % 65536 / 16384)

/-- One sense of each page of flash that an image lies on counted against its block (R353). -/
def State.senseImage (s : State) (i : Image) : State :=
  match i.loc with
  | none => s
  | some l =>
    let zone := s.isZone (sbKey l.set_ l.way l.block)
    let first := l.off / 16384
    let last := (l.off + imageBytes i.bricks - 1) / 16384
    let one (t : Tbl Nat) (n : Nat) : Tbl Nat := Tbl.upd t (l.blockAt zone (16384 * (first + n))) 0 (· + 1)
    s.setCellar { s.cellar with senses := (upTo (last + 1 - first)).foldl one s.cellar.senses }

/-- The slots whose images share a codeword with an image: those of its row whose bytes meet its 2 KiB codewords (R335,
R354). -/
def State.sharing (s : State) (i : Image) : List Nat :=
  match i.loc with
  | none => []
  | some l =>
    let lo := l.off / 2048
    let hi := (l.off + imageBytes i.bricks - 1) / 2048
    (s.cellar.images.filter fun e => match e.2.loc with
      | some m => decide (m.set_ = l.set_) && decide (m.way = l.way) && decide (m.block = l.block) && decide (m.row = l.row)
          && decide (m.off / 2048 ≤ hi) && decide (lo ≤ (m.off + imageBytes e.2.bricks - 1) / 2048)
      | none => false).map (·.1)

/-- A failed codeword of an image is recovered by retry, soft decode or reconstruction, or is lost with every image that
shares it (R354). -/
def execCellarReadRecovered (slot : BitVec 34) (how : Recovery) (bits : BitVec 32) (s : State) :
    Host.Outcome State Fault Refusal :=
  match s.image slot.toNat with
  | none => .next s
  | some i =>
    match i.loc with
    | none => .next s
    | some l =>
      let ch := s.imageChannel i
      let c := s.cchan ch
      let zone := s.isZone (sbKey l.set_ l.way l.block)
      match how with
      | .lost =>
        let sl := s.sharing i
        let s := s.setCchan ch { c with lost := c.lost + 1 }
        let images := Tbl.each s.cellar.images fun k i => if sl.contains k then { i with lost := true } else i
        let s := s.setCellar { s.cellar with images := images }
        .next (s.raise { code := 0x6802, sev := 2, region := ch / 8, unit := dieUnit ch l.way,
                         args := leBytes 5 (l.word zone) ++ leBytes 2 sl.length })
      | .rebuilt =>
        let c := { c with recoveries := c.recoveries + 1, corrected := c.corrected + bits.toNat, recent := c.recent + 1 }
        if s.quiet64 c.recentAt then
          .next ((s.setCchan ch { c with recent := 0, recentAt := some s.now }).raise
            { code := 0x6801, sev := 0, region := ch / 8, unit := dieUnit ch l.way,
              args := leBytes 1 ch ++ leBytes 1 l.way ++ leBytes 2 c.recent })
        else .next (s.setCchan ch c)
      | _ => .next (s.setCchan ch { c with recoveries := c.recoveries + 1, corrected := c.corrected + bits.toNat })

/- ## Retirement and rebuild (R357, R358, R461) -/

/-- The slots with an image on a channel's ways: those of the set and way, the lost unit among their row's (R336, R358). -/
def State.slotsOn (s : State) (channel ways : Nat) : List Nat :=
  (s.cellar.images.filter fun e => match e.2.loc with
    | some l => decide (l.set_ = channel % 2) && bitOf ways l.way && decide (s.imageChannel e.2 = channel)
    | none => false).map (·.1)

/-- Rows of superblocks in use at a set and ways (R363 CELLAR_REBUILD_START). -/
def State.rowsOn (s : State) (channel ways : Nat) : Nat :=
  Tbl.total s.cellar.supers fun k b =>
    if sbSet k = channel % 2 ∧ bitOf ways (k % 65536 / 2543) ∧ b.mode ≠ .erased then b.rows else 0

/-- The images of a rebuild join the set's relocation rows (R358). -/
def State.rebuildItems (s : State) (set : Nat) (slots : List Nat) : State :=
  slots.foldl (fun s sl => match s.image sl with
    | some i => (s.placeItem (rowKey set true) sl (imageBytes i.bricks) none).getD s
    | none => s) s

/-- The rebuilds that wait or run, of both sets. -/
def State.rebuildsAll (s : State) : List Rebuild := Tbl.get s.cellar.rebuilds 0 [] ++ Tbl.get s.cellar.rebuilds 1 []

/-- A rebuild runs: none of its set (R358) and none of its region (R33) was detected before it. -/
def State.rebuildRuns (s : State) (r : Rebuild) : Bool :=
  s.rebuildsAll.all fun q => decide (r.order ≤ q.order) || (decide (q.channel % 2 ≠ r.channel % 2) && decide (q.channel / 8 ≠ r.channel / 8))

/-- The images of the rebuilds that run, and of which `was` says that they did not, are taken up. -/
def State.takeRebuilds (s : State) (was : Rebuild → Bool) : State :=
  (s.rebuildsAll.filter fun r => s.rebuildRuns r && !was r).foldl (fun s r => s.rebuildItems (r.channel % 2) r.todo) s

/-- The fetches that wait on ways of a channel are served by reconstruction from the other channels of their rows, at once (R358). -/
def State.hurryFetches (s : State) (channel ways : Nat) : State :=
  let lost (f : Fetch) : Bool := decide (f.channel = channel) && f.begun.isNone
    && match ((s.page f.page).slot.bind s.image).bind (·.loc) with | some l => bitOf ways l.way | none => false
  if s.tier.fetches.any lost then
    s.setTier { s.tier with fetches := s.tier.fetches.map fun f => if lost f then { f with begun := some s.now } else f }
  else s

/-- A rebuild begins, or waits behind those of its set (R358) and of its region (R33) in stamp order; CELLAR_STRIPE_LOST when rows of the set
then hold two lost units. DEDUCED: R33 orders the recoveries of one region, R358 those of one set, and both hold. -/
def State.startRebuild (s : State) (channel ways : Nat) : State :=
  let set := channel % 2
  let slots := s.slotsOn channel ways
  let q := Tbl.get s.cellar.rebuilds set []
  let s := s.hurryFetches channel ways
  let was := s.rebuildsAll
  let order := (was.map (·.order)).foldl max 0 + 1
  let s := s.setCellar { s.cellar with rebuilds := Tbl.put s.cellar.rebuilds set (q ++ [⟨channel, ways, slots, 0, order⟩]) }
  let s := s.raise { code := 0x6804, sev := 2, region := channel / 8, unit := cchanUnit channel,
                     args := leBytes 1 set ++ leBytes 1 channel ++ leBytes 1 ways ++ leBytes 4 (s.rowsOn channel ways) }
  let both := q.any fun r => r.ways &&& ways ≠ 0
  let s := if both then s.raise { code := 0x680A, sev := 3, unit := 0x2C4,
                                  args := leBytes 1 set ++ leBytes 4 (s.rowsOn channel ways) } else s
  s.takeRebuilds fun r => decide (r.order ≠ order)

/-- A Cellar channel goes out of service with the dies it has left, whose units are rebuilt together (R18, R357). -/
def State.disableCchan (s : State) (channel : Nat) : State :=
  let ways := (s.cchan channel).dies
  (s.setCchan channel { s.cchan channel with mode := .disabled, dies := 0 }).startRebuild channel ways

/-- A Cellar die is retired (R357, R358); one that leaves its channel with fewer than 2 dies takes the channel with it (R18). -/
def State.retireDie (s : State) (channel way cause : Nat) : State :=
  if s.isRetired (channel / 8) (dieUnit channel way) then s
  else
    let s := s.retireUnit (channel / 8) (dieUnit channel way) cause
    let c := s.cchan channel
    if s.isRetired (channel / 8) (cchanUnit channel) then s.disableCchan channel
    else
      let s := s.setCchan channel { c with dies := setBit c.dies way false, mode := if c.mode = .serving then .rebuilding else c.mode }
      s.startRebuild channel (2 ^ way)

/-- A Cellar channel is retired, with all its dies (R357). -/
def State.retireCchan (s : State) (channel cause : Nat) : State :=
  (s.markRetired (channel / 8) (cchanUnit channel) 1 cause).disableCchan channel

/-- The rebuild of a die or channel ends (R358): its images are all rewritten; those that waited for it begin. A channel with another die
still to rebuild stays Rebuilding. -/
def execCellarRebuildEnd (set : Bool) (s : State) : Host.Outcome State Fault Refusal :=
  let k := bit01 set
  match Tbl.get s.cellar.rebuilds k [] with
  | [] => .next s
  | r :: rest =>
    if !s.rebuildRuns r then .next s
    else
      let ran := s.rebuildRuns
      let c := s.cchan r.channel
      let more := rest.any fun q => decide (q.channel = r.channel)
      let s := s.setCellar { s.cellar with rebuilds := Tbl.put s.cellar.rebuilds k rest }
      let s := s.setCchan r.channel { c with mode := if c.mode = .rebuilding ∧ !more then .serving else c.mode }
      let s := s.raise { code := 0x6805, sev := 1, region := r.channel / 8, unit := cchanUnit r.channel,
                         args := leBytes 1 k ++ leBytes 1 r.channel ++ leBytes 4 r.todo.length }
      .next (s.takeRebuilds ran)

/-- The oldest changed map page is checkpointed (R346). -/
def execMapCheckpoint (s : State) : Host.Outcome State Fault Refusal :=
  .next (s.setCellar { s.cellar with map := s.cellar.map.drop 1 })

/-- Every 150,000,000 courses a channel runs ZQ calibration and DQ training again (R337). -/
def execCellarChannelTraining (channel : Fin 32) (s : State) : Host.Outcome State Fault Refusal :=
  let c := s.cchan channel
  if (c.mode = .serving ∨ c.mode = .rebuilding) ∧ c.trainedAt + 150000000 * 4096 ≤ s.now then
    .next (s.setCchan channel { c with trainedAt := s.now })
  else .next s

/- ## Erase, relocation, disturb, patrol (R341, R351 to R353) -/

/-- The valid images of a superblock are read and join its set's relocation rows (R341, R353, R356). -/
def State.relocate (s : State) (k : Nat) : State :=
  (s.slotsIn k).foldl (fun s sl => match s.image sl with
    | some i => ((s.senseImage i).placeItem (rowKey (sbSet k) true) sl (imageBytes i.bricks) none).getD s
    | none => s) s

/-- Image bytes that a row adds to the rated total (R361): not those of images that only move. -/
def RowBuf.added (r : RowBuf) : Nat :=
  let ends := (r.items.drop 1).map (·.off) ++ [r.used]
  ((r.items.zip ends).map fun x => if x.1.src.isSome then 0 else x.2 - x.1.off).sum

/-- Changed map pages written so that the rows programmed since the oldest change not yet written stay below MAP_REPLAY_MAX (R346). -/
def State.boundMap (s : State) : State :=
  let past (e : Nat × Nat) : Bool := decide (s.val .mapReplayMax 0 0 * 1000000 ≤ (s.cellar.rowSeq - e.2) * 2949120)
  s.setCellar { s.cellar with map := s.cellar.map.dropWhile past }

/-- A block has been retired: a die whose grown bad blocks pass 204 is retired (R357). -/
def State.wornDie (s : State) (f : BlockFail) : State :=
  if 204 < (s.cchan f.channel).bad.getD f.way 0 then s.retireDie f.channel f.way 2 else s

/-- The pages of a row whose read from the Store for it met a parity error (R366): a page whose second read failed too has not left its state,
and is queued again for a later row. -/
def State.rowParity (s : State) (r : RowBuf) : List (PageId × Bool) → State × RowBuf
  | [] => (s, r)
  | (id, twice) :: ps =>
    let k := pageIdKey id
    let p := s.page k
    match r.items.find? fun it => it.page = some k with
    | none => s.rowParity r ps
    | some it =>
      let f := p.frame.getD 0
      let region := f / framesPerRegion
      let bay := ((Tbl.find s.store.frames f).map (·.start)).getD 0
      let s := s.parityError region (0x180 + rankChannel region (s.readRank region bay) % 32) 3 twice (pageRoom k)
      if !twice then s.rowParity r ps
      else
        let s := s.setPage k { p with transit := .none, snapshot := none, wrote := false }
        let s := if p.slot = some it.slot then s else s.releaseSlot it.slot
        let step := if p.leaving then 3 else 4
        ((s.queueWriteBack k step).queueDemotion k step).rowParity { r with items := r.items.erase it } ps

/-- A row's parity unit passes program status, and the write-backs, demotions and moves of its images complete (R339,
R340); or a block of it fails, is retired and replaced, the images are programmed again in a new row, and rows that the block holds already are relocated
(R356). -/
def execRowProgramDone (set relocation : Bool) (ends : RowEnd) (s : State) : Host.Outcome State Fault Refusal :=
  let key := rowKey (bit01 set) relocation
  match s.firstProgram key with
  | none => .next s
  | some r =>
    let s := s.endProgram key r
    let b := s.super r.sb
    let last := decide (b.rows + 1 = rowsPerSb)
    let s := s.setSuper r.sb { b with rows := b.rows + 1, mode := if last then .sealed else b.mode,
                                      sealedAt := if last then s.now else b.sealedAt }
    let s := if last then s.setCellar { s.cellar with open_ := Tbl.del s.cellar.open_ key } else s
    match ends with
    | .failed f => .next ((((s.failBlock r.sb f 1).replace key r.items).relocate r.sb).wornDie f)
    | .passed parity =>
      let (s, r) := s.rowParity r parity
      let s := s.setCellar { s.cellar with rowSeq := s.cellar.rowSeq + 1,
                                           programmed := s.cellar.programmed + (if relocation then 0 else r.added) }
      .next ((s.rowItems r r.items).boundMap.eraseVictims.wearCheck)

/-- An erasing superblock's blocks pass erase and it becomes ERASED; a block that fails is replaced (R341, R356). A zone
superblock so erased raises ZONE_READY (R350), and the ceiling is recomputed at the next boundary (R393). -/
def execSuperblockEraseDone (set : Bool) (way : Fin 8) (block : BitVec 12) (failed : Option BlockFail) (s : State) :
    Host.Outcome State Fault Refusal :=
  let k := sbKey (bit01 set) way block.toNat
  let b := s.super k
  if b.mode ≠ .erasing then .next s
  else
    let s := match failed with | some f => s.failBlock k f 2 | none => s
    let s := s.setSuper k { b with mode := .erased, rows := 0, erases := b.erases + 1 }
    let s := s.setCellar { s.cellar with senses := Tbl.keep s.cellar.senses fun q _ =>
      !(decide (q % 2 ^ 22 / 4 = 2543 * way.val + block.toNat) && decide (q / 2 ^ 22 % 2 = bit01 set)) }
    let s := match failed with | some f => s.wornDie f | none => s
    .next (if s.isZone k then s.setCistern { s.cistern with due := some 3 } else s)

/-- A superblock becomes a victim (R341): its valid images join the set's relocation rows. -/
def State.makeVictim (s : State) (k : Nat) : State :=
  let s := s.setSuper k { s.super k with mode := .victim }
  (s.relocate k).eraseVictims

/-- The relocation victim of a set (R351): SEALED, fewest valid bytes, the oldest sealed on a tie. -/
def State.pickVictim (s : State) (set : Nat) : Option Nat :=
  let l := s.cellar.supers.filter fun e => decide (sbSet e.1 = set) && !s.isZone e.1 && decide (e.2.mode = .sealed)
  (l.foldl (fun (a : Option (Nat × Superblock)) e => match a with
    | none => some e
    | some b =>
      let x := s.validBytes e.1
      let y := s.validBytes b.1
      if x < y ∨ (x = y ∧ e.2.sealedAt < b.2.sealedAt) then some e else a) none).map (·.1)

/-- A set with fewer than 48 ERASED superblocks picks a victim and relocates its valid images (R351). -/
def execRelocationStart (set : Bool) (s : State) : Host.Outcome State Fault Refusal :=
  if 48 ≤ s.erasedTlc (bit01 set) then .next s
  else .next (match s.pickVictim (bit01 set) with | some k => s.makeVictim k | none => s)

/-- A block's sense count reaches READ_DISTURB_LIMIT, five times it for a zone block, and its superblock becomes a victim
(R353). -/
def execReadDisturbRelocate (channel : Fin 32) (way : Fin 8) (block : BitVec 12) (s : State) :
    Host.Outcome State Fault Refusal :=
  let k := sbKey (channel.val % 2) way block.toNat
  let sensed := (upTo 4).map fun x => Tbl.get s.cellar.senses (senseKey channel way block.toNat x) 0
  let limit := s.val .readDisturbLimit 0 0 * (if s.isZone k then 5 else 1)
  if sensed.foldl max 0 < limit ∨ (s.super k).mode ≠ .sealed then .next s
  else .next ((s.makeVictim k).raise
    { code := 0x6809, sev := 0, unit := 0x2C4,
      args := leBytes 1 (channel.val % 2) ++ leBytes 2 block.toNat ++ leBytes 1 way })

/-- The senses of a patrol counted (R353): every page of every wordline of a superblock's blocks. -/
def State.sensePatrol (s : State) (k : Nat) : State :=
  let n := rowsPerSb * (if s.isZone k then 1 else 3)
  let way := k % 65536 / 2543
  let one (t : Tbl Nat) (x : Nat) : Tbl Nat := Tbl.upd t (senseKey (2 * (x / 4) + sbSet k) way (k % 65536 % 2543) (x % 4)) 0 (· + n)
  let inUse (x : Nat) : Bool := bitOf (s.sbDies k) (x / 4)
  s.setCellar { s.cellar with senses := ((upTo 64).filter inUse).foldl one s.cellar.senses }

/-- The patrol has read every wordline of a sealed superblock; one with a codeword past 0.25 % corrections is relocated
(R353). -/
def execPatrol (set : Bool) (way : Fin 8) (block : BitVec 12) (worn : Bool) (s : State) : Host.Outcome State Fault Refusal :=
  let k := sbKey (bit01 set) way block.toNat
  if (s.super k).mode ≠ .sealed then .next s
  else
    let s := s.sensePatrol k
    .next (if worn then s.makeVictim k else s)

/-- Wear levelling (R352): where a set's highest and lowest TLC erase counts differ by more than 200, the SEALED superblock of lowest count becomes
a victim. DESIGN CHOICE: one at a time, while no other superblock of the set is being emptied or erased. -/
def State.levelWear (s : State) (set : Nat) : State :=
  let l := s.cellar.supers.filter fun e => decide (sbSet e.1 = set) && !s.isZone e.1
  let all := l.map (·.2.erases)
  let low := if l.length < sbPerSet - (if s.cellar.zoneSet then zonePerSet else 0) then 0 else (leastBy id all).getD 0
  if all.foldl max 0 ≤ low + 200 ∨ l.any (fun e => decide (e.2.mode = .victim) || decide (e.2.mode = .erasing)) then s
  else
    match leastBy (fun k => (s.super k).erases) ((l.filter fun e => e.2.mode = .sealed).map (·.1)) with
    | some k => s.makeVictim k
    | none => s

/-- The work of a course in both sets: superblocks emptied begin to erase (R341), wear is levelled (R352). -/
def State.tendBlocks (s : State) : State := (s.eraseVictims.levelWear 0).levelWear 1

/-- The events of R343, R349 and R360 that report a shortage once per 1,000 courses, judged at a boundary. -/
def State.cellarShortages (s : State) : State :=
  let due (a : Option Nat) : Bool := match a with | none => true | some t => decide (t + 1000 * 4096 ≤ s.now)
  let s := if s.slotsLow && due s.cellar.slotsAt then
      (s.setCellar { s.cellar with slotsAt := some s.now }).raise
        { code := 0x680B, sev := 2, unit := 0x2C4,
          args := leBytes 8 s.slotsFree ++ leBytes 4 (s.cellar.images.length - slotBound) } else s
  let s := (upTo 2).foldl (fun s k =>
    if s.setFull k && due (Tbl.find s.cellar.spaceAt k) then
      (s.setCellar { s.cellar with spaceAt := Tbl.put s.cellar.spaceAt k s.now }).raise
        { code := 0x6806, sev := 3, unit := 0x2C4,
          args := leBytes 1 k ++ leBytes 2 (s.erasedTlc k) ++ leBytes 8 s.dirtyStored }
    else s) s
  if s.cellar.zoneSet && decide (s.zoneReady - 1000000000 < s.cistern.byEnergy) && due s.cellar.zoneAt then
    (s.setCellar { s.cellar with zoneAt := some s.now }).raise
      { code := 0x6807, sev := 2, unit := 0x2C4,
        args := leBytes 4 (s.zoneReady / 1000000) ++ leBytes 4 (s.cistern.byEnergy / 1000000) }
  else s

end Sys2Proof.Machine
end

