-- ==== Sys2Proof/Machine/Landing.lean ====
section
/-!
DEFINITION. Sys2Proof/Machine/Landing.lean: lines and bricks, tables, the expansion of a stored brick, poison, and what a
write does to its page (R107, R133, R138, R162, R165, R166, R173, R183, R192, R245, R316, R374).
-/

namespace Sys2Proof.Machine

/- ## Lines, bricks, bytes -/

/-- The key of a line: 2^40 times the room plus line address bits [45:6]. -/
def lineKey (room line : Nat) : Nat := 2 ^ 40 * room + line
/-- The brick of a line. -/
def lineBrick (k : Nat) : Nat := k / 4
/-- The page of a line. -/
def linePage (k : Nat) : Nat := k / 64
/-- The 64 bytes of a line's data. -/
def lineBytes (d : BitVec 512) : List Byte := leBytes 64 d.toNat
/-- The key of a brick that a command names. -/
def brickIdKey (b : BrickId) : Nat := 2 ^ 44 * b.copy.toNat + 2 ^ 38 * b.room.val + b.brick.toNat
/-- Line `j` of a brick's plaintext. -/
def lineOf (plain : List Byte) (j : Nat) : BitVec 512 := BitVec.ofNat 512 (ofLe ((plain.drop (64 * j)).take 64))
/-- A line's bytes under a mask put into a brick's plaintext. -/
def mergeLine (plain : List Byte) (j : Nat) (d : List Byte) (mask : Nat) : List Byte :=
  let new := List.zipWith (fun i (o : Byte) => if bitOf mask i then d.getD i 0 else o) (upTo 64) ((plain.drop (64 * j)).take 64)
  plain.take (64 * j) ++ new ++ plain.drop (64 * j + 64)
/-- The mask that covers a line. -/
def fullMask : Nat := 2 ^ 64 - 1

/-- The region of a port, M00 to M07 in region 0 and so on, or of core n, which stands as 32 + n (R12, R252). -/
def portRegion (p : Nat) : Nat := p % 32 / 8

/- ## Tables and expansion (R174, R181, R182, R202, R203) -/

/-- The table image a room's id is bound to. -/
def State.tableOf (s : State) (room id : Nat) : Option (List Byte) :=
  (Tbl.find s.codec.binds (32 * room + id)).bind fun slot => (Tbl.find s.codec.slots slot).map (·.image)

/-- The tables of a room by id. -/
def State.tablesOf (s : State) (room : Nat) : Tbl (List Byte) :=
  (upTo 32).filterMap fun id => (s.tableOf room id).map fun img => (id, img)

/-- A coded brick of a room's page expanded, with the expansion of its base (R181, R182). -/
def State.expandCoded (s : State) (k b : Nat) (st : Stored) (foot : Expanded) : Expanded :=
  expand ⟨b, s.tablesOf (pageRoom k), foot⟩ st

/-- What a DELTA brick without its base is: cause 8 for a footing brick that is missing. DESIGN CHOICE: R181 gives the footing's cause
and does not number the cause of one that is absent; 8 is that of a named thing that is not there. -/
def noFooting : Expanded := .error ⟨8, 0, 0, 0⟩

/-- A brick of a page decrypted and expanded, its footing brick with it, which is decrypted under the tweak of its base (R181, R182,
R196). A poisoned footing brick is a mismatched one (R377). DESIGN CHOICE: its cause is 6, as of a record that cannot be used. -/
def State.expandIn (s : State) (k b gen : Nat) (l : Laid) (footing : Tbl (Nat × Laid)) : Expanded :=
  let foot : Expanded := match Tbl.find footing b with
    | some (g, f) => if recPoison f.record then .error ⟨6, 0, 0, 0⟩ else s.expandCoded k b (s.openBrick k b g f) noFooting
    | none => noFooting
  s.expandCoded k b (s.openBrick k b gen l) foot

/-- A brick of a page's Store copy expanded. -/
def State.plainOf (s : State) (bk : Nat) : Expanded :=
  let p := s.page (bk / 16)
  s.expandIn (bk / 16) (bk % 16) p.gen (p.brick (bk % 16)) p.footing

/-- What the compressor is given for a page (R162, R175, R202, R203): attributes, threshold, tables bound. -/
def State.codeChoice (s : State) (k : Nat) : CodeChoice :=
  let room := pageRoom k
  let a := s.pageAttr k
  let w := (s.windowOf k).getD 0
  let tab (id : Nat) : Option (Nat × List CodeWord) := (s.tableOf room id).map fun img => (id, codeOf img)
  let t := s.val .windowTables room w
  let native := decide (s.val .roomTableMode room 0 = 0)
  let ready := decide (Tbl.get s.codec.usable (16 * room + w) (s.now + 1) ≤ s.now)
  let byteT := if native then (if bitOf t 31 then tab (bitsOf t 20 16) else none) else if ready then tab (2 * w) else none
  let expT := if native then (if bitOf t 15 then tab (bitsOf t 12 8) else none) else if ready then tab (2 * w + 1) else none
  let smT := if native ∧ bitOf t 7 then tab (bitsOf t 4 0) else none
  { isSealed := attrSealed a, element := attrElement a, rawMax := s.val .roomRawThreshold room 0,
    byteT := byteT, expT := expT, smT := smT }

/-- The bays a page's stored form needs (R312, R315): eight sectors a bay, its footing bricks behind. -/
def baysFor (bs : List Laid) (footing : Tbl (Nat × Laid)) : Nat :=
  ceilDiv ((bs.map fun b => recSectors b.record).sum + Tbl.total footing fun _ f => recSectors f.2.record) 8

/-- A marked page's note of whether it was written since the freeze, set. -/
def State.markWritten (s : State) (k : Nat) (b : Bool) : State :=
  let upd (m : MarkedPage) : MarkedPage := if m.page = k then { m with written := b } else m
  s.setShelves (Tbl.each s.shelves fun _ f => { f with job := f.job.map fun j => { j with marked := j.marked.map upd } })

/-- A marked page has been written since the freeze. -/
def State.writtenSince (s : State) (k : Nat) : Bool :=
  s.shelves.any fun e => match e.2.job with
    | some j => j.marked.any fun m => decide (m.page = k) && m.written
    | none => false

/-- A brick's new stored form laid in the page's frame (R316): in place within BAYS unless a shelve marked the page; else in
a new run, the old one kept for the shelve. None where the region has no run left. -/
def State.layBrick (s : State) (bk : Nat) (st : Laid) : Option State :=
  let k := bk / 16
  let p := s.page k
  let bs := p.store.set (bk % 16) st
  let foot := Tbl.del p.footing (bk % 16)
  let s' := s.setPage k { p with bricks := bs, footing := foot }
  match p.frame.bind fun f => (Tbl.find s.store.frames f).map fun e => (f, e) with
  | none => some s'
  | some (f, e) =>
    let need := baysFor bs foot
    let marked := s.isMarked k && e.kept.isNone
    if need ≤ e.bays ∧ !marked then some s' else s'.reRun f (max need 1) marked

/- ## The directory's part of a page (R238) and the landing -/

/-- A landing slot. -/
def State.slotOf (s : State) (bk : Nat) : Option Landing := Tbl.find s.landing bk

/-- A slot just taken. -/
def Landing.init (now : Nat) : Landing := ⟨List.replicate 256 0, 0, 0, false, now, false, none, 0, false, none⟩

/-- A write to a marked slot takes a new one, and leaves it behind (R214). -/
def Landing.leftBehind (l : Landing) : Bool := l.marked && !l.filling && l.under.isNone

/-- A write to a brick needs a landing slot that it has not. -/
def State.needsSlot (s : State) (bk : Nat) : Bool := match s.slotOf bk with | none => true | some l => l.leftBehind

/-- The state with a landing slot put. -/
def State.putSlot (s : State) (bk : Nat) (l : Landing) : State := s.setLanding (Tbl.put s.landing bk l)

/-- The landing is full (R135, R138): reserved bricks count. -/
def State.landingFull (s : State) : Bool := decide (landingSize ≤ s.landingUsed)

/-- The dirty ceiling in force (R393). -/
def State.ceiling (s : State) : Nat := s.cistern.ceiling

/-- `more` stored bytes fit under the ceiling (R90, R146). -/
def State.fits (s : State) (more : Nat) : Bool := decide (s.dirtyStored + more ≤ s.ceiling)

/- ## What a write does to its page -/

/-- Pages of a Store-pinned window that are held pinned. -/
def State.countWindowPinned (s : State) (room : Nat) (w : Option Nat) : Nat :=
    Tbl.count s.pages fun k p => decide (pageRoom k = room) && decide (s.windowOf k = w) && p.inStore && !p.unpinned

/-- PIN_SPILL with the pages placed unpinned in the last 64 courses, at most one per room per 64 courses (R143, R159). -/
def State.spillSaid (s : State) (room w : Nat) : State :=
    let recent := ((Tbl.get s.tier.spills room []).filter fun t => decide (s.now < t + 64 * 4096)) ++ [s.now]
    let s := s.setTier { s.tier with spills := Tbl.put s.tier.spills room recent }
    if s.quiet64 (Tbl.find s.tier.spillAt room) then
      (s.setTier { s.tier with spillAt := Tbl.put s.tier.spillAt room s.now }).raise
        { code := 0x3002, sev := 1, unit := srcRoom room, args := leBytes 1 w ++ leBytes 4 recent.length }
    else s

/-- A page's frame found in a region and its state made DIRTY or VOLATILE (R107, R133, R143, R317). -/
def State.allocate (s : State) (k home : Nat) : State :=
  let a := s.pageAttr k
  let room := pageRoom k
  let durable := attrDurable a
  let f := s.findFrame (s.frameRegion home)
  let g := s.freshGen k
  let w := s.windowOf k
  let pinned := s.countWindowPinned room w
  let spill := decide (attrPlacement a = 2) && decide ((s.room room).effStore < 4096 * (pinned + 1))
  let p := { s.page k with mode := if durable then .dirty else .volatile, frame := some f, bricks := [],
                           gen := g, gens := g + 1, behind := false, groupSeq := 0,
                           dirtySince := s.now, unpinned := spill,
                           heat := 0, lastTouch := s.time.course }
  let s := s.setStore { s.store with frames := Tbl.put s.store.frames f ⟨k, 0, 0, none⟩ }
  let s := (s.setPage k p).settleOverdraft room
  if spill then s.spillSaid room (w.getD 0) else s

/-- Versions that share a live page's image (R245). -/
def State.isShared (s : State) (k : Nat) : Bool :=
  s.pubs.regions.any fun g => g.2.vers.any fun v => v.pages.any fun e => decide (e.2 = k)

/-- A version that shares a page's image is none of those named. -/
def State.sharedBesides (s : State) (k : Nat) (of_ : List (Nat × Nat)) : Bool :=
  s.pubs.regions.any fun g => g.2.vers.any fun v => !of_.contains (g.1, v.version) && v.pages.any fun e => decide (e.2 = k)

/-- A page split (R245): the versions but those named keep the frame, the image and the state; the page takes a new frame with a
copy of the stored sectors and page group, and no image; what stands in the landing counts for both. None where no run is left. -/
def State.partPage (s : State) (k home : Nat) (of_ : List (Nat × Nat)) : Option State :=
  let p := s.page k
  let n := s.pubs.copies + 1
  let c := 2 ^ 40 * n + k % 2 ^ 40
  let move (g : Nat) (v : PubVer) : PubVer :=
    if of_.contains (g, v.version) then v else { v with pages := Tbl.each v.pages fun _ x => if x = k then c else x }
  let regions := Tbl.each s.pubs.regions fun i g => { g with vers := g.vers.map (move i) }
  let s := s.setPubs { s.pubs with regions := regions, copies := n }
  let s := (s.setPage c { p with loft := none, touches := [0, 0, 0, 0], behind := true }).moveItems k c
  let slots := s.landing.filter fun e => decide (e.1 / 16 = k) && !e.2.filling
  let s := slots.foldl (fun s e => s.putSlot (16 * c + e.1 % 16) { e.2 with marked := false, under := none }) s
  let s := match p.frame.bind fun f => (Tbl.find s.store.frames f).map fun e => (f, e) with
    | some (f, e) => s.setStore { s.store with frames := Tbl.put s.store.frames f { e with page := c } }
    | none => s
  let r := s.frameRegion home
  let bays := baysFor p.store p.footing
  match s.findRun r bays with
  | none => none
  | some st =>
    let f := s.findFrame r
    let s := s.setStore { s.store with frames := Tbl.put s.store.frames f ⟨k, st, bays, none⟩ }
    some ((s.setPage k { p with frame := some f, slot := none, mode := .dirty, transit := .none, dirtySince := s.now,
                                wbStep := 0, leaving := false, wrote := false, snapshot := none }).settleOverdraft (pageRoom k))

/-- A page split from every version that shares it (R245). -/
def State.splitPage (s : State) (k home : Nat) : Option State := s.partPage k home []

/-- An accepted write's effect on the state of its page, which is in the Store (R133, R134). -/
def State.pageWritten (s : State) (k : Nat) : State :=
  let p := s.page k
  let s := match p.mode with
    | .clean => s.setPage k { p with mode := .dirty, dirtySince := s.now }
    | .dirty => s.setPage k { p with wrote := decide (p.transit = Transit.writing) }
    | .volatile =>
      if p.transit = Transit.demoting then
        ((s.setPage k { p with transit := .none, snapshot := none, leaving := false, dirtySince := s.now }).cancelItems k).settleOverdraft (pageRoom k)
      else s.setPage k { p with dirtySince := s.now }
    | _ => s
  let s := if s.isMarked k then s.markWritten k true else s
  if s.cistern.writeThrough then s.queueWriteBack k 1 else s

/-- The demotion of a Cellar-only page that was just written for the first time (R133): it begins at once, its bricks going through the landing
first where they lie there; not where its room's margin forbids it (R147). -/
def State.demoteAtOnce (s : State) (k : Nat) : State :=
  if (s.page k).mode ≠ .volatile ∨ attrPlacement (s.pageAttr k) ≠ 3 ∨ s.cellarFull (pageRoom k) then s
  else if s.inLanding k then ((s.updPage k fun p => { p with transit := .demoting }).beginWriteBack k).settleOverdraft (pageRoom k)
  else (s.queueDemotion k 3).beginWriteBack k

/-- Such a page whose bricks have left the landing: they are copied now. -/
def State.copyDemoted (s : State) (k : Nat) : State :=
  let p := s.page k
  if p.transit ≠ .demoting ∨ p.snapshot.isSome ∨ s.inLanding k then s
  else ((s.updPage k fun p => { p with transit := .none }).queueDemotion k 3).beginWriteBack k

/-- An accepted write to a page, its first where `first`. -/
def State.accepted (s : State) (k : Nat) (first : Bool) : State :=
  let s := s.pageWritten k
  if first then s.demoteAtOnce k else s

/-- What the landing takes a brick's base from (R192): the slot itself, the plaintext of a Loft page or an unwritten brick
with its poisoned lines; or a fill from the Store. -/
inductive Base where
  | ready (data : List Byte) (poison : Nat)
  | filling
  | fill
  deriving Repr

/-- The base of a brick whose page is in the Store, or NEW. -/
def State.baseOf (s : State) (bk : Nat) : Base :=
  match s.slotOf bk with
  | some l => if l.filling then .filling else .ready l.data l.poison
  | none =>
    let p := s.page (bk / 16)
    let st := p.brick (bk % 16)
    let zeros := List.replicate 256 (0 : Byte)
    if st.record = 0 ∨ (recMode st.record = .zero ∧ !recPoison st.record) then .ready zeros 0
    else if recPoison st.record ∧ recMask st.record = 15 then .ready zeros 15
    else if p.loft.isSome then
      match s.plainOf bk with | .ok d => .ready d (recMask st.record) | .error _ => .fill
    else .fill

/-- A write merged into a brick's plaintext (R92, R166): the response code, the plaintext and the poison mask. -/
def mergeWrite (op : LineOp) (poison : Bool) (j : Nat) (d : List Byte) (mask : Nat) (data : List Byte) (pm : Nat) :
    Nat × List Byte × Nat :=
  let full := decide (op = .wr) || decide (mask = fullMask)
  if decide (op = .wr) && poison then (0, mergeLine data j (List.replicate 64 0) fullMask, setBit pm j true)
  else if full then (0, mergeLine data j d fullMask, setBit pm j false)
  else if bitOf pm j then (2, data, pm)
  else (0, mergeLine data j d mask, pm)

/-- Above 75 % landing use, slots are queued until those queued would bring it there, oldest last write first (R194). -/
def State.landingPressure (s : State) : State :=
  let excess := ceilDiv (4 * s.landingUsed - 3 * landingSize) 4 - Tbl.count s.landing fun _ l => l.queued
  if excess = 0 then s
  else
    let l := sortBy (fun a b => decide (a.2.last < b.2.last)) (s.landing.filter fun e => !e.2.filling && !e.2.queued)
    (l.take excess).foldl (fun s e => s.queueSlot e.1) s

/-- A slot just written is queued where it was queued before, now behind the others (R194), in write-through where its page is durable
(R395), or by the landing's use. -/
def State.requeue (s : State) (bk : Nat) (was : Bool) : State :=
  (if was || (s.cistern.writeThrough && s.durableBrick bk) then s.queueSlot bk else s).landingPressure

/-- A line of a slot written now (R192, R194). -/
def State.writeSlot (s : State) (bk j : Nat) (data : List Byte) (pm : Nat) : State :=
  let l := (s.slotOf bk).getD (Landing.init s.now)
  let new : Landing := { Landing.init s.now with data := data, poison := pm }
  if l.leftBehind then (s.putSlot bk { new with written := setBit 0 j true, under := some (l.data, l.poison) }).requeue bk false
  else (s.putSlot bk { new with written := setBit l.written j true, marked := l.marked, under := l.under }).requeue bk l.queued

/-- A slot whose fill from the Store is in flight (R192). -/
def State.beginFill (s : State) (bk : Nat) : State :=
  (s.putSlot bk { Landing.init s.now with filling := true }).landingPressure

/- ## Store reads (R318, R320) -/

/-- A time in ns as stamp units (R51). -/
def nsUnits (ns : Nat) : Nat := ns * 4096 / 2000

/-- A request's target for its room, class and port (R320). -/
def State.readTarget (s : State) (k port : Nat) : Nat :=
  let t := s.val .classLatencyTarget (pageRoom k) (s.pageClass k)
  nsUnits (if t ≠ 0 then t else s.val .portStoreTarget port 0)

/-- Where a brick's sectors lie (R316): the region, the region bay of its first sector, and that sector's place in the bay. -/
def State.brickPlace (s : State) (bk : Nat) : Option (Nat × Nat × Nat) :=
  let p := s.page (bk / 16)
  p.frame.bind fun f => (Tbl.find s.store.frames f).map fun e =>
    let off := ((p.store.take (bk % 16)).map fun b => recSectors b.record).sum
    (f / framesPerRegion, e.start + off / 8, off % 8)

/-- A brick's sectors as requests of whole sectors of one bay each (R318): region, bay, first sector, how many. -/
def State.brickParts (s : State) (bk : Nat) : List (Nat × Nat × Nat × Nat) :=
  match s.brickPlace bk with
  | none => []
  | some (r, bay, first) =>
    let n := recSectors ((s.page (bk / 16)).brick (bk % 16)).record
    [(r, bay, first, min n (8 - first)), (r, bay + 1, 0, n - (8 - first))].filter fun x => decide (x.2.2.2 ≠ 0)

/-- The bay's part of a brick put into its channel's read queue, with an expander lane or none; a part that queued writes cover is answered from
them, with no access of the media (R318). -/
def State.queueReadPart (s : State) (r bay first n target : Nat) (lane : Option Nat) : State :=
  let ch := rankChannel r (s.readRank r bay)
  let c := s.chan ch
  if c.covers bay first n then s
  else s.setChan ch { c with reads := c.reads ++ [⟨bay, first, n, s.now, target, 0, false, lane⟩] }

/-- A read of a brick put into its channels' queues (R318), and the brick into an expander lane's of the region (R186). -/
def State.queueRead (s : State) (bk target : Nat) : State :=
  match s.brickParts bk with
  | [] => s
  | (r, bay, first, n) :: rest =>
    rest.foldl (fun s x => s.queueReadPart x.1 x.2.1 x.2.2.1 x.2.2.2 target none)
      (s.queueReadPart r bay first n target (s.placeLane r false))

/-- A queued read of a bay's part taken off its channel's queue as its sectors arrive, its rows touched (R318, R319). -/
def State.endReadPart (s : State) (r bay first : Nat) : State :=
  let rank := s.readRank r bay
  let ch := rankChannel r rank
  let c := s.chan ch
  let mine (q : StoreReq) : Bool := decide (q.bay = bay) && decide (q.first = first)
  if c.reads.any mine then (s.setChan ch { c with reads := c.reads.eraseP mine }).accessBay r rank bay else s

/-- The reads of a brick taken off their channels' queues. -/
def State.endRead (s : State) (bk : Nat) : State :=
  (s.brickParts bk).foldl (fun s x => s.endReadPart x.1 x.2.1 x.2.2.1) s

/-- A write of a brick's stored form put into its channels' queues (R318); while its rank migrates, with the written flags of its bays (R329). -/
def State.queueStoreWrite (s : State) (bk : Nat) : State :=
  (s.brickParts bk).foldl (fun s x =>
    let ch := rankChannel x.1 (s.writeRank x.1 x.2.1)
    (s.setChan ch ((s.chan ch).queueWrite ⟨x.2.1, x.2.2.1, x.2.2.2, s.now, 0, 0, s.tier.pressure, none⟩)).flagWritten x.1 x.2.1) s

/- ## Poison (R183, R374, R379) -/

/-- A brick's event address: its brick address bits [45:8]. -/
def brickArg (bk : Nat) : List Byte := leBytes 5 (bk % 2 ^ 38)

/-- SHARED_DAMAGED for each published version that refers to a page (R379), and the version marked damaged. -/
def State.damageShared (s : State) (k : Nat) : State :=
  let hits := s.pubs.regions.flatMap fun g => (g.2.vers.filter fun v => v.pages.any fun e => e.2 = k).map fun v =>
    (g.1, v.version)
  let mark (v : PubVer) : PubVer := if v.pages.any (fun e => e.2 = k) then { v with damaged := true } else v
  let regions := Tbl.each s.pubs.regions fun _ g => { g with vers := g.vers.map mark }
  (s.setPubs { s.pubs with regions := regions }).raiseAll (hits.map fun h =>
    { code := 0x7006, sev := 2, unit := srcRoom (pageRoom k),
      args := leBytes 1 h.1 ++ leBytes 4 h.2 ++ leBytes 5 (pageNo k) })

/-- A clean source for a poisoned brick of the Store (R374): its landing slot; the Loft copy, by its CRC against the kept
record; the Cellar image of a CLEAN page. -/
def State.cleanSource (s : State) (bk : Nat) (kept : Laid) : Option (Nat × List Byte) :=
  let p := s.page (bk / 16)
  match s.slotOf bk with
  | some l => if l.filling then none else some (1, l.data)
  | none =>
    let loft : Option (List Byte) := if p.loft.isNone then none
      else match s.expandIn (bk / 16) (bk % 16) p.gen kept p.footing with | .ok d => some d | .error _ => none
    match loft with
    | some d => some (2, d)
    | none =>
      if p.mode ≠ .clean then none
      else
        match p.slot.bind s.image with
        | some i =>
          let b := i.bricks.getD (bk % 16) Laid.blank
          match s.expandIn (bk / 16) (bk % 16) i.gen b p.footing with
          | .ok d => if b.record = kept.record ∧ i.gen = p.gen then some (3, d) else none
          | .error _ => none
        | none => none

/-- A brick that does not rebuild is poisoned in the Store copy, once (R183): record, event, count; then its repair is
queued, or with no clean source the poison stands (R374, R379). -/
def State.poisonStore (s : State) (bk : Nat) (m : Mismatch) : State :=
  let k := bk / 16
  let kept := (s.page k).brick (bk % 16)
  if recPoison kept.record ∧ recMask kept.record = 15 ∧ recordOk kept.record then s
  else
    let src := s.cleanSource bk kept
    let (v, s) := s.nextVersion bk
    let st := s.sealBrick k (bk % 16) (s.page k).gen (poisonForm (attrSealed (s.pageAttr k)) v 15 (List.replicate 256 0))
    let s := (s.layBrick bk st).getD (s.updPage k fun p => { p with bricks := p.store.set (bk % 16) st })
    let s := (s.groupWritten k).setCodec { s.codec with mismatches := s.codec.mismatches + 1 }
    let s := s.raise { code := 0x5001, sev := 2, unit := srcRoom (pageRoom k),
                       args := brickArg bk ++ leBytes 1 m.cause ++ leBytes 2 m.declared ++ leBytes 2 m.consumed
                         ++ leBytes 2 m.produced }
    match src with
    | some (from_, d) => s.setInteg { s.integ with repairs := s.integ.repairs ++ [⟨bk, from_, d⟩] }
    | none =>
      (s.raise { code := 0x7004, sev := 2, unit := srcRoom (pageRoom k), args := brickArg bk ++ leBytes 1 m.cause }).damageShared k

end Sys2Proof.Machine
end

