-- ==== Sys2Proof/Machine/Coherence.lean ====
section
/-!
DEFINITION. Sys2Proof/Machine/Coherence.lean: the directory, recalls, crash scans (R94, R228 to R239), and what they do to
the data of lines.
-/

namespace Sys2Proof.Machine

/-- The room of a line's key. -/
def lineRoom (l : Nat) : Nat := l / 2 ^ 40
/-- Line address bits [45:6] of a line's key. -/
def lineAddr (l : Nat) : Nat := l % 2 ^ 40

/-- The home slice of a page (R229): the XOR of the two-bit groups of its page number. -/
def homeSlice (page : Nat) : Nat := (upTo 17).foldl (fun a i => a ^^^ (page / 4 ^ i % 4)) 0

/-- The slice that holds a line's entry (R229). -/
def State.sliceOf (s : State) (l : Nat) : Nat := ((s.page (linePage l)).loft).getD (homeSlice (pageNo (linePage l)))

/-- The set of a line within its slice (R228). -/
def setOf (l : Nat) : Nat :=
  let a := lineAddr l
  a % 2 ^ 20 ^^^ (a / 2 ^ 20) ^^^ (lineRoom l * 2 ^ 14)

/-- A line's directory entry; none is free. -/
def State.dirEntry (s : State) (l : Nat) : Option DirEntry := Tbl.find s.dir.entries l

/-- The state with the directory's entries replaced. -/
def State.setEntries (s : State) (t : Tbl DirEntry) : State := s.setDir { s.dir with entries := t }

/-- A line's entry set; free when it has none, or no holder and is not Lost. -/
def State.putEntry (s : State) (l : Nat) (e : Option DirEntry) : State :=
  match e with
  | none => s.setEntries (Tbl.del s.dir.entries l)
  | some e => s.setEntries (if e.ports = 0 ∧ e.st ≠ .lost then Tbl.del s.dir.entries l else Tbl.put s.dir.entries l e)

/-- BUSY (R230): a BackInv for the line is outstanding, or data it brought are not yet applied. -/
def State.dirBusy (s : State) (l : Nat) : Bool :=
  s.dir.recalls.any (fun r => decide (r.line = l)) || s.dir.returned.any (fun r => decide (r.line = l))

/-- The ports of a mask. -/
def portsOf (mask : Nat) : List Nat := (upTo 32).filter fun p => bitOf mask p

/-- BackInv sent to the ports of a mask for a line (R84, R94, R231); a port with one outstanding gets no second. Answers the
recalls sent, as 4,096 times the port plus the TAG. -/
def State.recallPorts (s : State) (l : Nat) (discard : Bool) : List Nat → List Nat × State
  | [] => ([], s)
  | p :: ps =>
    match s.dir.recalls.find? fun r => decide (r.line = l) && decide (r.port = p) with
    | some r =>
      let mark (x : Recall) : Recall := if discard ∧ x.line = l ∧ x.port = p then { x with discard := true } else x
      let s := s.setDir { s.dir with recalls := s.dir.recalls.map mark }
      let (ids, s) := s.recallPorts l discard ps
      ((4096 * p + r.tag) :: ids, s)
    | none =>
      let tag := s.dir.nextTag % 4096
      let d := { s.dir with recalls := s.dir.recalls ++ [⟨p, tag, l, s.now, discard⟩], nextTag := (tag + 1) % 4096 }
      let s := ((s.setDir d).queueTx p (headOf 8 (lineRoom l) tag (lineAddr l) 0) [] [(3, 1)]).send (.backInv p tag (lineRoom l) (lineAddr l))
      let (ids, s) := s.recallPorts l discard ps
      ((4096 * p + tag) :: ids, s)

/-- A line granted to holders (R231, R233). -/
def State.grant (s : State) (l : Nat) (st : DirMode) (ports : Nat) : State :=
  (s.setDir { s.dir with entries := Tbl.put s.dir.entries l ⟨st, ports, s.dir.grants, false⟩, grants := s.dir.grants + 1 })

/-- One victim recall counted; DIR_RECALL_PRESSURE past the limit in 64 courses, at most once per 64 courses (R233). -/
def State.victimCounted (s : State) (slice : Nat) : State :=
  let d := s.dir
  let old := decide (d.recentFrom + 64 * 4096 ≤ s.now)
  let d := { d with victims := d.victims + 1, recent := if old then 1 else d.recent + 1,
                    recentFrom := if old then s.now else d.recentFrom }
  let s := s.setDir d
  if s.val .dirRecallWarn 0 0 < d.recent && s.quiet64 d.warnAt then
    (s.setDir { d with warnAt := some s.now }).raise
      { code := 0x5804, sev := 1, region := slice, unit := 0x2C3, args := leBytes 4 d.recent ++ leBytes 4 d.entries.length }
  else s

/-- The ready stamp of a crash scan (R236): its start plus 438 courses. -/
def Scan.ready (c : Scan) : Nat := c.start + 438 * 4096

/-- The place of a line's set in a scan's walk: the sets passed before it. -/
def Scan.place (c : Scan) (l : Nat) : Nat := (setOf l + 2 ^ 20 - c.first) % 2 ^ 20

/-- The Hold a scan puts on a line whose entry holds a crashed port and which the walk has not passed (R236, R237): the latest of their ready
stamps. -/
def State.scanHold (s : State) (l : Nat) : Option Nat :=
  match s.dirEntry l with
  | none => none
  | some e =>
    let hits := (s.dir.scans ++ s.dir.downs).filter fun c => bitOf e.ports c.port && decide (c.walked ≤ c.place l)
    hits.foldl (fun (a : Option Nat) c => some (max (a.getD 0) c.ready)) none

/-- The victim that a line's request claims. -/
def State.setClaim (s : State) (l : Nat) (v : Option Nat) : State :=
  s.setDir { s.dir with claims := match v with | none => Tbl.del s.dir.claims l | some v => Tbl.put s.dir.claims l v }

/-- A free way for a line (R233): there is one, or the request waits for the recall of one victim, the least recently granted way that is neither
BUSY nor Lost. A way held by a port that crashed, whose scan decides it, can not be recalled and counts as BUSY (DEDUCED). -/
def State.dirSpace (s : State) (l : Nat) : Bool × State :=
  let sl := s.sliceOf l
  let ways := s.dir.entries.filter fun e => decide (setOf e.1 = setOf l) && decide (s.sliceOf e.1 = sl)
  if ways.length < 16 then (true, s.setClaim l none)
  else if (Tbl.find s.dir.claims l).any fun v => s.dirBusy v then (false, s)
  else
    let c := ways.filter fun e => decide (e.2.st ≠ DirMode.lost) && !s.dirBusy e.1 && (s.scanHold e.1).isNone
    match c with
    | [] => (false, s.setClaim l none)
    | x :: xs =>
      let v := xs.foldl (fun a b => if b.2.granted < a.2.granted then b else a) x
      (false, (((s.recallPorts v.1 false (portsOf v.2.ports)).2).victimCounted sl).setClaim l (some v.1))

/- ## Data that BackInv answers bring (R231) -/

/-- A freeze or unshelve that awaits a recall hears of its answer (R214, R244). -/
def State.recallDone (s : State) (id : Nat) : State :=
  let regions := Tbl.each s.pubs.regions fun _ g => { g with vers := g.vers.map fun v => { v with awaits := v.awaits.erase id } }
  let shelves := Tbl.each s.shelves fun _ f => { f with job := f.job.map fun j => { j with awaits := j.awaits.erase id } }
  (s.setPubs { s.pubs with regions := regions }).setShelves shelves

/-- The mark under which a version or a freeze awaits the crash outcome of a line (R214, R244). -/
def crashMark (l : Nat) : Nat := 2 ^ 20 + l

/-- A marked page of a shelve that awaits a recall or a crash outcome takes the line it brought (R214 step 2). -/
def State.captureLine (s : State) (id l : Nat) (d : List Byte) (poison : Bool) : State :=
  let bk := lineBrick l
  let put (o : Tbl (List Byte × Nat)) (base : List Byte × Nat) : Tbl (List Byte × Nat) :=
    let b := (Tbl.find o (bk % 16)).getD base
    Tbl.put o (bk % 16) (mergeLine b.1 (l % 4) d fullMask, setBit b.2 (l % 4) poison)
  let base : List Byte × Nat := match s.slotOf bk with
    | some x => (x.data, x.poison)
    | none => ((match s.plainOf bk with | .ok x => x | .error _ => List.replicate 256 0),
        recMask ((s.page (bk / 16)).brick (bk % 16)).record)
  let upd (m : MarkedPage) : MarkedPage := if m.page = bk / 16 then { m with based := put m.based base, changed := true } else m
  let job (j : ShelfJob) : ShelfJob :=
    if j.op = 1 ∧ j.begun ∧ j.awaits.contains id then { j with marked := j.marked.map upd } else j
  s.setShelves (Tbl.each s.shelves fun _ f => { f with job := f.job.map job })

/-- A line that waits for its page or its base. -/
def State.later (s : State) (x : Returned) : State := s.setDir { s.dir with returned := s.dir.returned ++ [x] }

/-- The dirty bytes that a write to a brick adds (R90, R134, R146, R245): a slot; a new page's group, or the whole stored size of a page that was CLEAN; with a
split, the page's second copy and the slots it has. -/
def State.writeCost (s : State) (k bk : Nat) (shared : Bool) : Nat :=
  let p := s.page k
  (if s.needsSlot bk then 256 else 0)
    + (match p.mode with
      | .new => 136
      | .clean => storedSize p.store + 8
      | _ => if shared ∧ p.mode = .dirty then storedSize p.store + 8 else 0)
    + (if shared then 256 * (s.landing.filter fun e => decide (e.1 / 16 = k) && !e.2.filling).length else 0)

/-- A line applied to its page as a full-line write (R231): at once where the brick's base is at hand; answers whether it was.
Versions that share the page and do not hold the line part from it first (R245). -/
def State.applyOne (s : State) (x : Returned) : Bool × State :=
  let l := x.line
  let k := linePage l
  let bk := lineBrick l
  let p := s.page k
  let home := homeSlice (pageNo k)
  if p.mode = .cellar ∨ p.mode = .demoted then (false, (s.needPage k false).2)
  else
    let s := if p.mode = .new then s.allocate k home else s
    match (if s.sharedBesides k x.of_ then s.partPage k home x.of_ else some s) with
    | none => (false, s)
    | some s =>
      match s.baseOf bk with
      | .ready data pm =>
        let r := mergeWrite .wr x.poison (l % 4) (lineBytes x.data) fullMask data pm
        (true, (s.writeSlot bk (l % 4) r.2.1 r.2.2).accepted k (decide (p.mode = .new)))
      | .filling => (false, s)
      | .fill => (false, (s.beginFill bk).queueRead bk 0)

/-- The versions that await a recall or a crash outcome (R244): region and version. -/
def State.awaiting (s : State) (id : Nat) : List (Nat × Nat) :=
  s.pubs.regions.flatMap fun g => (g.2.vers.filter fun v => v.awaits.contains id).map fun v => (g.1, v.version)

/-- A page entered in a version of a region. -/
def State.setVerPage (s : State) (g v off k : Nat) : State :=
  let upd (x : PubVer) : PubVer := if x.version = v then { x with pages := Tbl.put x.pages off k } else x
  s.setPubs { s.pubs with regions := Tbl.upd s.pubs.regions g ⟨0, []⟩ fun r => { r with vers := r.vers.map upd } }

/-- A line of a live page applied to a version that holds it (R244): the page is the live one still, or it never was written and
is the live one from now on; or the line goes into the version's own page, a new one where only the live page was written. -/
def State.applyVersion (s : State) (fresh : Bool) (x : Returned) (gv : Nat × Nat) : State :=
  let k := linePage x.line
  let off := pageNo k - s.val .pubBase gv.1 0 / 4096
  let own (s : State) (c : Nat) : State :=
    let y := { x with line := 64 * c + x.line % 64, of_ := [gv] }
    match s.applyOne y with
    | (true, s) => s
    | (false, s) => s.later y
  match ((Tbl.find s.pubs.regions gv.1).bind fun r => r.vers.find? fun v => v.version = gv.2).map (·.pages) with
  | none => s
  | some pages =>
    match Tbl.find pages off with
    | some c => if c = k then s else own s c
    | none =>
      if fresh then s.setVerPage gv.1 gv.2 off k
      else
        let n := s.pubs.copies + 1
        let c := 2 ^ 40 * n + k
        own ((s.setPubs { s.pubs with copies := n }).setVerPage gv.1 gv.2 off c) c

/-- A line applied to the live page, and to the versions that hold it and have parted from that page (R231, R244, R245). -/
def State.applyLine (s : State) (x : Returned) : State :=
  let k := linePage x.line
  let fresh := decide ((s.page k).mode = PageMode.new)
  match s.applyOne x with
  | (false, s) => s.later x
  | (true, s) => if 2 ^ 40 ≤ k then s else x.of_.foldl (fun s gv => s.applyVersion fresh x gv) s

/-- Lines that waited for their page or brick, tried again in order. -/
def State.applyReturned (s : State) : State :=
  let l := s.dir.returned
  l.foldl (fun s x => s.applyLine x) (s.setDir { s.dir with returned := [] })

/-- A BackInv is answered (R94, R231): the port's hold ends, returned data are applied, what waited for it goes on. -/
def State.answerRecall (s : State) (r : Recall) (data : Option (BitVec 512)) : State :=
  let s := (s.setDir { s.dir with recalls := s.dir.recalls.erase r })
  let s := match s.dirEntry r.line with
    | some e => s.putEntry r.line (some { e with ports := setBit e.ports r.port false })
    | none => s
  let id := 4096 * r.port + r.tag
  let frozen := s.shelves.any fun f => match f.2.job with
    | some j => decide (j.op = 1) && j.awaits.contains id | none => false
  let s := match data with
    | none => s
    | some d =>
      let x : Returned := ⟨r.line, d, false, s.awaiting id⟩
      let before := s.writtenSince (linePage r.line)
      let s := s.captureLine id r.line (lineBytes d) false
      if r.discard then x.of_.foldl (fun s gv => s.applyVersion false x gv) s
      else
        let s := s.applyLine x
        if frozen then s.markWritten (linePage r.line) before else s
  s.recallDone id

/-- What awaited a recall awaits the line's crash outcome instead (R214, R244). -/
def State.awaitCrash (s : State) (id l : Nat) : State :=
  let swap (a : List Nat) : List Nat := if a.contains id then a.erase id ++ [crashMark l] else a
  let regions := Tbl.each s.pubs.regions fun _ g => { g with vers := g.vers.map fun v => { v with awaits := swap v.awaits } }
  let shelves := Tbl.each s.shelves fun _ f => { f with job := f.job.map fun j => { j with awaits := swap j.awaits } }
  (s.setPubs { s.pubs with regions := regions }).setShelves shelves

/-- The outstanding recalls of a port that goes Down end unanswered: its crash scan decides the lines it owned (R94, R101). -/
def State.dropRecalls (s : State) (p : Nat) : State :=
  let gone := s.dir.recalls.filter fun r => r.port = p
  let s := (s.setDir { s.dir with recalls := s.dir.recalls.filter fun r => r.port ≠ p })
  gone.foldl (fun s r =>
    let id := 4096 * r.port + r.tag
    match s.dirEntry r.line with
    | some e => if e.st = .owned then s.awaitCrash id r.line else s.recallDone id
    | none => s.recallDone id) s

/- ## Crash scans (R234 to R239) -/

/-- A line's crash outcome is open: its owner crashed and the walk has not passed it, or it is Lost and not yet marked. -/
def State.crashOpen (s : State) (l : Nat) : Bool :=
  match s.dirEntry l with
  | none => false
  | some e => match e.st with
    | .owned => (s.scanHold l).isSome
    | .lost => !e.marked
    | .shared => false

/-- A version or a freeze still awaits something (R214, R244): a BackInv's answer, or an open crash outcome. -/
def State.stillAwaits (s : State) (ids : List Nat) : Bool :=
  ids.any fun i => if i < 2 ^ 20 then true else s.crashOpen (i - 2 ^ 20)

/-- A Lost line that a write cleared before its mark reached the landing (R238): the versions and freezes that hold it take the
poison into their own copies. -/
def State.crashCleared (s : State) (l : Nat) : State :=
  let id := crashMark l
  let x : Returned := ⟨l, 0, true, s.awaiting id⟩
  (x.of_.foldl (fun s gv => s.applyVersion false x gv) (s.captureLine id l (List.replicate 64 0) true)).recallDone id

/-- The sets that a walk passes up to now, one a cycle (R235). -/
def State.walkTo (s : State) (c : Scan) : Nat := min (2 ^ 20) ((s.now - c.start) * 2400 / 4096)

/-- The set at which the walk of the scans that run stands at a stamp; a walk begins at set 0 (DESIGN CHOICE: R235 gives no order). -/
def State.walkAt (s : State) (t : Nat) : Nat :=
  match s.dir.scans.head? with
  | none => 0
  | some c => (c.first + (t - c.start) * 2400 / 4096) % 2 ^ 20

/-- At the first boundary after a crashed port went Down its scan starts (R234, R239); one that runs is joined (R237). -/
def execHostCrashScanStart (port : Fin 32) (s : State) : Host.Outcome State Fault Refusal :=
  match s.dir.downs.find? fun c => decide (c.port = port.val) && decide (c.start ≤ s.now) with
  | none => .next s
  | some c =>
    let c' := { c with first := s.walkAt c.start }
    let s := (s.setDir { s.dir with downs := s.dir.downs.filter fun x => x.port ≠ port.val,
                                          scans := s.dir.scans ++ [c'] })
    .next (s.raise { code := 0x5801, sev := 2, unit := 0x2C3,
                     args := leBytes 1 port ++ leBytes 1 (bit01 c.declared) ++ leBytes 4 (s.shown c'.ready / 4096) })

/-- What the walk makes of one entry that holds the crashed port (R235): the entry, and whether it became Lost or reverted. -/
def State.walkEntry (s : State) (port l : Nat) (e : DirEntry) : Option DirEntry × Nat :=
  if !bitOf e.ports port then (some e, 0)
  else
    match e.st with
    | .owned =>
      if attrStaleOk (s.pageAttr (linePage l)) then (none, 2) else (some { e with st := .lost, ports := 0 }, 1)
    | _ =>
      let m := setBit e.ports port false
      if m = 0 then (none, 3) else (some { e with ports := m }, 3)

/-- A line as CRASH_BLOCK lists it (R249): room, reverted, address. -/
def crashWord (l : Nat) (reverted : Bool) : Nat := lineRoom l * 2 ^ 58 + bit01 reverted * 2 ^ 57 + lineAddr l * 64

/-- The lines that wait to be marked: Lost, the mark not in the landing yet. -/
def State.unmarked (s : State) : Tbl DirEntry := s.dir.entries.filter fun e => decide (e.2.st = DirMode.lost) && !e.2.marked

/-- The bytes under the ceiling that the marks of durable lines want ahead of every port write (R238). -/
def State.marksWant (s : State) : Nat :=
  (s.unmarked.map fun e => if attrDurable (s.pageAttr (linePage e.1)) then
    s.writeCost (linePage e.1) (lineBrick e.1) (s.sharedBesides (linePage e.1) (s.awaiting (crashMark e.1))) else 0).sum

/-- The bytes under the ceiling that completion lines still to be written want ahead of every port write (R267). -/
def State.linesWant (s : State) : Nat :=
  ((s.cores.calls.filter fun c => decide (c.mode = CallMode.ending)).map fun c =>
    let k := linePage (lineKey c.room c.line)
    if attrDurable (s.pageAttr k) then s.writeCost k (lineBrick (lineKey c.room c.line)) (s.isShared k) else 0).sum

/-- A Lost line's poison mark written into its brick through the landing (R238), once its base is at hand. It counts in the dirty total as a write
does; what Held port writes have reserved does not stand before it. -/
def State.markLost (s : State) (l : Nat) : State :=
  let k := linePage l
  let bk := lineBrick l
  let id := crashMark l
  match s.dirEntry l with
  | none => s
  | some e =>
    if e.st ≠ .lost ∨ e.marked ∨ (s.needsSlot bk ∧ s.landingFull) then s
    else if (s.page k).mode = .cellar ∨ (s.page k).mode = .demoted then (s.needPage k false).2
    else if attrDurable (s.pageAttr k) ∧ s.ceiling + (s.tier.reservations.map (·.bytes)).sum
        < s.dirtyStored + s.writeCost k bk (s.sharedBesides k (s.awaiting id)) then s
    else
      let x : Returned := ⟨l, 0, true, s.awaiting id⟩
      let before := s.writtenSince k
      let fresh := decide ((s.page k).mode = PageMode.new)
      let frozen := s.shelves.any fun f => match f.2.job with
        | some j => decide (j.op = 1) && j.awaits.contains id | none => false
      match s.applyOne x with
      | (false, s) => s
      | (true, s) =>
        let s := (s.captureLine id l (List.replicate 64 0) true).putEntry l (some { e with marked := true })
        let s := x.of_.foldl (fun s gv => s.applyVersion fresh x gv) s
        (if frozen then s.markWritten k before else s).recallDone id

/-- Poison marks not yet in the landing tried again (R238). -/
def State.markAllLost (s : State) : State :=
  s.unmarked.foldl (fun s e => s.markLost e.1) s

/-- CRASH_LINES for each room of a scan (R239). -/
def crashEvents (port : Nat) (lost reverted : List Nat) : List Ev :=
  ((upTo 64).filter fun r => (lost ++ reverted).any fun l => lineRoom l = r).map fun r =>
    let a := lost.filter fun l => lineRoom l = r
    let b := reverted.filter fun l => lineRoom l = r
    let low := (a ++ b).foldl (fun m l => min m (lineAddr l)) (2 ^ 40)
    { code := 0x5803, sev := 2, unit := srcRoom r, room := some r,
      args := leBytes 1 port ++ leBytes 5 low ++ leBytes 4 a.length ++ leBytes 2 (min 65535 b.length) }

/-- A scan that runs, changed. -/
def State.updScan (s : State) (port : Nat) (f : Scan → Scan) : State :=
  s.setDir { s.dir with scans := s.dir.scans.map fun c => if c.port = port then f c else c }

/-- The walk passes one entry that holds the crashed port (R235): what it makes of it, and what the scan counts. -/
def State.walkOne (s : State) (port l : Nat) : State :=
  match s.dirEntry l with
  | none => s
  | some e =>
    let (e', n) := s.walkEntry port l e
    let s := (s.putEntry l e').updScan port fun c =>
      if n = 3 then { c with cleared := c.cleared + 1 } else { c with found := Tbl.put c.found l (decide (n = 2)) }
    if n = 2 then s.recallDone (crashMark l) else if n = 1 then s.markLost l else s

/-- A scan's walk goes on to the present (R235): the entries of the sets passed since that hold the crashed port. -/
def State.walkScan (s : State) (c : Scan) : State :=
  let reach := s.walkTo c
  let hits := s.dir.entries.filter fun e => bitOf e.2.ports c.port && decide (c.walked ≤ c.place e.1) && decide (c.place e.1 < reach)
  (hits.foldl (fun s e => s.walkOne c.port e.1) s).updScan c.port fun c => { c with walked := reach }

/-- The walks of all scans go on to the present (R235, R237). -/
def State.walkScans (s : State) : State := s.dir.scans.foldl (fun s c => s.walkScan c) s

/-- The walk ends (R239): the events, and the list of the scan's lines. -/
def State.endScan (s : State) (c : Scan) : State :=
  let of_ (b : Bool) : List Nat := (c.found.filter fun x => x.2 = b).map (·.1)
  let lost := of_ false
  let rev := of_ true
  let words := c.found.map fun x => crashWord x.1 x.2
  let s := (s.setDir { s.dir with scans := s.dir.scans.filter fun x => x.port ≠ c.port, lists := (words.take 262144 :: s.dir.lists).take 4 })
  let s := s.raise { code := 0x5802, sev := 2, unit := 0x2C3,
                     args := leBytes 1 c.port ++ leBytes 4 lost.length ++ leBytes 4 rev.length
                       ++ leBytes 2 (min 65535 c.cleared) }
  s.raiseAll (crashEvents c.port lost rev)

end Sys2Proof.Machine
end

