-- ==== Sys2Proof/Machine/Stairs.lean ====
section
/-!
DEFINITION. Sys2Proof/Machine/Stairs.lean: stairs (R151 to R156, R220): steps, the position, prefetches, protection,
starvation, lateness.
-/

namespace Sys2Proof.Machine

/-- A prefetch must wait (R154): the room's protected bytes are half its Store quota, or it would pass the overshoot with no
page left to remove. -/
def State.stairStarves (s : State) (t m : Nat) : Bool :=
  let room := s.stairRoomOf t
  let q := (s.room room).effStore
  let need := 4096 * ((s.stepPages t m).filter fun k => !(s.page k).inStore).length
  decide (q ≤ 2 * s.protectedBytes room)
    || (decide (q + s.overshootLimit room < s.usedStore room + need)
        && !s.pages.any fun e => decide (pageRoom e.1 = room) && s.removable e.1 e.2)

/-- The prefetch of a step (R153, R154, R155): issued once a pass, or withheld while the stair is starved. One for the pass to
come is out while the step is protected; a step that the position has passed already is fetched and not protected. -/
def State.issueStep (s : State) (t m : Nat) (coming : Bool) : State :=
  let x := s.stair t
  if (if coming then x.protectedSteps.contains m else x.issued.contains m) ∨ (s.stairSteps t).length ≤ m then s
  else if s.stairStarves t m then
    let s' := s.setStair t { x with starved := true, starvedRaised := true,
                                    waiting := if x.waiting.contains m then x.waiting else x.waiting ++ [m] }
    if x.starvedRaised then s'
    else s'.raise { code := 0x3402, sev := 2, unit := srcRoom (s.stairRoomOf t),
                    args := leBytes 1 t ++ leBytes 1 m ++ leBytes 8 (s.protectedBytes (s.stairRoomOf t)) }
  else
    let w := x.waiting.erase m
    let passed := decide (m < x.position) && !coming
    let s := s.setStair t { x with issued := x.issued ++ [m], waiting := w, starved := !w.isEmpty,
                                   protectedSteps := if passed then x.protectedSteps else x.protectedSteps ++ [m] }
    let loft := s.stairLoft t && !passed
    (s.stepPages t m).foldl (fun s k =>
      let p := s.page k
      if p.mode = .cellar ∨ p.mode = .demoted then s.queueFetch k (.stair t (s.stairClassOf t) m) loft
      else if loft && p.loft.isNone then s.updPage k fun p => { p with promote := true } else s) s

/-- The steps a stair's prefetches have reached (R153): in order, every step up to the position plus k; those past the last, with wrap, are of
the pass to come. -/
def State.ahead (s : State) (t : Nat) : List (Nat × Bool) :=
  let x := s.stair t
  let n := (s.stairSteps t).length
  (upTo (x.position + x.k + 1)).filterMap fun m =>
    if m < n then some (m, false) else if s.stairWraps t ∧ n ≠ 0 then some (m % n, true) else none

/-- Steps now reached are issued (R153). -/
def State.issueAhead (s : State) (t : Nat) : State := (s.ahead t).foldl (fun s m => s.issueStep t m.1 m.2) s

/-- A waiting prefetch is issued when the condition clears (R154). -/
def State.unstarve (s : State) (t : Nat) : State := (s.stair t).waiting.foldl (fun s m => s.issueStep t m true) s

/-- The steps passed when the position moves from `a` to `b` of `n` (R152): forward those from `a` on before `b`; back, with wrap, those from
`a` on and those before `b`, and without wrap the step that the position moves off. -/
def passedSteps (wrap : Bool) (a b n : Nat) : List Nat :=
  if a ≤ b then (upTo n).filter fun m => decide (a ≤ m) && decide (m < b)
  else if wrap then (upTo n).filter fun m => decide (a ≤ m) || decide (m < b)
  else [a]

/-- Pages of steps that the position has passed are no longer held in the Loft by the stair (R153), but for those of a step still protected. -/
def State.releaseSteps (s : State) (t : Nat) (passed : List Nat) : State :=
  if !s.stairLoft t then s
  else
    let steps := s.stairSteps t
    let within (l : List Nat) (k : Nat) : Bool := decide (pageRoom k = s.stairRoomOf t) && l.any fun m => inStep (steps.getD m []) (pageNo k)
    s.setPages (Tbl.each s.pages fun k p =>
      if p.promote ∧ k < 2 ^ 40 ∧ within passed k ∧ !within (s.stair t).protectedSteps k then { p with promote := false } else p)

/-- A touch of a page moves a stair's position (R152): to the first step at or after the position, in stair order with wrap,
that holds the page. A pass ends as the position moves back to step 0 by wrap. -/
def State.moveStair (s : State) (t page : Nat) : State :=
  let x := s.stair t
  let steps := s.stairSteps t
  let n := steps.length
  match (upTo n).find? fun i => inStep (steps.getD ((x.position + i) % n) []) page with
  | none => s
  | some i =>
    let b := (x.position + i) % n
    if i = 0 then
      if (Tbl.find x.firstTouch b).isSome then s else s.setStair t { x with firstTouch := Tbl.put x.firstTouch b s.now }
    else
      let passed := passedSteps (s.stairWraps t) x.position b n
      let wrapped := decide (b < x.position)
      if wrapped && !s.stairWraps t && decide (x.position + 1 = n) then
        if h : t < 256 then s.fnTo (.stair ⟨t, h⟩) { s.fn (.stair ⟨t, h⟩) with state := .stopping, cause := 7 } else s
      else
        let wait := x.waiting.filter fun m => !passed.contains m
        let x' := { x with position := b, protectedSteps := x.protectedSteps.filter fun m => !passed.contains m,
                           waiting := wait, starved := x.starved && !wait.isEmpty,
                           firstTouch := Tbl.put x.firstTouch b s.now }
        let s := if wrapped && s.stairWraps t && decide (b = 0) then
            let late := x.late.length
            (s.setStair t { x' with passes := x.passes + 1, late := [], starvedRaised := false,
                                    issued := x'.protectedSteps, firstTouch := [(b, s.now)], passStart := s.now }).raise
              { code := 0x3403, sev := 0, unit := srcRoom (s.stairRoomOf t),
                args := leBytes 1 t ++ leBytes 4 (x.passes + 1) ++ leBytes 2 late }
          else s.setStair t x'
        (s.releaseSteps t passed).issueAhead t

/-- A step counted late, at most once a pass (R155): the look-ahead rises by one unless the stair is starved. -/
def State.stairLate (s : State) (t m units : Nat) : State :=
  let x := s.stair t
  if x.late.contains m then s
  else
    let late := max 1 (ceilDiv units 4096)
    let k' := if x.starved then x.k else min (s.stairMax t) (x.k + 1)
    let s := s.setStair t { x with late := x.late ++ [m], lateCount := x.lateCount + 1, lastLate := late, k := max x.k k' }
    (s.raise { code := 0x3401, sev := 1, unit := srcRoom (s.stairRoomOf t),
               args := leBytes 1 t ++ leBytes 1 m ++ leBytes 4 late ++ leBytes 1 x.k ++ leBytes 1 (max x.k k') }).issueAhead t

/-- A Hold for a page of a stair's step in use makes the step late in trigger mode (R155). -/
def State.holdLate (s : State) (k ready : Nat) : State :=
  s.stairs.foldl (fun s e =>
    let t := e.1
    let x := s.stair t
    if s.stairRuns t && !s.stairTimed t && decide (s.stairRoomOf t = pageRoom k)
        && inStep ((s.stairSteps t).getD x.position []) (pageNo k) then
      s.stairLate t x.position (ready - Tbl.get x.firstTouch x.position s.now)
    else s) s

/-- What a touch does to a page's record (R136, R139, R140): counters, heat, promotion. -/
def State.touchRecord (s : State) (k region : Nat) : State :=
  let p := s.page k
  let p' := s.touchPage p region
  let s := if p.mode = .new then s else s.setPage k p'
  let pl := attrPlacement (s.pageAttr k)
  let rises := decide (s.heatOf p < s.val .loftPromoteHeat 0 0) && decide (s.val .loftPromoteHeat 0 0 ≤ s.heatOf p')
  let want := p.inStore && p.loft.isNone && !s.tier.promo.contains k
    && ((decide (pl = 0 ∨ pl = 2) && rises) || decide (pl = 1))
  if want then s.setTier { s.tier with promo := s.tier.promo ++ [k] } else s

/-- A touch of a page (R136, R139, R140, R152, R218): its record, the stairs of its room, a shelf's recorder. -/
def State.touch (s : State) (k region : Nat) : State :=
  let s := s.touchRecord k region
  let g := groupOf (pageNo k)
  let rec_ (f : Shelf) : Shelf :=
    if f.recording ∧ f.room = pageRoom k ∧ f.order.length < 65280 ∧ inStep f.ranges (pageNo k) ∧ !f.order.contains g then
      { f with order := f.order ++ [g] } else f
  let s := if k < 2 ^ 40 then s.setShelves (Tbl.each s.shelves fun _ f => rec_ f) else s
  if k < 2 ^ 40 then
    s.stairs.foldl (fun s e =>
      if s.stairRuns e.1 && decide (s.stairRoomOf e.1 = pageRoom k) then s.moveStair e.1 (pageNo k) else s) s
  else s

/-- A stair's prefetch in deadline mode (R153): at the step's deadline less 28 courses and the step's stored bytes at half
the Cellar read rate in service at the last boundary (R156). -/
def State.stairDue (s : State) (t m : Nat) : Bool :=
  let bytes := ((s.stepPages t m).map fun k => match (s.page k).slot.bind s.image with
    | some i => storedSize i.bricks | none => storedSize (s.page k).store).sum
  let lead := 28 + ceilDiv (bytes * 32) (115000 * max 1 s.tier.channels)
  decide (s.stairDeadlineAt t m ≤ s.now + lead * 4096)

/-- The prefetch of a step at its deadline less its lead (R153). -/
def execStairDeadlinePrefetch (stair : Fin 256) (step : Byte) (s : State) : Host.Outcome State Fault Refusal :=
  .next (if s.stairRuns stair && s.stairTimed stair && s.stairDue stair step.toNat then s.issueStep stair step.toNat false else s)

end Sys2Proof.Machine
end

