-- ==== Sys2Proof/Machine/Far.lean ====
section
/-!
DEFINITION. Sys2Proof/Machine/Far.lean: pools, bases and homes, and the move of a far page at each of its three parties
(R489 to R495, R497, R499).
-/

namespace Sys2Proof.Machine

/-- This module's index. -/
def State.ownIndex (s : State) : Nat := s.val .moduleIndex 0 0

/-- The members of a pool room, in order (R490, R501). -/
def State.poolMembers (s : State) (room : Nat) : List Nat :=
  ((upTo 256).map fun i => ofLe (((s.blob .poolMembers room 0 (List.replicate 512 255)).drop (2 * i)).take 2)).takeWhile (· ≠ 65535)

/-- A page of a pool window while the module is Joined or Fenced (R490, R491). -/
def State.isPool (s : State) (k : Nat) : Bool :=
  (decide (s.vault.mode = .joined) || decide (s.vault.mode = .fenced)) && decide (k < 2 ^ 40)
    && (match s.windowOf k with | some w => bitOf (s.val .poolWindows (pageRoom k) 0) w | none => false)
    && !(s.poolMembers (pageRoom k)).isEmpty

/-- The base of a pool page (R490). -/
def State.baseModule (s : State) (k : Nat) : Nat :=
  let m := s.poolMembers (pageRoom k)
  m.getD (pageNo k / max 1 (s.val .poolStripe (pageRoom k) 0) % m.length) 0

/-- A page this module bases. -/
def State.basedHere (s : State) (k : Nat) : Bool := decide (s.baseModule k = s.ownIndex)

/-- A page's home is this module (R490 to R492): it bases it and no record says otherwise, or it holds it by a confirmed
move. -/
def State.homedHere (s : State) (k : Nat) : Bool :=
  if s.basedHere k then
    match Tbl.find s.vault.records k with | some f => decide (f.home = s.ownIndex) | none => true
  else s.vault.here.contains k

/-- A far page (R491), or one frozen for a move (R492). -/
def State.isFar (s : State) (k : Nat) : Bool := s.isPool k && !s.homedHere k

/-- A peer's state. -/
def State.peer (s : State) (m : Nat) : Peer := Tbl.get s.vault.peers m ⟨.unknown, 0, 0, 0, false⟩
/-- The state with a peer replaced. -/
def State.setPeer (s : State) (m : Nat) (p : Peer) : State := s.setVault { s.vault with peers := Tbl.put s.vault.peers m p }

/-- A far page lost to this module (R499). -/
def State.farLost (s : State) (k : Nat) : Bool :=
  let b := s.baseModule k
  decide (s.vault.mode = .fenced) || s.vault.lostPages.contains k
    || (decide (b ≠ s.ownIndex) && decide ((s.peer b).st ≠ .joined))
    || (decide (b = s.ownIndex) && match Tbl.find s.vault.records k with
        | some f => decide ((s.peer f.home).st = .lost) || decide ((s.peer f.home).st = .fenced) | none => false)

/-- The port a PageMove goes out on: the Up peer port whose partner is the member, else the lowest Up peer port, from which a switch
forwards it (R489). -/
def State.movePort (s : State) (dest : Nat) : Option Nat :=
  let up := (upTo 32).filter fun p => s.isUp p && decide (s.roleOf p = .peer)
  match up.find? fun p => match (s.port p).partner with | some x => decide (x.modIdx.toNat = dest) | none => false with
  | some p => some p
  | none => up.head?

/-- The header of a PageMove (R489): W1 of MoveData carries SECTORS and GENERATION, of the other kinds SUBJECT and CAUSE; Alive and Relay name
no page. -/
def MoveMsg.head (m : MoveMsg) (tag : Nat) : Nat :=
  let bare := decide (m.kind = 11) || decide (m.kind = 12)
  let arg := m.peer % 4096 * 2 ^ 52 + m.kind % 16 * 2 ^ 48
    + if m.kind = 3 then (m.data.length - 128) / 32 % 256 * 2 ^ 40 + m.subject % 2 ^ 32 else m.subject % 4096 * 2 ^ 36 + m.cause % 256 * 2 ^ 28
  headOf 0x28 (if bare then 0 else pageRoom m.page) tag (if bare then 0 else 64 * (m.page % 2 ^ 34)) arg

/-- A PageMove message on its way (R489): it takes a TAG and RWD credits, one for each data slot; without a port or credits it waits 64
courses, as one answered BUSY does (DESIGN CHOICE). -/
def State.sendMove (s : State) (m : MoveMsg) : State :=
  let slots := (m.data.length + 15) / 16
  let later := s.setVault { s.vault with again := s.vault.again ++ [(s.now + 64 * 4096, m)] }
  match s.movePort m.peer with
  | none => later
  | some p =>
    if s.creditLeft p 1 = 0 ∨ s.creditLeft p 2 < slots then later
    else
      let tag := (s.port p).odTag
      ((s.queueTx p (m.head tag) m.data [(1, 1), (2, slots)]).updPort p fun q =>
        { q with moveOpen := Tbl.put q.moveOpen tag m, odTag := (tag + 1) % 4096 }).send (.move p tag m)

/-- The PageMove messages a port had not answered when its link ended are sent again. -/
def State.movesBack (s : State) (p : Nat) : State :=
  let l := (s.port p).moveOpen.map fun e => (s.now, e.2)
  (s.updPort p fun q => { q with moveOpen := [] }).setVault { s.vault with again := s.vault.again ++ l }

/-- A PageMove message sent to another member (R489, R498). -/
def State.tell (s : State) (dest kind subject cause k : Nat) (data : List Byte) : State :=
  (s.setPeer dest { s.peer dest with sent := s.now }).sendMove ⟨dest, kind, subject, cause, k, data⟩

/-- The page group in eight slots and the sectors, as ciphertext (R489 MoveData, R492). -/
def movedBytes (group : List Byte) (bs : List Laid) : List Byte := fit 128 group ++ bs.flatMap (·.sectors)

/-- The bricks that MoveData brings: their records from the page group, which lies under the generation sent and GROUP_SEQ 0 (R197, R489,
R492), and their sectors in turn, given check bytes. What does not decrypt under this module's key gives records and bodies that fail
R182. -/
def State.movedBricks (s : State) (k gen : Nat) (data : List Byte) : List Laid :=
  ((s.openGroup k gen 0 (data.take 128)).foldl (fun (a : List Laid × Nat) r =>
    let n := 32 * recSectors r
    let c := (data.drop a.2).take n
    let l : Laid := ⟨r, c, sectorChecks (c.length / 32) c, [], none⟩
    let st := s.openBrick k a.1.length gen l
    (a.1 ++ [{ l with tables := tablesNamed st, base := baseNamed st }], a.2 + n)) ([], 128)).1

/-- The bricks of a page image in plaintext, as a packed image has them (R204): sixteen records, then the sectors. -/
def bricksOf (data : List Byte) : List Stored :=
  ((upTo 16).foldl (fun (a : List Stored × Nat) b =>
    let r := ofLe ((data.drop (8 * b)).take 8)
    let n := 32 * recSectors r
    (a.1 ++ [⟨r, (data.drop a.2).take n⟩], a.2 + n)) ([], 128)).1

/-- When a move would land at its requester (R149, R492): for a page in the Cellar 28 courses from now and the 580 units on the
link that the chapter's worked example has, one course else. -/
def State.moveLanding (s : State) (k : Nat) : Nat :=
  if (s.page k).mode = .cellar ∨ (s.page k).mode = .demoted then s.now + 28 * 4096 + 580 else s.now + 4096

/-- When the pins on a page that has moved in end (R96, R489): 64 courses past the latest ready stamp owed for it; at once where
none is owed. -/
def State.pinEnd (s : State) (k : Nat) : Nat :=
  s.reqs.held.foldl (fun t h => if linePage (lineKey h.room h.line) = k then max t (h.ready + 64 * 4096) else t)
    (max s.now (s.page k).pinUntil)

/- ## The home (R492 step 3, 6) -/

/-- A frozen page is sent once its lines are recalled, its slots drained and its Store copy at hand (R492 step 3). -/
def State.tryLeave (s : State) (k : Nat) : State :=
  match Tbl.find s.vault.leaving k with
  | none => s
  | some l =>
    let p := s.page k
    let busy := s.dir.entries.any (fun e => decide (linePage e.1 = k) && decide (e.2.st ≠ DirMode.lost))
      || s.dir.recalls.any fun r => decide (linePage r.line = k)
    if l.sent ∨ busy ∨ s.inLanding k then s
    else if p.mode = .new then
      (s.setVault { s.vault with leaving := Tbl.put s.vault.leaving k { l with sent := true } }).tell l.target 4 0 0 k []
    else if !p.inStore then s
    else
      let s := s.advanceGen k
      let q := s.page k
      let d := movedBytes q.group q.store
      (s.setVault { s.vault with leaving := Tbl.put s.vault.leaving k { l with sent := true } }).tell l.target 3
        ((s.page k).gen) 0 k d

/-- The home freezes a page it is ordered to send (R492 step 3), sends MoveSoon where it cannot send within a course, and
sends when it can. -/
def State.freezePage (s : State) (k target : Nat) : State :=
  let s := s.setVault { s.vault with leaving := Tbl.put s.vault.leaving k ⟨target, false, s.moveLanding k⟩ }
  let lines := s.dir.entries.filter fun e => decide (linePage e.1 = k)
  let s := lines.foldl (fun s e => (s.recallPorts e.1 false (portsOf e.2.ports)).2) s
  let s := s.queueSlots fun b _ => decide (b / 16 = k)
  let p := s.page k
  let s := if p.mode = .cellar ∨ p.mode = .demoted then (s.needPage k false).2 else s
  let s' := s.tryLeave k
  match Tbl.find s'.vault.leaving k with
  | some l => if l.sent then s' else s'.tell target 5 0 0 k (leBytes 8 (s.shown l.landing))
  | none => s'

/-- The old home frees its copies (R492 step 6). -/
def State.releaseOld (s : State) (k : Nat) : State :=
  let old := (s.page k).slot
  let s := s.setLanding (Tbl.keep s.landing fun b _ => decide (b / 16 ≠ k))
  let s := (s.leaveStore k .new).updPage k Page.freed
  let s := match old with | some o => s.releaseSlot o | none => s
  (s.setVault { s.vault with leaving := Tbl.del s.vault.leaving k, here := s.vault.here.erase k }).settleOverdraft (pageRoom k)

/-- The old home unfreezes a page whose move is aborted (R495, R499). -/
def State.unfreeze (s : State) (k : Nat) : State := s.setVault { s.vault with leaving := Tbl.del s.vault.leaving k }

/- ## The requester (R491, R492 steps 1, 4, 6) -/

/-- The reservation of a far page given up. -/
def State.dropReserve (s : State) (k : Nat) : State :=
  s.setTier { s.tier with reservations := s.tier.reservations.filter fun r => !(decide (r.page = k) && decide (r.port = 255)) }

/-- The requester serves the page (R492 step 6), or discards what landed on an abort (R495). -/
def State.confirm (s : State) (k : Nat) (done : Bool) : State :=
  let landed := decide (Tbl.find s.vault.far k = some .landed)
  let s := (s.setVault { s.vault with far := Tbl.del s.vault.far k }).dropReserve k
  if done && landed then s.setVault { s.vault with here := if s.basedHere k then s.vault.here else s.vault.here ++ [k] }
  else if landed then s.releaseOld k else s

/- ## The base (R492 steps 2, 5; R493) -/

/-- The base commits a move (R492 step 5): MOVE_DONE, the home set, MOVING cleared, MoveRelease done to both parties. -/
def State.commitMove (s : State) (k pinEnd : Nat) : State :=
  match Tbl.find s.vault.records k with
  | none => s
  | some f =>
    match f.target with
    | none => s
    | some t =>
      let dwell := max (s.now + 4096 * s.val .poolDwell 0 0) pinEnd
      let rec' := if t = s.ownIndex then Tbl.del s.vault.records k
        else Tbl.put s.vault.records k { f with home := t, target := none, dwell := dwell }
      let s := (s.setVault { s.vault with records := rec' }).raise
        { code := 0xB011, sev := 1, unit := srcRoom (pageRoom k),
          args := leBytes 5 (pageNo k) ++ leBytes 2 f.home ++ leBytes 2 t }
      let s := if f.home = s.ownIndex then s.releaseOld k else s.tell f.home 7 0 0 k []
      if t = s.ownIndex then s.confirm k true else s.tell t 7 0 0 k []

/-- The base aborts a move (R495, R499): MOVE_ABORTED, MoveRelease abort to both parties. -/
def State.abortMove (s : State) (k : Nat) : State :=
  match Tbl.find s.vault.records k with
  | none => s
  | some f =>
    match f.target with
    | none => s
    | some t =>
      let rec' := if f.home = s.ownIndex then Tbl.del s.vault.records k
        else Tbl.put s.vault.records k { f with target := none }
      let s := (s.setVault { s.vault with records := rec' }).raise
        { code := 0xB012, sev := 2, unit := srcRoom (pageRoom k),
          args := leBytes 5 (pageNo k) ++ leBytes 2 f.home ++ leBytes 2 t }
      let s := if f.home = s.ownIndex then s.unfreeze k else s.tell f.home 7 0 1 k []
      if t = s.ownIndex then s.confirm k false else s.tell t 7 0 1 k []

/-- A run of bays of its region is free for a page's image that arrives (R316, R492 step 4). -/
def State.pageFits (s : State) (k gen : Nat) (data : List Byte) : Bool :=
  (s.findRun (s.frameRegion (homeSlice (pageNo k))) (baysFor (s.movedBricks k gen data) [])).isSome

/-- The requester lands the page and acknowledges (R492 step 4, R494); its message is taken where a run is free (`pageFits`). -/
def State.landPage (s : State) (k gen : Nat) (data : Option (List Byte)) : State :=
  let pin := s.pinEnd k
  let s := match data with
    | none => s.setPage k (s.page k).freed
    | some d =>
      let bs := s.movedBricks k gen d
      let r := s.frameRegion (homeSlice (pageNo k))
      let bays := baysFor bs []
      let f := s.findFrame r
      let start := (s.findRun r bays).getD 0
      let durable := attrDurable (s.pageAttr k)
      let s := s.setStore { s.store with frames := Tbl.put s.store.frames f ⟨k, start, bays, none⟩ }
      (s.setPage k { Page.init with mode := if durable then .dirty else .volatile, bricks := bs, frame := some f, gen := gen,
                                    group := d.take 128, groupCheck := sectorChecks 4 (d.take 128), gens := max (s.page k).gens (gen + 1),
                                    dirtySince := s.now, pinUntil := pin }).settleOverdraft (pageRoom k)
  let s := s.setVault { s.vault with far := Tbl.put s.vault.far k .landed }
  if s.basedHere k then s.commitMove k pin else s.tell (s.baseModule k) 6 0 0 k (leBytes 8 (s.shown pin))

/-- A deferral's or refusal's answer to a requester (R493, R497): MoveDefer with its retry stamp, MoveRefused. -/
def State.putOff (s : State) (k requester cause retry : Nat) : State :=
  if requester = s.ownIndex then
    if cause = 6 ∨ cause = 7 ∨ cause = 9 then
      s.setVault { s.vault with far := Tbl.put s.vault.far k (.deferred retry) }
    else
      let s := (s.setVault { s.vault with far := Tbl.del s.vault.far k }).dropReserve k
      if cause = 10 then s.setVault { s.vault with lostPages := s.vault.lostPages ++ [k] } else s
  else if cause = 6 ∨ cause = 7 ∨ cause = 9 then s.tell requester 8 0 cause k (leBytes 8 (s.shown retry))
  else s.tell requester 9 0 cause k []

/-- The base takes a MoveReq (R492 step 2, R493, R497). The order of its checks is that of the causes' tables (DEDUCED). -/
def State.orderMove (s : State) (k requester : Nat) : State :=
  let f := Tbl.get s.vault.records k ⟨s.ownIndex, none, 0, 0⟩
  let home := f.home
  if !s.isPool k || !s.basedHere k then s.putOff k requester 1 0
  else if requester ≠ s.ownIndex ∧ (s.peer requester).st = .fenced then s.putOff k requester 3 0
  else if requester ≠ s.ownIndex ∧ (s.peer requester).st ≠ .joined then s.putOff k requester 2 0
  else if s.isAdrift then s.putOff k requester 4 0
  else if home ≠ s.ownIndex ∧ ((s.peer home).st = .lost ∨ (s.peer home).st = .fenced) then s.putOff k requester 10 0
  else if f.target.isSome then s.putOff k requester 6 (boundaryAfter f.commit)
  else if s.now < f.dwell then s.putOff k requester 7 f.dwell
  else if 16777216 ≤ s.vault.records.length ∧ (Tbl.find s.vault.records k).isNone then s.putOff k requester 5 0
  else if s.power.keeperDown || !s.tally.held.isEmpty || s.tally.infoOff || decide (ringSize ≤ s.tally.undrained) then
    s.putOff k requester 9 (boundaryAfter s.now)
  else
    let s := s.raise { code := 0xB010, sev := 1, unit := srcRoom (pageRoom k),
                       args := leBytes 5 (pageNo k) ++ leBytes 2 home ++ leBytes 2 requester }
    let commit := s.moveLanding k + 4096
    let s := s.setVault { s.vault with records := Tbl.put s.vault.records k ⟨home, some requester, f.dwell, commit⟩ }
    if home = s.ownIndex then s.freezePage k requester else s.tell home 2 requester 0 k []

/-- A far page asked for (R491, R492 step 1): 4,232 stored bytes reserved and MoveReq sent to the base, unless a move is
already asked for; an adrift module asks for none (R497), nor one whose free slots are below SLOT_LOW (R343). The answer says whether the reservation stands. -/
def State.askFar (s : State) (k : Nat) : Bool × State :=
  if s.isAdrift ∨ s.slotsLow then (true, s)
  else
    match Tbl.find s.vault.far k with
    | some (.deferred t) => if s.now < t then (true, s) else (true, go s)
    | some _ => (true, s)
    | none =>
      if !s.fits 4232 then (false, s)
      else
        let r : Reservation := { port := 255, page := k, line := 0, bytes := 4232, bricks := 0, until_ := 0 }
        (true, go (s.setTier { s.tier with reservations := s.tier.reservations ++ [r] }))
where
  /-- The request itself. -/
  go (s : State) : State :=
    let s := s.setVault { s.vault with far := Tbl.put s.vault.far k .asked }
    if s.basedHere k then s.orderMove k s.ownIndex else s.tell (s.baseModule k) 1 s.ownIndex 0 k []

/-- POOL_LOSS, once per room per peer (R499). -/
def State.poolLoss (s : State) (k : Nat) : State :=
  let room := pageRoom k
  let b := s.baseModule k
  let m := if b = s.ownIndex then (Tbl.get s.vault.records k ⟨b, none, 0, 0⟩).home else b
  if s.vault.lossSaid.contains (room, m) then s
  else (s.setVault { s.vault with lossSaid := s.vault.lossSaid ++ [(room, m)] }).raise
    { code := 0xB013, sev := 2, unit := srcRoom room, args := leBytes 2 m ++ leBytes 1 (bit01 (attrPoolFatal (s.pageAttr k))) }

end Sys2Proof.Machine
end

