-- ==== Sys2Proof/Machine/Pack.lean ====
section
/-!
DEFINITION. Sys2Proof/Machine/Pack.lean: the arithmetic of the pack: its energy (R390), what the energy covers (R393), and the moment at
which charging will have raised the ceiling (R389, R394).
-/

namespace Sys2Proof.Machine

/- ## Energy (R390, R393) -/

/-- Pack voltage in mV. -/
def Cistern.packMv (c : Cistern) : Nat := (c.cells.map (·.mv)).sum

/-- A cell's capacitance at its temperature, in 10 µF (R390); the fused table's factor at 25 °C is 1. -/
def cellFarads (i : Nat) (x : Cell) : Nat := x.cap * (if x.temp = 250 then 1000 else Config.tempFactor i x.temp)

/-- Pack energy in 10^-17 J from capacitances in 10 µF and voltages in µV (R390). -/
def packEnergy (l : List (Nat × Nat)) : Nat :=
  let charges := l.map fun x => x.1 * (x.2 - 2200000)
  let q := charges.foldl min (charges.headD 0)
  (l.map fun x => q * x.2 - ceilDiv (q * q) (2 * x.1)).sum

/-- Capacitances and voltages of the pack as they are. -/
def Cistern.volts (c : Cistern) : List (Nat × Nat) := c.cells.zipIdx.map fun x => (cellFarads x.2 x.1, x.1.mv * 1000)

/-- The pack's e in 10^-17 J (R390). -/
def Cistern.e (c : Cistern) : Nat := packEnergy c.volts

/-- by_energy in stored bytes, whole MB (R393): `e` in 10^-17 J, the reserve in J, j in 0.01 J per GB. -/
def byEnergyOf (e reserve j : Nat) : Nat := (85 * e - reserve * 10 ^ 19) / (max 440 j * 10 ^ 14) * 1000000

/- ## Charging (R389, R394) -/

/-- Every cell is at 3.78 V. -/
def Cistern.full (c : Cistern) : Bool := c.cells.all fun x => decide (3780 ≤ x.mv)

/-- Charging may run (R389): every cell within 0 to 60 °C, no fault. -/
def Cistern.mayCharge (c : Cistern) : Bool :=
  c.fault.isNone && c.cells.all fun x => decide (0 ≤ x.temp) && decide (x.temp ≤ 600)

/-- The cells joined in series, in 10 µF. -/
def seriesFarads (l : List (Nat × Nat)) : Nat := 10 ^ 15 / max 1 (l.map fun x => 10 ^ 15 / max 1 x.1).sum

/-- Cells to which each the charge `q` in 10^-11 C has been given; a cell at 3.78 V is bled. -/
def charged (l : List (Nat × Nat)) (q : Nat) : List (Nat × Nat) := l.map fun x => (x.1, min (max x.2 3780000) (x.2 + q / max 1 x.1))

/-- Cells after a number of courses of charging: 1.5 A up to 40 V, 60 W from there. -/
def afterCharge (l : List (Nat × Nat)) (courses : Nat) : List (Nat × Nat) :=
  let c := seriesFarads l
  let lack := 40000000 - (l.map (·.2)).sum
  let slow := ceilDiv (lack * c) 300000
  if courses ≤ slow then charged l (300000 * courses)
  else
    let l := charged l (lack * c)
    let v := (l.map (·.2)).sum
    charged l (c * (Nat.sqrt (v * v + 2 * (courses - slow) * 12000000000000 / max 1 c) - v))

/-- The least number below 2^fuel past `from_` that passes a test which, once passed, stays passed. -/
def leastFrom (p : Nat → Bool) : Nat → Nat → Nat
  | 0, from_ => from_
  | f + 1, from_ => if p (from_ + 2 ^ f - 1) then leastFrom p f from_ else leastFrom p f (from_ + 2 ^ f)

/-- The recomputation at which charging will have raised the ceiling to `want` bytes, if it will (R394). -/
def State.chargeReady (s : State) (want : Nat) : Option Nat :=
  let c := s.cistern
  let zone := (s.zoneReady - 1000000000) / 1000000 * 1000000
  let first := s.time.course / 1000 * 1000 + 1000
  let room (k : Nat) : Bool :=
    decide (want ≤ byEnergyOf (packEnergy (afterCharge c.volts (first + 1000 * k - s.time.course))) (s.val .cisternReserve 0 0) c.j)
  let k := leastFrom room 20 0
  if c.mode = .charging ∧ c.mayCharge ∧ !c.distrusted ∧ want ≤ zone ∧ room k then some (stampOf (first + 1000 * k) 0) else none

end Sys2Proof.Machine
end

