-- ==== Sys2Proof/Machine/Requests.lean ====
section
/-!
DEFINITION. Sys2Proof/Machine/Requests.lean: line requests: admission (R88), the order of a port's requests (R90), Holds
(R95 to R99, R150), what serves them (R89, R92, R138, R192, R231, R248), and a port going Down (R101, R102).
-/

namespace Sys2Proof.Machine

/-- The state with the open requests replaced. -/
def State.setOpen (s : State) (l : List OpenReq) : State := s.setReqs { s.reqs with opened := l }
/-- The state with the Held requests replaced. -/
def State.setHeld (s : State) (l : List HeldReq) : State := s.setReqs { s.reqs with held := l }

/-- A response as the link layer takes it (R85): Hold, CallAck and the answers to Publish and Open in LongRsp, others in an entry that a
PackRsp slot may hold. With data it takes DRS credits, else an RSP credit (R86). -/
def responseMsg (now tag code : Nat) (data : Option (BitVec 512)) (arg : Nat) (long : Bool) (due : Option TxDue) : TxMsg :=
  let d := bit01 data.isSome
  ⟨0x3D * 2 ^ 58 + code * 2 ^ 54 + tag * 2 ^ 42 + d * 2 ^ 41 + 2 ^ 64 * arg, match data with | some x => lineBytes x | none => [],
    if data.isSome then [(5, 1), (6, 4)] else [(4, 1)],
    if long || decide (code = 1) then none else some (code * 2 ^ 24 + tag * 2 ^ 12 + d * 2 ^ 11), now, due⟩

/-- A response given to the link layer, with what its data are charged as; of a port that is not Up it is discarded (R101). The
ready stamp of a Hold counts from the epoch in force. -/
def State.respondFor (s : State) (p tag code : Nat) (data : Option (BitVec 512)) (arg : Nat) (long : Bool) (due : Option TxDue) : State :=
  let arg := if code = 1 ∧ arg < 2 ^ 64 - 1 then s.shown arg else arg
  if s.isLinked p then
    (s.updPort p fun q => { q with tx := q.tx ++ [responseMsg s.now tag code data arg long due] }).send (.resp p tag code data arg)
  else s

/-- A response of which nothing is charged. -/
def State.respond (s : State) (p tag code : Nat) (data : Option (BitVec 512)) (arg : Nat) (long : Bool := false) : State :=
  s.respondFor p tag code data arg long none

/-- The answer to an open request, which a port that has been Down since does not get (R101). A read's data are charged to its pair (R50), and
its latency counts unless it was Held, or lies in a Cellar-only window (R123). -/
def State.answerReq (s : State) (r : OpenReq) (code : Nat) (data : Option (BitVec 512)) : State :=
  let k := linePage (lineKey r.room r.line)
  let timed := r.heldFor.isNone && decide (attrPlacement (s.pageAttr k) ≠ 3)
  if r.gone then s
  else s.respondFor r.port r.tag code data 0 false
    (if code = 0 ∧ data.isSome then some ⟨8 * r.room + s.pageClass k, if timed then some r.admitted else none⟩ else none)

/-- The answer to a Publish or an Open (R85), which a port that has been Down since does not get (R101). -/
def State.answerPub (s : State) (gone : Bool) (p tag code arg : Nat) : State := if gone then s else s.respond p tag code none arg true

/-- What a port asked for before it went Down is carried out, its answers discarded (R101). -/
def State.orphan (s : State) (p : Nat) : State :=
  let s := s.setReqs { s.reqs with opened := s.reqs.opened.map fun r => if r.port = p then { r with gone := true } else r }
  s.setPubs { s.pubs with waiting := s.pubs.waiting.map fun q => if q.port = p then { q with gone := true } else q,
                          opens := s.pubs.opens.map fun o => if o.port = p then { o with gone := true } else o }

/-- A port's TAG names a transaction of its partner that is open (R88). -/
def State.tagOpen (s : State) (p tag : Nat) : Bool :=
  let same (q t : Nat) (gone : Bool) : Bool := decide (q = p) && decide (t = tag) && !gone
  s.reqs.opened.any (fun x => same x.port x.tag x.gone) || s.pubs.waiting.any (fun x => same x.port x.tag x.gone)
    || s.pubs.opens.any fun x => same x.port x.tag x.gone

/-- An On port whose link is lost is Starting again, and its training begins (R77, R459). -/
def State.restartLink (s : State) (p : Nat) : State :=
  if h : p < 32 then
    let f := s.fn (.port ⟨p, h⟩)
    if f.state = .on then
      (s.fnTo (.port ⟨p, h⟩) { f with state := .starting, cause := 4 }).updPort p fun q => { q with link := .detect, since := s.now }
    else s
  else s

/-- A port goes Down (R77, R101, R234): PORT_DOWN, its recalls end, and a Host or Companion port that was Up counts as crashed; where
the port was not stopped, it trains again. -/
def State.portDown (s : State) (p cause : Nat) (declared : Bool) : State :=
  let q := s.port p
  if q.link = .down then s
  else
    let crash := s.isLinked p && (decide (q.role = .host) || decide (q.role = .companion))
    let s := s.setPort p ({ q with link := .down, since := s.now, width := 0, hold := false, partner := none, announced := [],
                                   sinceAck := 0, nackSent := 0, nackRun := 0, spent := [], rx := [], odOpen := [],
                                   retry := decide (cause = 5) || decide (cause = 6) }.unsent)
    let s := (s.movesBack p).orphan p
    let s := s.raise { code := 0x1102, sev := 2, region := p / 8, unit := 0x060 + p % 8,
                       args := leBytes 1 p ++ leBytes 1 cause }
    let s := s.dropRecalls p
    let s := s.setOd { s.od with sessions := s.od.sessions.filter fun x => match x.arr with
      | .port n => decide (n.val ≠ p) | _ => true }
    let s := if crash then s.setDir { s.dir with downs := s.dir.downs ++ [Scan.init p (boundaryAfter s.now) declared] } else s
    if cause = 0 then s else s.restartLink p

/-- PORT_PROTOCOL_ERROR (R88, R102, R105). -/
def protocolEv (p opcode tag check : Nat) : Ev :=
  { code := 0x1105, sev := 3, region := p / 8, unit := 0x060 + p % 8,
    args := leBytes 1 p ++ leBytes 1 opcode ++ leBytes 2 tag ++ leBytes 1 check }

/-- A protocol violation takes the port Down (R102). -/
def State.violation (s : State) (p opcode tag check : Nat) : State :=
  (s.raise (protocolEv p opcode tag check)).portDown p 2 false

/-- A port is hold-capable (R78, R95), as its last Configure left it. -/
def State.holdCapable (s : State) (p : Nat) : Bool := (s.port p).hold

/-- A room's function is On. -/
def State.roomOn (s : State) (k : Nat) : Bool :=
  if h : k < 64 then decide ((s.fn (.room ⟨k, h⟩)).state = Fn.on) else false

/-- The region a window of a room is bound to as a view (R246). -/
def State.viewOf (s : State) (room w : Nat) : Option Nat :=
  let v := s.val .viewRegion room w
  if bitOf v 15 then some (v % 256) else none

/-- A version of a region retained. -/
def State.pubVer (s : State) (g v : Nat) : Option PubVer :=
  (Tbl.find s.pubs.regions g).bind fun x => x.vers.find? fun y => y.version = v

/-- The first failing check of R88 steps 1 to 4, and the Lock of R431. -/
def State.denied (s : State) (p room line : Nat) : Bool :=
  let role := s.roleOf p
  !(decide (role = .host) || decide (role = .companion))
    || (decide (role = .host) && !s.owns p room)
    || (s.windowAt room (line * 64)).isNone
    || !s.roomOn room || s.sec.locked

/-- The page that a line's data lie in: through a view, the version's page; none where it reads as zero (R248). -/
inductive Target where
  | live (k : Nat)
  | view (k : Nat)
  | zero
  | closed
  deriving DecidableEq, Repr

/-- Where a line of a room leads. -/
def State.target (s : State) (room line : Nat) : Target :=
  match s.windowAt room (line * 64) with
  | none => .closed
  | some w =>
    match s.viewOf room w with
    | none => .live (linePage (lineKey room line))
    | some g =>
      match s.pubVer g (Tbl.get s.pubs.views (16 * room + w) 0) with
      | none => .closed
      | some v =>
        let off := (line * 64 - s.val .windowBase room w) / 4096
        match Tbl.find v.pages off with | some k => .view k | none => .zero

/-- What an attempt at a request comes to: answered; late, so Held where the port can Hold; or open still. -/
inductive Verdict where
  | done (code : Nat) (data : Option (BitVec 512))
  | late (why : Wait) (ready : Nat)
  | wait (why : Wait)
  deriving Repr

/- ## The share of a course (R50, R121, R122) -/

/-- Bytes of reads that a pair has been let through and that have not crossed a link yet. -/
def State.readsDue (s : State) (k c : Nat) : Nat :=
  let open_ := s.reqs.opened.filter fun r => r.passed && decide (r.room = k) && (decide (r.op = .rd) || decide (r.op = .own))
    && decide (s.pageClass (linePage (lineKey r.room r.line)) = c)
  let sent := s.ports.map fun e => (e.2.tx.filter fun m => (m.due.map (·.key)) = some (8 * k + c)).length + (e.2.slots.filter fun x => (x.due.map (·.key)) = some (8 * k + c)).length
  64 * (open_.length + sent.sum)

/-- A pair may use 64 bytes more (R121): within its ceiling, and within its share or floor or what the remainder holds. DESIGN CHOICE: reads let
through and not yet charged count as used here, so that a pair is not let through more than it may use. -/
def State.mayUse (s : State) (k c : Nat) : Bool :=
  let p := s.pair k c
  let due := s.readsDue k c
  let base := max p.share p.effFloor
  decide (p.used + due + 64 ≤ s.val .classCeiling k c)
    && (decide (p.used + due + 64 ≤ base) || decide (p.used + due + 64 ≤ max base p.used + s.adm.remainder))

/-- 64 bytes charged to a pair (R121): past its share and floor they come out of the remainder. -/
def State.charged (s : State) (key : Nat) : State :=
  let p := s.pair (key / 8) (key % 8)
  let s := if p.used + 64 ≤ max p.share p.effFloor then s else s.setAdm { s.adm with remainder := s.adm.remainder - 64 }
  s.updPair (key / 8) (key % 8) fun p => { p with used := p.used + 64 }

/-- The first data flit of a read's response crosses a link (R50): its bytes are charged, and its latency judged (R123). -/
def State.crossed (s : State) (d : TxDue) : State :=
  let t := s.val .classLatencyTarget (d.key / 8) (d.key % 8)
  let s := s.charged d.key
  match d.since with
  | none => s
  | some a => s.updPair (d.key / 8) (d.key % 8) fun p =>
      { p with reads := p.reads + 1, late := p.late + bit01 (decide (t ≠ 0) && decide (nsUnits t < s.now - a)) }

/-- A pair's request let through, if the pair may use its bytes (R121, R122): a write is charged as it is admitted, a read as the first data
flit of its response crosses the link (R50); both count as admitted. -/
def State.letIn (s : State) (k c : Nat) (read : Bool) : Option State :=
  if !s.mayUse k c then none
  else
    let s := if read then s else s.charged (8 * k + c)
    some (s.updPair k c fun p => { p with admitted := p.admitted + 64 })

/-- 64 bytes that a core stream moves for a pair, charged at once and so served (R121, R123, R260). -/
def State.charge (s : State) (k c : Nat) : Option State :=
  (s.letIn k c false).map fun s => s.updPair k c fun p => { p with served := p.served + 64 }

/-- Up to `n` units of 64 bytes charged to a pair, and how many were. -/
def State.chargeUp (s : State) (k c : Nat) : Nat → Nat × State
  | 0 => (0, s)
  | n + 1 => match s.charge k c with
    | none => (0, s)
    | some s => let (m, s) := s.chargeUp k c n; (m + 1, s)

/-- One charge for each line of a call's stream, or none where the share does not hold them (R121, R260). -/
def State.chargeN (s : State) (cl : Call) : Nat → Option State
  | 0 => some s
  | n + 1 => (s.charge cl.room cl.cls).bind fun s => s.chargeN cl n

/- ## Reservations (R96) -/

/-- Under which number a request's Hold and reservations are kept (R96): its port; a core's under its call, whichever core re-issues it (R262). -/
def OpenReq.holder (r : OpenReq) : Nat := if r.port < 32 then r.port else 256 + r.tag

/-- A Held request's own reservations: stored bytes and landing bricks. -/
def State.ownReserve (s : State) (r : OpenReq) : Nat × Nat :=
  let l := s.tier.reservations.filter fun x => decide (x.port = r.holder) && decide (x.line = lineKey r.room r.line)
  ((l.map (·.bytes)).sum, (l.map (·.bricks)).sum)

/-- A Held request's reservations given up. -/
def State.dropOwn (s : State) (port room line : Nat) : State :=
  s.setTier { s.tier with reservations := s.tier.reservations.filter fun x =>
    !(decide (x.port = port) && decide (x.line = lineKey room line)) }

/- ## Ready stamps (R141, R194, R317, R394) -/

/-- Cellar program bytes a course in service (R119, R348). -/
def State.programRate (s : State) : Nat := 50000 * s.channelsIn / 32

/-- The first boundary by which the Cellar has programmed some bytes. -/
def State.afterPrograms (s : State) (bytes : Nat) : Nat :=
  boundaryAfter (s.now + 4096 * ceilDiv bytes (max 1 s.programRate))

/-- The program bytes of a list of pages up to the one that is the `n`th of those that count, and how many are still wanted after the list. -/
def bytesUntil (counts : Nat × Page → Bool) : Nat → List (Nat × Page) → Nat × Nat
  | 0, _ => (0, 0)
  | n + 1, [] => (0, n + 1)
  | n + 1, e :: l =>
    let r := bytesUntil counts (if counts e then n else n + 1) l
    (storedSize e.2.store + r.1, r.2)

/-- The ready stamp of an overshoot (R141): the programs under way and those queued at removal's step and before, up to the one that brings the
room back; where these do not, the pages that the scan would choose come behind them from the next boundary, a CLEAN one without a program, and
4,224 B count for each that it cannot tell. -/
def State.overshootReady (s : State) (room : Nat) : Nat :=
  let excess := ceilDiv (s.usedStore room - ((s.room room).effStore + s.overshootLimit room)) 4096
  let busy := s.pages.filter fun e => decide (e.2.transit = Transit.writing) || decide (e.2.transit = Transit.demoting)
  let leaves (e : Nat × Page) : Bool := decide (pageRoom e.1 = room) && e.2.inStore
    && (e.2.leaving || decide (e.2.mode = PageMode.volatile) || decide (attrPlacement (s.pageAttr e.1) = 3))
  let (bytes, left) := bytesUntil leaves excess (busy ++ s.wbQueue.filter fun e => e.2.wbStep ≤ 3)
  if left = 0 then s.afterPrograms bytes
  else
    let l := s.picks room [] left
    let more := (l.map fun e => if e.2.mode = .clean then 0 else storedSize e.2.store).sum + 4224 * (left - l.length)
    boundaryAfter (boundaryAfter s.now + 4096 * ceilDiv (bytes + more) (max 1 s.programRate))

/-- The ready stamp of a durable write above the ceiling (R394): the earlier of write-back, of what step 1 has queued and then the oldest dirty
pages, and of charging. -/
def State.ceilingReady (s : State) : Nat :=
  let size (p : Page) : Nat := if p.mode = .dirty then storedSize p.store + 8 else 0
  let queued := Tbl.total s.pages fun _ p => if p.wbStep = 1 then storedSize p.store else 0
  let want := s.dirtyStored + 264
  let freed := if want ≤ s.ceiling + Tbl.total s.pages (fun _ p => size p) then some (s.afterPrograms (max queued (want - s.ceiling))) else none
  match freed, s.chargeReady want with
  | some a, some b => min a b
  | some a, none => a
  | none, some b => b
  | none, none => boundaryAfter s.now

/-- The interval of a slot in a compressor lane, in cycles (R189). -/
def State.packInterval (s : State) (bk : Nat) (l : Landing) : Nat :=
  let st := if l.poison = 0 then compress (s.codeChoice (bk / 16)) (bk % 16) 1 l.data else poisonForm (attrSealed (s.pageAttr (bk / 16))) 1 l.poison l.data
  match recMode st.record with | .zero => 8 | .fill => 8 | .raw => 8 | _ => max 8 (2 * recSectors st.record)

/-- The ready stamp of a full landing (R138, R194): of the slot that this request will have reserved, the next in turn to be freed after those
reserved already: the queue ahead of it in its lane, 12 cycles of encryption, and the write queue of its Store channel at the channel's rate. -/
def State.landingReady (s : State) : Nat :=
  let l := sortBy (fun a b => decide (a.2.turn < b.2.turn)) (s.landing.filter fun e => e.2.queued && !e.2.filling)
  match (l.drop (min (l.length - 1) ((s.tier.reservations.map (·.bricks)).sum))).head? with
  | none => boundaryAfter s.now
  | some e =>
    let ahead := l.filter fun x => decide (x.2.lane = e.2.lane) && decide (x.2.turn ≤ e.2.turn)
    let cycles := (ahead.map fun x => s.packInterval x.1 x.2).sum + 12
    let writes := match s.brickPlace e.1 with
      | none => 0
      | some (r, bay, _) =>
        let c := s.chan (rankChannel r (s.writeRank r bay))
        ceilDiv ((c.writes.map (·.count)).sum * 34 * 4096) (4 * max 1 (rateOf c.point))
    boundaryAfter (s.now + ceilDiv (cycles * 4096) 2400 + writes)

/-- The ready stamp of a request short of bays (R317); while a zeroing pass runs, when its fronts will have passed what the reserve
wants (R327): 868,000 B a region each course. -/
def State.baysReady (s : State) : Nat :=
  if s.store.fronts.isEmpty then boundaryAfter s.now
  else boundaryAfter (s.now + 4096 * ceilDiv ((s.val .bayReserve 0 0 - State.baysMb s.baysFreeAll) * 1000000) 3472000)

/- ## The Quiet exit (R37) -/

/-- In Quiet, or after the freeze of QUIET_ENTER. -/
def State.quieted (s : State) : Bool :=
  decide (s.power.mode = .quiet) || decide (s.power.quiet = .frozen)

/-- A data request starts the exit (R37); after the freeze, as soon as Quiet is reached. Answers the end of the exit. -/
def State.startExit (s : State) : Nat × State :=
  match s.power.exitAt with
  | some t => (t, s)
  | none =>
    let wait := if s.power.mode = .quiet then 250 else 350
    let t := boundaryAt (s.now + wait * 4096)
    (t, s.setPower { s.power with exitAt := some t, exitOwed := decide (s.power.mode ≠ .quiet) })

/- ## The directory's part (R231, R236, R238) -/

/-- What the directory says to a request: it may go on; it waits, or waits for a scan; it is answered. -/
inductive DirSays where
  | go
  | wait
  | scan (ready : Nat)
  | poison
  | clearsLost
  deriving DecidableEq, Repr

/-- The directory consulted (R231 to R233, R236, R238), with the recalls it sends. -/
def State.consult (s : State) (r : OpenReq) : DirSays × State :=
  let l := lineKey r.room r.line
  let read := decide (r.op = .rd) || decide (r.op = .own)
  let full := (decide (r.op = .wr) && !r.poison) || (decide (r.op = .mask) && decide (r.mask.toNat = fullMask))
  match s.scanHold l with
  | some t => (.scan t, s)
  | none =>
    if s.dirBusy l then (.wait, s)
    else
      match s.dirEntry l with
      | none => if read then (match s.dirSpace l with | (true, s) => (.go, s) | (false, s) => (.wait, s)) else (.go, s)
      | some e =>
        match e.st with
        | .lost => if full then (.clearsLost, s) else (.poison, s)
        | .shared =>
          let others := setBit e.ports r.port false
          if r.op = .rd ∨ others = 0 then (.go, s) else (.wait, (s.recallPorts l false (portsOf others)).2)
        | .owned =>
          if bitOf e.ports r.port then (.go, s) else (.wait, (s.recallPorts l false (portsOf e.ports)).2)

/-- A request's effect on its line's entry as it is answered OK (R231). -/
def State.settleDir (s : State) (r : OpenReq) : State :=
  let l := lineKey r.room r.line
  match r.op with
  | .rd =>
    let old := match s.dirEntry l with | some e => if e.st = .shared then e.ports else 0 | none => 0
    if r.gone then s else s.grant l .shared (setBit old r.port true)
  | .own => if r.gone then s else s.grant l .owned (2 ^ r.port)
  | _ =>
    let open_ := s.crashOpen l
    let s := s.putEntry l none
    if open_ then s.crashCleared l else s

/- ## Serving a request -/

/-- A read answered from a base. -/
def answerRead (data : List Byte) (pm j : Nat) : Verdict :=
  if bitOf pm j then .done 2 none else .done 0 (some (lineOf data j))

/-- Data as they have just been read and checked from the Store: brick, plaintext (R148). -/
abbrev Media := Option (Nat × List Byte)

/-- The base of a brick, the Store's data in hand counting as one. -/
def State.baseWith (s : State) (bk : Nat) (media : Media) : Base :=
  match s.baseOf bk, media with
  | .fill, some (b, d) => if b = bk then .ready d (recMask ((s.page (bk / 16)).brick (bk % 16)).record) else .fill
  | b, _ => b

/-- A page not in the Store is brought in (R134, R141, R149, R317), or what forbids that for now. -/
def State.bring (s : State) (k room : Nat) : Verdict × State :=
  if s.overshoots room && (s.fetchOf k).isNone then (.late .overshoot (s.overshootReady room), s)
  else if s.baysLow && (s.fetchOf k).isNone then (.late .bays s.baysReady, s)
  else
    let (t, s) := s.needPage k false
    (.late .fetch t, s)

/-- A read of a page that is allocated. -/
def State.serveRead (s : State) (r : OpenReq) (k bk : Nat) (media : Media) : Verdict × State :=
  let p := s.page k
  if p.mode = .cellar ∨ p.mode = .demoted then s.bring k (pageRoom k)
  else
    match s.baseWith bk media with
    | .ready d pm => (answerRead d pm (r.line % 4), s)
    | .filling => (.wait .fill, s)
    | .fill => (.wait .read, if r.why = .read then s else s.queueRead bk (s.readTarget k r.port))

/-- A first write refused (R114): QUOTA_REFUSED names the first page and the count of the last 64 courses, at most once per room per 64 courses
(R131). -/
def State.quotaSaid (s : State) (room line : Nat) : State :=
  let x := s.room room
  let recent := (x.recentRefusals.filter fun e => decide (s.now < e.1 + 64 * 4096)) ++ [(s.now, line / 64)]
  let x := { x with refusals := x.refusals + 1, recentRefusals := recent }
  if s.quiet64 x.refusalAt then
    (s.setRoom room { x with refusalAt := some s.now }).raise
      { code := 0x4010, sev := 1, unit := srcRoom room, args := leBytes 5 ((recent.headD (0, 0)).2) ++ leBytes 4 recent.length }
  else s.setRoom room x

/-- A write to a live page (R90, R114, R133, R134, R138, R141, R146, R192, R245, R317). -/
def State.serveWrite (s : State) (r : OpenReq) (k bk : Nat) (media : Media) : Verdict × State :=
  let p := s.page k
  let room := r.room
  let durable := attrDurable (s.pageAttr k)
  let (own, ownBricks) := s.ownReserve r
  if p.mode = .cellar ∨ p.mode = .demoted then s.bring k room
  else if p.mode = .new ∧ s.quotaRefuses room durable then
    (.done 3 none, s.quotaSaid room r.line)
  else if p.mode = .new ∧ s.overshoots room then (.late .overshoot (s.overshootReady room), s)
  else if (p.mode = .new ∨ s.isShared k) ∧ s.baysLow then (.late .bays s.baysReady, s)
  else if s.needsSlot bk ∧ landingSize + ownBricks ≤ s.landingUsed then (.late .landing s.landingReady, s)
  else
    if durable ∧ s.ceiling + own < s.dirtyStored + s.marksWant + s.linesWant + s.writeCost k bk (s.isShared k) then (.late .ceiling s.ceilingReady, s)
    else
      match (if s.isShared k then s.splitPage k (portRegion r.port) else some s) with
      | none => (.late .bays s.baysReady, s)
      | some s =>
        let s := if p.mode = .new then (s.allocate k (portRegion r.port)).touchRecord k (portRegion r.port) else s
        match s.baseWith bk media with
        | .ready d pm =>
          let (code, d', pm') := mergeWrite r.op r.poison (r.line % 4) (lineBytes r.data) r.mask.toNat d pm
          -- A parity error poisons the line that the write covers (R366).
          if code = 0 ∧ r.parity then
            let (_, d', pm') := mergeWrite .wr true (r.line % 4) [] 0 d pm
            let s := (s.writeSlot bk (r.line % 4) d' pm').accepted k (decide (p.mode = .new))
            (.done 2 none, s.parityError (portRegion r.port) (0x060 + r.port % 8) 1 true room)
          else
          if code = 0 then (.done 0 none, (s.writeSlot bk (r.line % 4) d' pm').accepted k (decide (p.mode = .new))) else (.done code none, s)
        | .filling => (.wait .fill, s)
        | .fill => (.wait .fill, (s.beginFill bk).queueRead bk (s.readTarget k r.port))

/-- A far page's request (R491, R497, R499). -/
def State.serveFar (s : State) (k : Nat) : Verdict × State :=
  if s.farLost k then
    let s := s.poolLoss k
    if attrPoolFatal (s.pageAttr k) then (.done 8 none, s) else (.done 2 none, s)
  else
    match s.askFar k with
    | (false, s) => (.late .ceiling s.ceilingReady, s)
    | (true, s) =>
      match Tbl.find s.vault.far k with
      | some (.soon t) => (.late .far (boundaryAt (t + 4096)), s)
      | some (.deferred t) => (.late .far t, s)
      | _ => (.wait .far, s)

/-- The page that a request is about: its own, or through a view the version's (R248). -/
def State.aimOf (s : State) (room line : Nat) : Nat :=
  match s.target room line with | .live k => k | .view k => k | _ => linePage (lineKey room line)

/-- The brick that a request is about, through a view the version's at the same offset (R248). -/
def State.brickOf (s : State) (room line : Nat) : Nat :=
  match s.target room line with
  | .view k =>
    let base := match s.windowAt room (line * 64) with | some w => s.val .windowBase room w | none => 0
    brickKey k ((line * 64 - base) % 4096 / 256)
  | _ => lineBrick (lineKey room line)

/-- What stands before an attempt: the order of a port's requests to a line (R90), Quiet (R37), and, for a request that has not passed it, its
pair's share of the course (R122); the page of one that passes is touched (R139). None when it may go on. -/
def State.gate (s : State) (r : OpenReq) : Option Verdict × State :=
  let read := decide (r.op = .rd) || decide (r.op = .own)
  let c := s.pageClass (linePage (lineKey r.room r.line))
  if s.reqs.opened.any fun x => decide (x.port = r.port) && decide (x.room = r.room) && decide (x.line = r.line) then (some (.wait .order), s)
  else if s.quieted ∨ s.power.exitAt.isSome then
    let (t, s) := s.startExit
    (some (.late .quiet t), s)
  else
    let tgt := s.target r.room r.line
    let viewed := decide (tgt ≠ .live (linePage (lineKey r.room r.line)))
    if tgt = .closed ∨ (viewed ∧ r.op ≠ .rd) then (some (.done 4 none), s)
    else if r.passed then (none, s)
    else
      match s.letIn r.room c read with
      | none => (some (.wait .share), s.updPair r.room c id)
      | some s => (none, if tgt = .zero then s else s.touch (s.aimOf r.room r.line) (portRegion r.port))

/-- One attempt at a request that the gate let through: views, far pages, the directory, then memory. -/
def State.attempt (s : State) (r : OpenReq) (media : Media) : Verdict × State :=
  let read := decide (r.op = .rd) || decide (r.op = .own)
  match s.target r.room r.line with
  | .closed => (.done 4 none, s)
  | .zero => (.done 0 (some 0), s)
  | .view k => s.serveRead r k (s.brickOf r.room r.line) media
  | .live k =>
    if s.isFar k then s.serveFar k
    else if (Tbl.find s.vault.leaving k).isSome then
      (.late .far (boundaryAt (((Tbl.find s.vault.leaving k).map (·.landing)).getD 0 + 4096)), s)
    else
      match s.consult r with
      | (.scan t, s) => (.late .scan t, s)
      | (.wait, s) => (.wait .recall, s)
      | (.poison, s) => (.done 2 none, s)
      | (_, s) =>
        let bk := lineBrick (lineKey r.room r.line)
        let (v, s) :=
          if read then
            if (s.page k).mode = .new then (.done 0 (some 0), s) else s.serveRead r k bk media
          else s.serveWrite r k bk media
        match v with
        | .done 0 d => (.done 0 d, s.settleDir r)
        | v => (v, s)

/- ## Holds and answers -/

/-- A Held request's pin and reservations (R96). -/
def State.pin (s : State) (r : OpenReq) (why : Wait) (ready : Nat) : State :=
  let k := s.aimOf r.room r.line
  let until_ := ready + 64 * 4096
  let s := if (s.page k).mode = .new then s else s.updPage k fun p => { p with pinUntil := max p.pinUntil until_ }
  let write := decide (r.op = .wr) || decide (r.op = .mask)
  let bytes := if write ∧ attrDurable (s.pageAttr k) then 264 else 0
  let bricks := if write ∧ why = .landing then 1 else 0
  if bytes = 0 ∧ bricks = 0 then s
  else
    let x : Reservation := ⟨r.holder, k, lineKey r.room r.line, bytes, bricks, until_⟩
    (s.dropOwn r.holder r.room r.line).setTier { s.tier with reservations :=
      (s.dropOwn r.holder r.room r.line).tier.reservations ++ [x] }

/-- CEILING_HOLD, at most once per 64 courses (R394, R407). -/
def State.ceilingSaid (s : State) : State :=
  let n := s.cistern.holds + 1
  if s.quiet64 s.cistern.holdAt then
    (s.setCistern { s.cistern with holds := 0, holdAt := some s.now }).raise
      { code := 0x7804, sev := 1, unit := srcCistern, args := leBytes 4 n ++ leBytes 4 (s.dirtyStored / 1000000) }
  else s.setCistern { s.cistern with holds := n }

/-- STORE_OVERSHOOT, once per room per 64 courses (R141). -/
def State.overshootSaid (s : State) (room : Nat) : State :=
  if s.quiet64 (Tbl.find s.tier.overAt room) then
    (s.setTier { s.tier with overAt := Tbl.put s.tier.overAt room s.now }).raise
      { code := 0x3001, sev := 2, unit := srcRoom room, args := leBytes 8 (s.usedStore room - (s.room room).effStore) }
  else s

/-- STORE_BAYS_LOW, once per 64 courses while the Holds last (R317). -/
def State.baysSaid (s : State) : State :=
  let st := s.store
  let n := st.lowHolds + 1
  if s.quiet64 st.lowAt then
    (s.setStore { st with lowHolds := 0, lowAt := some s.now }).raise
      { code := 0x6008, sev := 2, unit := 0x2C1, args := leBytes 4 (State.baysMb s.baysFreeAll) ++ leBytes 4 n }
  else s.setStore { st with lowHolds := n }

/-- A request answered Hold (R95, R96): nothing of it takes effect; the reasons that have entries of their own write them. -/
def State.holdNow (s : State) (r : OpenReq) (why : Wait) (ready : Nat) : State :=
  let k := linePage (lineKey r.room r.line)
  let h : HeldReq := ⟨r.port, r.op, r.room, r.line, why, ready⟩
  let s := (s.setHeld (s.reqs.held ++ [h])).pin r why ready
  let s := s.respond r.port r.tag 1 none ready
  let s := match why with
    | .ceiling => s.ceilingSaid
    | .overshoot => s.overshootSaid r.room
    | .bays => s.baysSaid
    | _ => s
  if why = .fetch then s.holdLate k ready else s

/-- A request answered (R91): its own reservations end, and with OK it counts as served to its pair (R123). -/
def State.finish (s : State) (r : OpenReq) (code : Nat) (data : Option (BitVec 512)) : State :=
  let s := (s.dropOwn r.port r.room r.line).answerReq r code data
  if code = 0 then s.updPair r.room (s.pageClass (linePage (lineKey r.room r.line))) fun p => { p with served := p.served + 64 } else s

/-- Every open request of a room answered FATAL, and the room Stopping with CAUSE 4 (R499). -/
def State.fatalRoom (s : State) (room : Nat) : State :=
  let mine := s.reqs.opened.filter fun x => x.room = room
  let s := s.setOpen (s.reqs.opened.filter fun x => x.room ≠ room)
  let s := mine.foldl (fun s x => (s.dropOwn x.port x.room x.line).answerReq x 8 none) s
  if h : room < 64 then
    let f := s.fn (.room ⟨room, h⟩)
    if f.state = .on then s.fnTo (.room ⟨room, h⟩) { f with state := .stopping, cause := 4 } else s
  else s

/-- What becomes of a request after an attempt: answered, Held, or left open at the end of the list. On a port that cannot Hold or has been
Down, and for a reason it was Held for before (R96), a late request stays open. -/
def State.conclude (s : State) (r : OpenReq) : Verdict → State
  | .done code data => let s := s.finish r code data; if code = 8 then s.fatalRoom r.room else s
  | .late why ready =>
    if s.holdCapable r.port && !r.gone && decide (r.heldFor ≠ some why) then s.holdNow r why ready
    else s.setOpen (s.reqs.opened ++ [{ r with why := why, ready := ready }])
  | .wait why => s.setOpen (s.reqs.opened ++ [{ r with why := why }])

/-- A request attempted, once the gate lets it through, and settled. -/
def State.run (s : State) (r : OpenReq) (media : Media) : State :=
  match s.gate r with
  | (some v, s) => s.conclude r v
  | (none, s) =>
    let (v, s) := s.attempt { r with passed := true } media
    s.conclude { r with passed := true } v

/-- Every open request tried again in the order of admission, data of a Store read in hand for some. -/
def State.retryWith (s : State) (media : Media) : State :=
  s.reqs.opened.foldl (fun s r => s.run r media) (s.setOpen [])

/-- What a wake event sets going: data of recalls, poison marks, frozen pages, then the open requests. -/
def State.retryAll (s : State) : State :=
  let s := s.applyReturned.markAllLost
  let s := s.vault.leaving.foldl (fun s e => s.tryLeave e.1) s
  s.retryWith none

/-- A request that the checks of R88 turn away, a TAG still outstanding among them: the state with its answer. -/
def State.turned (s : State) (opcode port tag room line : Nat) : Option State :=
  if !s.isUp port then some s
  else if s.tagOpen port tag then some ((s.respond port tag 4 none 0).raise (protocolEv port opcode tag 1))
  else if s.denied port room line then some (s.respond port tag 4 none 0)
  else none

/-- A request arrives (R88, R97, R99): the checks in order; in Brace a Hold with no ready time; an early re-issue the same Hold
again; else it is admitted and tried. `opcode` is its code for PORT_PROTOCOL_ERROR. -/
def State.arrive (s : State) (opcode : Nat) (r : OpenReq) : State :=
  match s.turned opcode r.port r.tag r.room r.line with
  | some s => s
  | none =>
    if s.power.mode = .brace ∨ s.power.mode = .flush then s.respond r.port r.tag 1 none (2 ^ 64 - 1)
    else
      match s.reqs.held.find? fun h => decide (h.port = r.port) && decide (h.op = r.op) && decide (h.room = r.room)
          && decide (h.line = r.line) with
      | some h =>
        if s.now < h.ready then s.respond r.port r.tag 1 none h.ready
        else
          let s := s.setHeld (s.reqs.held.erase h)
          s.run { r with heldFor := if s.now ≤ h.ready + 64 * 4096 then some h.why else none } none
      | none => s.run r none

/-- The request of the four line commands. -/
def newReq (s : State) (port tag : Nat) (op : LineOp) (room line : Nat) (data : BitVec 512) (mask : BitVec 64) (poison : Bool) :
    OpenReq :=
  ⟨port, tag, op, room, line, data, mask, poison, s.now, .share, 0, none, false, false, false⟩

/-- RdLine (R89). -/
def execRdLine (port : Fin 32) (tag : BitVec 12) (room : Fin 64) (line : BitVec 40) (s : State) :
    Host.Outcome State Fault Refusal :=
  .next (s.arrive 1 (newReq s port tag.toNat .rd room line.toNat 0 0 false))

/-- RdOwn (R89, R231). -/
def execRdOwn (port : Fin 32) (tag : BitVec 12) (room : Fin 64) (line : BitVec 40) (s : State) :
    Host.Outcome State Fault Refusal :=
  .next (s.arrive 2 (newReq s port tag.toNat .own room line.toNat 0 0 false))

/-- WrLine (R90, R92). -/
def execWrLine (port : Fin 32) (tag : BitVec 12) (room : Fin 64) (line : BitVec 40) (poison : Bool) (data : WriteData)
    (s : State) : Host.Outcome State Fault Refusal :=
  .next (s.arrive 3 { newReq s port tag.toNat .wr room line.toNat data.bits (-1) poison with parity := data.parity })

/-- WrMask (R90, R92). -/
def execWrMask (port : Fin 32) (tag : BitVec 12) (room : Fin 64) (line : BitVec 40) (mask : BitVec 64) (data : WriteData)
    (s : State) : Host.Outcome State Fault Refusal :=
  .next (s.arrive 4 { newReq s port tag.toNat .mask room line.toNat data.bits mask false with parity := data.parity })

/-- An open request by port and TAG, one of the present link before one of an earlier. -/
def State.openOf (s : State) (p tag : Nat) : Option OpenReq :=
  let l := s.reqs.opened.filter fun r => decide (r.port = p) && decide (r.tag = tag)
  match l.find? fun r => !r.gone with | some r => some r | none => l.head?

/-- HOLD_THRESHOLD courses pass with a request open on a hold-capable port (R95): it is answered Hold; its ready stamp is the
one its reason has, or the next boundary, where none is projected (DEDUCED); a re-issue that waits still for the reason of its Hold stays
open (R96); for a far page of which nothing is heard, the
value with no ready time (R491). -/
def execHoldThresholdPassed (port : Fin 32) (tag : BitVec 12) (s : State) : Host.Outcome State Fault Refusal :=
  match s.openOf port tag.toNat with
  | none => .next s
  | some r =>
    if !s.holdCapable port ∨ r.gone ∨ r.heldFor = some r.why ∨ s.now < r.admitted + 4096 * s.val .holdThreshold port 0 then .next s
    else
      let s := s.setOpen (s.reqs.opened.erase r)
      let ready := if s.now < r.ready then r.ready else boundaryAfter s.now
      .next (if r.why = .far then s.respond port tag.toNat 1 none (2 ^ 64 - 1) else s.holdNow r r.why ready)

/-- The pin and reservation of a Held request lapse at its ready stamp plus 64 courses (R96). -/
def execPinLapse (port : Fin 32) (room : Fin 64) (line : BitVec 40) (s : State) : Host.Outcome State Fault Refusal :=
  match s.reqs.held.find? fun h => decide (h.port = port.val) && decide (h.room = room.val) && decide (h.line = line.toNat)
      && decide (h.ready + 64 * 4096 ≤ s.now) with
  | none => .next s
  | some h => .next (((s.setHeld (s.reqs.held.erase h)).dropOwn port room line.toNat).retryAll)

/-- A request open 500 courses after admission on a port that is not hold-capable is answered FATAL (R98), and so is one
whose data an error keeps away on any port (R96). -/
def execCompletionTimeout (port : Fin 32) (tag : BitVec 12) (s : State) : Host.Outcome State Fault Refusal :=
  match s.openOf port tag.toNat with
  | none => .next s
  | some r =>
    if s.now < r.admitted + 500 * 4096 then .next s
    else
      let s := (s.setOpen (s.reqs.opened.erase r)).dropOwn port r.room r.line
      .next ((s.answerReq r 8 none).raise
        { code := 0x1106, sev := 2, region := port.val / 8, unit := 0x060 + port.val % 8,
          args := leBytes 1 port ++ leBytes 1 r.room ++ leBytes 2 tag.toNat ++ leBytes 5 r.line })

/-- A BackInv answer (R94); one whose TAG names no outstanding request is a protocol violation (R102). -/
def execBackInvAnswer (port : Fin 32) (tag : BitVec 12) (data : Option (BitVec 512)) (s : State) :
    Host.Outcome State Fault Refusal :=
  match s.dir.recalls.find? fun r => decide (r.port = port.val) && decide (r.tag = tag.toNat) with
  | none => .next (if s.isUp port then (s.violation port 0x3D tag.toNat 4).retryAll else s)
  | some r => .next ((s.answerRecall r data).retryAll)

/-- A BackInv unanswered after 500 courses takes the port Down (R94). -/
def execBackInvTimeout (port : Fin 32) (tag : BitVec 12) (s : State) : Host.Outcome State Fault Refusal :=
  match s.dir.recalls.find? fun r => decide (r.port = port.val) && decide (r.tag = tag.toNat) with
  | none => .next s
  | some r => .next (if r.since + 500 * 4096 ≤ s.now then (s.portDown port 3 false).retryAll else s)

/-- The walk of a crash scan ends, every set having been passed since its start (R235, R237, R239). -/
def execHostCrashScanEnd (port : Fin 32) (s : State) : Host.Outcome State Fault Refusal :=
  match s.dir.scans.find? fun c => c.port = port.val with
  | none => .next s
  | some c => .next (if c.walked < 2 ^ 20 then s else (s.endScan c).retryAll)

end Sys2Proof.Machine
end

