-- ==== Sys2Proof/Machine/Egress.lean ====
section
/-!
DEFINITION. Sys2Proof/Machine/Egress.lean: the flits that a port sends (R79 to R82), the messages and packed responses in their slots (R83 to
R85), the credits they wait for (R86), and their pace (R76, R79).
-/

namespace Sys2Proof.Machine

/- ## Messages begun (R82, R85, R86) -/

/-- The partner's credits suffice for a message (R86). -/
def Port.affords (q : Port) (cost : List (Nat × Nat)) : Bool := cost.all fun c => decide (c.2 ≤ q.granted c.1)

/-- The credits of a message spent. -/
def Port.pay (q : Port) (cost : List (Nat × Nat)) : Port :=
  { q with spent := cost.foldl (fun t c => Tbl.upd t c.1 0 (· + c.2)) q.spent }

/-- Bytes in data slots of 16, the last padded with zeros (R84); the first carries what is due. -/
def dataSlotsOf (data : List Byte) (due : Option TxDue) : List TxSlot :=
  (upTo ((data.length + 15) / 16)).map fun i => ⟨false, fit 16 (data.drop (16 * i)), if i = 0 then due else none⟩

/-- Up to `n` more responses that became ready in the same cycle and have their credits (R85): those taken, those left. -/
def packMore (ready : Nat) : Port → Nat → List TxMsg → List TxMsg × List TxMsg × Port
  | q, _, [] => ([], [], q)
  | q, n, m :: ms =>
    if n ≠ 0 ∧ m.entry.isSome ∧ m.ready = ready ∧ q.affords m.cost then
      let (a, b, q') := packMore ready (q.pay m.cost) (n - 1) ms
      (m :: a, b, q')
    else
      let (a, b, q') := packMore ready q n ms
      (a, m :: b, q')

/-- A PackRsp slot of up to four entries (R85). -/
def packHead (es : List Nat) : Nat :=
  0x3E * 2 ^ 58 + (es.length - 1) % 4 * 2 ^ 56 + es.getD 0 0 * 2 ^ 28 + es.getD 1 0
    + 2 ^ 64 * (es.getD 2 0 * 2 ^ 36 + es.getD 3 0 * 2 ^ 8)

/-- The slots of one message, or of the responses packed with it: the header slot, then the data slots in the order of the entries. DESIGN
CHOICE: a response alone in its cycle goes out as a LongRsp. -/
def slotsOf (m : TxMsg) (more : List TxMsg) : List TxSlot :=
  let head := if more.isEmpty then m.head else packHead ((m :: more).map fun x => x.entry.getD 0)
  ⟨true, leBytes 16 head, none⟩ :: (m :: more).flatMap fun x => dataSlotsOf x.data x.due

/-- The first message that waits and has its credits is begun; one that lacks them lets those of other types pass (R86, R87). -/
def Port.beginNext (q : Port) : Option Port :=
  match q.tx.dropWhile fun m => !q.affords m.cost with
  | [] => none
  | m :: rest =>
    let (more, rest, q') := packMore m.ready (q.pay m.cost) (if m.entry.isSome then 3 else 0) rest
    some { q' with tx := (q.tx.takeWhile fun m => !q.affords m.cost) ++ rest, slots := q.slots ++ slotsOf m more }

/-- Messages begun until a flit is full or none can be. -/
def Port.fill (q : Port) : Nat → Port
  | 0 => q
  | n + 1 => if 14 ≤ q.slots.length then q else match q.beginNext with | some q' => q'.fill n | none => q

/- ## Flits (R79, R80) -/

/-- The framing word of the next flit, with the credits of two types that it returns (R80, R86), and the port that has returned them. -/
def Port.framing (q : Port) (type seq map : Nat) : Nat × Port :=
  let a := q.give.headD (0, 0)
  let b := (q.give.drop 1).headD (0, 0)
  let left := ((q.give.take 2).map fun e => (e.1, e.2 - 255)).filter fun e => decide (e.2 ≠ 0)
  (type * 2 ^ 60 + seq * 2 ^ 48 + (q.rxSeq + 4095) % 4096 * 2 ^ 36 + map * 2 ^ 22 + a.1 * 2 ^ 19 + min 255 a.2 * 2 ^ 11 + b.1 * 2 ^ 8 + min 255 b.2,
    { q with give := left ++ q.give.drop 2, ackDue := false })

/-- The 256 bytes of a flit (R79): framing word, slots, CRC-64, and the parity of the codewords on its even and its odd bytes. The spec gives
neither the field's polynomial nor the code's generator: the parity is a free value of the codeword. -/
def flitBytes (framing : Nat) (body : List Byte) : List Byte :=
  let a := leBytes 8 framing ++ fit 224 body
  let b := a ++ leBytes 8 (plainCrc 64 0x42F0E1EBA9EA3693 (2 ^ 64 - 1) a)
  let side (k : Nat) : List Byte := leBytes 8 (Config.fecParity ((upTo 120).map fun i => b.getD (2 * i + k) 0)).toNat
  b ++ ((side 0).zip (side 1)).flatMap fun x => [x.1, x.2]

/-- A port's flit sent, by type, SEQ, SLOT_MAP and slot bytes. -/
def State.emit (s : State) (p : Nat) (q : Port) (type seq map : Nat) (body : List Byte) : State :=
  let (w, q) := q.framing type seq map
  (s.setPort p q).send (.flit p (flitBytes w body))

/-- A new PAYLOAD flit of the slots that wait (R80 to R82): it enters the replay buffer, its unused slots are Nop headers. -/
def Port.nextFlit (q : Port) : TxFlit × Port :=
  let l := q.slots.take 14
  let map := (upTo 14).foldl (fun m i => setBit m i (match l[i]? with | some x => x.header | none => true)) 0
  let f : TxFlit := ⟨q.txSeq, map, l.flatMap (·.bytes)⟩
  (f, { q with slots := q.slots.drop 14, buffer := q.buffer ++ [f], txSeq := (q.txSeq + 1) % 4096, sinceAck := q.sinceAck + 1 })

/-- The flit that a port sends next: a NACK owed, a flit asked for again, a new PAYLOAD flit while the replay buffer has room (R81), or an IDLE
flit that brings an ACK_SEQ or credits; none where an IDLE flit would bring nothing. -/
def State.sendFlit (s : State) (p : Nat) : Option State :=
  let q := s.port p
  if q.link ≠ .up then none
  else if q.nackDue then some (s.emit p { q with nackDue := false } 2 0 0 [])
  else
    match q.resend with
    | f :: r => some (s.emit p { q with resend := r, sinceAck := q.sinceAck + 1 } 0 f.seq f.map f.body)
    | [] =>
      let q := if q.buffer.length < 512 then q.fill 14 else q
      if !q.slots.isEmpty && decide (q.buffer.length < 512) then
        let due := (q.slots.take 14).filterMap (·.due)
        let (f, q) := q.nextFlit
        some (due.foldl (fun s d => s.crossed d) (s.emit p q 0 f.seq f.map f.body))
      else if q.ackDue || !q.give.isEmpty then some (s.emit p q 1 0 0 [])
      else none

/-- Up to `n` flits of a port. -/
def State.pumpPort (s : State) (p : Nat) : Nat → State
  | 0 => s
  | n + 1 => match s.sendFlit p with | some t => t.pumpPort p n | none => s

/-- Flits that pass on a port of width `w` up to a position of the course: 875 a course at x4 (R79). -/
def flitsBy (w pos : Nat) : Nat := 875 * w * pos / 16384

/-- The flits that every port sends between two positions of a course. -/
def State.pump (s : State) (from_ until_ : Nat) : State :=
  s.ports.foldl (fun s e => s.pumpPort e.1 (flitsBy e.2.width until_ - flitsBy e.2.width from_)) s

/- ## Acknowledgement and replay (R81) -/

/-- The flits of the replay buffer after an acknowledged SEQ. -/
def Port.unacked (q : Port) (ack : Nat) : List TxFlit := q.buffer.filter fun f => !decide ((ack + 4096 - f.seq) % 4096 < 2048)

/-- ACK_SEQ taken (R80, R81). -/
def Port.ackIn (q : Port) (ack : Nat) : Port :=
  if q.acked = ack then q else { q with acked := ack, sinceAck := 0, nackRun := 0, buffer := q.unacked ack }

/-- A NACK's ACK_SEQ: the flits after it are sent again. -/
def Port.replayFrom (q : Port) (ack : Nat) : Port :=
  { q with sinceAck := if q.acked = ack then q.sinceAck else 0, acked := ack, buffer := q.unacked ack, resend := q.unacked ack }

end Sys2Proof.Machine
end

