-- ==== Sys2Proof/Machine/Formats.lean ====
section
/-!
DEFINITION. Sys2Proof/Machine/Formats.lean: the number formats of the cores: packing, exact values, rounding, special values
(R282 to R285, R292).
-/

namespace Sys2Proof.Machine

/-- A value as it is computed with: exact, or a special one. `fin neg m e` is m times 2^e, negative if `neg`. -/
inductive Val where
  | nan
  | inf (neg : Bool)
  | fin (neg : Bool) (m : Nat) (e : Int)
  deriving DecidableEq, Repr

/-- What a float format is made of (R283): exponent and mantissa bits, bias, the magnitude bits of its largest finite value, its
Inf and its canonical NaN. -/
structure Fmt where
  ebits : Nat
  mbits : Nat
  bias : Nat
  maxBits : Nat
  inf : Option Nat
  nan : Option Nat
  deriving DecidableEq, Repr

/-- The element format of an MX code (R282); another code stands for itself. -/
def elemCode (c : Nat) : Nat :=
  match c with | 8 => 3 | 9 => 4 | 10 => 5 | 11 => 6 | 12 => 7 | c => c

/-- An MX code. -/
def isMx (c : Nat) : Bool := decide (8 ≤ c) && decide (c ≤ 12)
/-- An integer code. -/
def isInt (c : Nat) : Bool := decide (13 ≤ c)

/-- The float formats (R282, R283). -/
def fmtOf (c : Nat) : Fmt :=
  match elemCode c with
  | 0 => ⟨8, 23, 127, 0x7F7FFFFF, some 0x7F800000, some 0x7FC00000⟩
  | 1 => ⟨5, 10, 15, 0x7BFF, some 0x7C00, some 0x7E00⟩
  | 2 => ⟨8, 7, 127, 0x7F7F, some 0x7F80, some 0x7FC0⟩
  | 3 => ⟨4, 3, 7, 0x7E, none, some 0x7F⟩
  | 4 => ⟨5, 2, 15, 0x7B, some 0x7C, some 0x7E⟩
  | 5 => ⟨3, 2, 3, 0x1F, none, none⟩
  | 6 => ⟨2, 3, 1, 0x1F, none, none⟩
  | _ => ⟨2, 1, 1, 0x7, none, none⟩

/-- Bits of an element (R282). -/
def widthOf (c : Nat) : Nat :=
  match elemCode c with | 0 => 32 | 1 => 16 | 2 => 16 | 3 => 8 | 4 => 8 | 5 => 6 | 6 => 6 | 7 => 4 | 13 => 8 | 14 => 4 | _ => 32

/-- Elements of a wide register (R282). -/
def countOf (c : Nat) : Nat := if widthOf c = 6 then 680 else 4096 / widthOf c

/-- Element `i` of packed data (R282). -/
def element (c : Nat) (v i : Nat) : Nat := v / 2 ^ (widthOf c * i) % 2 ^ widthOf c

/-- Elements packed (R282). -/
def packElems (w : Nat) : List Nat → Nat
  | [] => 0
  | x :: xs => x % 2 ^ w + 2 ^ w * packElems w xs

/-- Base 2 logarithm of a positive number, rounded down. -/
def log2f (n : Nat) : Nat := Nat.log2 n

/- ## Reading and rounding -/

/-- The value of an element (R283). -/
def valOf (c bits : Nat) : Val :=
  if isInt c then
    let i := signed (widthOf c) bits
    .fin (decide (i < 0)) i.natAbs 0
  else
    let f := fmtOf c
    let neg := bitOf bits (f.ebits + f.mbits)
    let mag := bits % 2 ^ (f.ebits + f.mbits)
    let ex := mag / 2 ^ f.mbits
    let ma := mag % 2 ^ f.mbits
    if f.inf = some mag then .inf neg
    else if f.maxBits < mag ∧ f.nan.isSome then .nan
    else if ex = 0 then .fin neg ma (1 - (f.bias : Int) - f.mbits)
    else .fin neg (2 ^ f.mbits + ma) ((ex : Int) - f.bias - f.mbits)

/-- m times 2^e rounded to a whole number: 0 to nearest with ties to even, 1 toward zero, 2 down, 3 up (R284). -/
def roundInt (rm : Nat) (neg : Bool) (m : Nat) (e : Int) : Nat :=
  if 0 ≤ e then m * 2 ^ e.toNat
  else
    let k := (-e).toNat
    let q := m / 2 ^ k
    let r := m % 2 ^ k
    let up := match rm with
      | 0 => decide (2 ^ k < 2 * r) || (decide (2 * r = 2 ^ k) && decide (q % 2 = 1))
      | 1 => false
      | 2 => neg && decide (r ≠ 0)
      | _ => !neg && decide (r ≠ 0)
    if up then q + 1 else q

/-- An integer saturated to `w` bits in two's complement. -/
def satInt (w : Nat) (i : Int) : Nat := unsign w (max (-(2 ^ (w - 1) : Int)) (min (2 ^ (w - 1) - 1) i))

/-- The sign bit of a format put above a magnitude. -/
def signAt (f : Fmt) (neg : Bool) (mag : Nat) : Nat := bit01 neg * 2 ^ (f.ebits + f.mbits) + mag

/-- The result of an overflow (R283): of the IEEE formats what the rounding mode gives, of E4M3 NaN, of E5M2 Inf, else the largest
value. -/
def overflowOf (c rm : Nat) (sat neg : Bool) : Nat :=
  let f := fmtOf c
  let big := signAt f neg f.maxBits
  if sat then big
  else
    match f.inf, f.nan with
    | some i, _ =>
      let toBig := decide (elemCode c ≠ 4) && (decide (rm = 1) || (decide (rm = 2) && !neg) || (decide (rm = 3) && neg))
      if toBig then big else signAt f neg i
    | none, some n => n
    | none, none => big

/-- A value put into a format (R283 to R285): rounded by `rm`, an overflow as `sat` has it. -/
def encodeVal (c rm : Nat) (sat : Bool) (v : Val) : Nat :=
  let w := widthOf c
  if isInt c then
    match v with
    | .nan => 0
    | .inf neg => satInt w (if neg then -(2 ^ 64) else 2 ^ 64)
    | .fin neg m e => let i : Int := roundInt rm neg m e; satInt w (if neg then -i else i)
  else
    let f := fmtOf c
    match v with
    | .nan => f.nan.getD 0
    | .inf neg => match f.inf with | some i => signAt f neg i | none => overflowOf c rm sat neg
    | .fin neg m e =>
      if m = 0 then signAt f neg 0
      else
        let qmin : Int := 1 - (f.bias : Int) - f.mbits
        let q := max qmin ((log2f m : Int) + e - f.mbits)
        let mag := (q - qmin).toNat * 2 ^ f.mbits + roundInt rm neg m (e - q)
        if f.maxBits < mag then overflowOf c rm sat neg else signAt f neg mag

/- ## Exact arithmetic -/

/-- The sign of an exact zero that two addends give (IEEE 754): theirs if equal, else + but when rounding down. -/
def zeroSign (rm : Nat) (a b : Bool) : Bool := if a = b then a else decide (rm = 2)

/-- An exact sum. -/
def addVal (rm : Nat) (a b : Val) : Val :=
  match a, b with
  | .nan, _ => .nan
  | _, .nan => .nan
  | .inf x, .inf y => if x = y then .inf x else .nan
  | .inf x, _ => .inf x
  | _, .inf y => .inf y
  | .fin x m e, .fin y n g =>
    let lo := min e g
    let p : Int := (if x then -1 else 1) * (m * 2 ^ (e - lo).toNat : Nat)
    let q : Int := (if y then -1 else 1) * (n * 2 ^ (g - lo).toNat : Nat)
    let t := p + q
    if t = 0 then .fin (zeroSign rm x y) 0 lo else .fin (decide (t < 0)) t.natAbs lo

/-- A value negated. -/
def negVal : Val → Val
  | .nan => .nan
  | .inf x => .inf (!x)
  | .fin x m e => .fin (!x) m e

/-- An exact product; Inf times 0 is NaN (R296). -/
def mulVal (a b : Val) : Val :=
  match a, b with
  | .nan, _ => .nan
  | _, .nan => .nan
  | .inf x, .inf y => .inf (x != y)
  | .inf x, .fin y n _ => if n = 0 then .nan else .inf (x != y)
  | .fin x m _, .inf y => if m = 0 then .nan else .inf (x != y)
  | .fin x m e, .fin y n g => .fin (x != y) (m * n) (e + g)

/-- The value times 2^k. -/
def scaleVal (k : Int) : Val → Val
  | .fin x m e => .fin x m (e + k)
  | v => v

/-- a is less than b, neither NaN; −0 and +0 are equal. -/
def ltVal (a b : Val) : Bool :=
  match a, b with
  | .nan, _ => false
  | _, .nan => false
  | .inf x, .inf y => x && !y
  | .inf x, _ => x
  | _, .inf y => !y
  | .fin x m e, .fin y n g =>
    let lo := min e g
    let p : Int := (if x then -1 else 1) * (m * 2 ^ (e - lo).toNat : Nat)
    let q : Int := (if y then -1 else 1) * (n * 2 ^ (g - lo).toNat : Nat)
    decide (p < q)

/-- A value is negative in sign. -/
def Val.neg : Val → Bool
  | .inf x => x | .fin x _ _ => x | .nan => false

/-- The maximum of R292: the operand that is not NaN; of zeros +0. -/
def maxVal (a b : Val) : Val :=
  if a = .nan then b else if b = .nan then a
  else if ltVal a b then b else if ltVal b a then a else if a.neg then b else a

/-- The minimum of R292: the operand that is not NaN; of zeros −0. -/
def minVal (a b : Val) : Val :=
  if a = .nan then b else if b = .nan then a
  else if ltVal a b then a else if ltVal b a then b else if a.neg then a else b

/-- FP32 bits of a value, to nearest even. -/
def fp32 (v : Val) : Nat := encodeVal 0 0 false v
/-- The value of FP32 bits. -/
def ofFp32 (b : Nat) : Val := valOf 0 b

/- ## 2^x (R302) -/

/-- Fraction bits of the fixed-point series. -/
def expBits : Nat := 256

/-- ln 2 in fixed point: the sum of 1/(k 2^k). -/
def ln2Fixed : Nat → Nat
  | 0 => 0
  | k + 1 => 2 ^ expBits / ((k + 1) * 2 ^ (k + 1)) + ln2Fixed k

/-- Terms of the exponential series: `term` is z^n/n!. -/
def expSeries (z : Nat) : Nat → Nat → Nat → Nat
  | 0, _, _ => 0
  | fuel + 1, n, term => term + expSeries z fuel (n + 1) (term * z / (n * 2 ^ expBits))

/-- 2^f for a fraction f in fixed point, to some 240 bits. -/
def exp2Fixed (f : Nat) : Nat := expSeries (f * ln2Fixed 270 / 2 ^ expBits) 72 1 (2 ^ expBits)

/-- 2^x as a value that every rounding of R302 agrees on; Inf from 128 up, +0 below −126. -/
def exp2Val (x : Val) : Val :=
  match x with
  | .nan => .nan
  | .inf neg => if neg then .fin false 0 0 else .inf false
  | .fin neg m e =>
    let n : Int := if neg then -(m : Int) else m
    let whole : Int := if 0 ≤ e then n * 2 ^ e.toNat else n / 2 ^ (-e).toNat
    let part : Nat := if 0 ≤ e then 0 else (n % 2 ^ (-e).toNat).toNat
    if 128 ≤ whole then .inf false
    else if whole < -126 then .fin false 0 0
    else .fin false (exp2Fixed (part * 2 ^ expBits / 2 ^ (-e).toNat)) (whole - expBits)

/-- FP32 2^x within 2 units in the last place (R302): the value rounded down, moved by −1 to 2 units, or −2 to 2 where it is
exact, as the free value `pick` has it; within the finite normal range. -/
def exp2Fp32 (pick : Nat) (x : Val) : Nat :=
  match exp2Val x with
  | .fin neg m e =>
    if m = 0 then 0
    else
      let lo := encodeVal 0 1 false (.fin neg m e)
      let exact := decide (ofFp32 lo = .fin neg m e) || decide (m = 2 ^ expBits)
      let y := if exact then lo + pick % 5 - 2 else lo + pick % 4 - 1
      max 0x00800000 (min 0x7F7FFFFF y)
  | v => fp32 v

end Sys2Proof.Machine
end

