-- ==== Sys2Proof/Machine/Integrity.lean ====
section
/-!
DEFINITION. Sys2Proof/Machine/Integrity.lean: what a Store read goes through, corrections, weak
rows, repairs, lost images (chapter Data Integrity), and the slots of the landing (R192 to R194).
-/

namespace Sys2Proof.Machine

/- ## Corrections (R382, R383) -/

/-- A corrected unit enters its region's repeat table (R382). -/
def State.repeatCount (s : State) (region bay unit : Nat) : State :=
  let t := Tbl.get s.integ.repeats region []
  let put (s : State) (l : List RepeatEntry) : State :=
    s.setInteg { s.integ with repeats := Tbl.put s.integ.repeats region l }
  if t.any fun e => decide (e.bay = bay) && decide (e.unit = unit) then
    put s (t.map fun e => if e.bay = bay ∧ e.unit = unit then { e with count := min 3 (e.count + 1) } else e)
  else
    let new : RepeatEntry := ⟨bay, unit, 1, s.time.course⟩
    if t.length < 1024 then put s (t ++ [new])
    else
      let s := put s (t.drop 1 ++ [new])
      let n := Tbl.get s.integ.replaced region 0 + 1
      if s.quiet64 (Tbl.find s.integ.fullAt region) then
        (s.setInteg { s.integ with replaced := Tbl.put s.integ.replaced region 0,
                                   fullAt := Tbl.put s.integ.fullAt region s.now }).raise
          { code := 0x7009, sev := 1, region := region, unit := 0x2C5, args := leBytes 2 n }
      else s.setInteg { s.integ with replaced := Tbl.put s.integ.replaced region n }

/-- A unit of a bay read with errors: counts, write-back of a correction, the rank retired by an uncorrectable one (R328,
R370, R382). -/
def State.unitRead (s : State) (region bay unit : Nat) (told : UnitSays) : State :=
  let rank := s.readRank region bay
  let ch := rankChannel region rank
  let c := s.chan ch
  match told with
  | .right => s
  | .bad => ((s.setChan ch { c with uncorrected := c.uncorrected + 1 }).setInteg
      { s.integ with passUncorrected := s.integ.passUncorrected + 1 }).retireRank region rank 1
  | _ => ((s.setChan ch { c with corrected := c.corrected + 1 }).setInteg
      { s.integ with corrected := s.integ.corrected + 1, passCorrected := s.integ.passCorrected + 1 }).repeatCount region bay unit

/-- A repeat-table entry older than 24 h is freed (R382). -/
def execRepeatEntryExpire (region : Fin 4) (bay : BitVec 31) (unit : Fin 8) (s : State) : Host.Outcome State Fault Refusal :=
  let t := Tbl.get s.integ.repeats region []
  .next (s.setInteg { s.integ with repeats := Tbl.put s.integ.repeats region (t.filter fun e =>
    !(decide (e.bay = bay.toNat) && decide (e.unit = unit.val) && decide (e.course + 43200000000 < s.time.course))) })

/-- Where a unit of a bay lies (R312, R315): its physical rank, its bank and its row; a unit past column 2048 lies in the bay's second row. -/
def State.unitRow (s : State) (region bay unit : Nat) : Nat × Nat × Nat :=
  let place := bayPlace s.store.masks bay
  let rows := bayRows s.store.masks bay
  let runsOn := decide (2048 ≤ place.col + 34 * unit)
  let row := if runsOn then rows.getD 1 (place.bank, place.row) else (place.bank, place.row)
  (s.readRank region bay, row.1, row.2)

/-- A row joins the rubble list, every frame with a bay on it is copied, and ROW_WEAK is written (R383, R384). -/
def State.rowRetired (s : State) (region rank bank row : Nat) : State :=
  let ch := rankChannel region rank
  let w := rowWord ch (rank % 2) bank row
  let s := s.setStore { s.store with rubble := Tbl.put s.store.rubble region (s.rubble region ++ [w]) }
  let s := (s.copyFrames (fun b => (s.bayRowWords region b).contains w) (s.framesIn region)).2
  s.raise { code := 0x7007, sev := 1, region := region, unit := 0x2C5,
            args := leBytes 1 ch ++ leBytes 1 (rank % 2) ++ leBytes 1 bank ++ leBytes 4 row }

/-- A unit's count reaches 3 (R383, R384): its entry is freed and its row retired; with the rubble list full its rank is taken out of service. -/
def execRowWeak (region : Fin 4) (bay : BitVec 31) (unit : Fin 8) (s : State) : Host.Outcome State Fault Refusal :=
  let t := Tbl.get s.integ.repeats region []
  let mine (e : RepeatEntry) : Bool := decide (e.bay = bay.toNat) && decide (e.unit = unit.val)
  if !t.any fun e => mine e && decide (3 ≤ e.count) then .next s
  else
    let s := s.setInteg { s.integ with repeats := Tbl.put s.integ.repeats region (t.filter fun e => !mine e) }
    let (rank, bank, row) := s.unitRow region bay.toNat unit
    if (s.rubble region).contains (rowWord (rankChannel region rank) (rank % 2) bank row) then .next s
    else if 4096 ≤ (s.rubble region).length then .next (s.retireRank region rank 1)
    else .next (s.rowRetired region rank bank row)

/-- The scrubber may read a bay (R381): its rank is in service and not migrating, the bay on no rubble row, its channel
serving. -/
def State.scrubs (s : State) (region bay : Nat) : Bool :=
  let rank := s.readRank region bay
  decide (rank ≠ 254) && decide (s.rankMode region rank = .inService)
    && !(s.bayRowWords region bay).any (s.rubble region).contains
    && decide ((s.chan (rankChannel region rank)).mode = .serving)

/-- A scrub pass ends (R380): what it found is corrected or retires its rank, and SCRUB_PASS is written. -/
def execScrubPass (finds : List ScrubFind) (s : State) : Host.Outcome State Fault Refusal :=
  if (s.fn .scrubber).state ≠ .on ∨ s.power.mode = .quiet ∨ s.power.zeroing then .next s
  else
    let s := finds.foldl (fun s f =>
      if s.scrubs f.region f.bay.toNat then s.unitRead f.region f.bay.toNat f.unit (unitSays (s.bayUnit f.region f.bay.toNat f.unit) f.bytes) else s) s
    let g := s.integ
    let s := s.setInteg { g with scrubFrom := s.now, passCorrected := 0, passUncorrected := 0, passes := g.passes + 1 }
    .next (s.raise { code := 0x700A, sev := 0, unit := 0x2C5,
                     args := leBytes 4 ((s.now - g.scrubFrom) / 4096) ++ leBytes 4 g.passCorrected
                       ++ leBytes 2 (min 65535 g.passUncorrected) })

/- ## A Store read (R328, R365, R370, R372, R373) -/

/-- A transfer retried for link ECC; LINK_ECC_RETRY at most once per rank in 64 courses (R328, R334). -/
def State.linkRetry (s : State) (ch rank : Nat) : State :=
  let f := s.rankRefresh ch rank
  let n := f.retries + 1
  let put (s : State) (f : RankRefresh) : State := s.setStore { s.store with refresh := Tbl.put s.store.refresh (2 * ch + rank) f }
  if s.quiet64 f.retryAt then
    (put s { f with retries := 0, retryAt := some s.now }).raise
      { code := 0x6009, sev := 0, region := ch / 32, unit := rankUnit (2 * (ch % 32) + rank),
        args := leBytes 1 ch ++ leBytes 1 rank ++ leBytes 2 n }
  else put s { f with retries := n }

/-- An uncorrectable quarter of a page group (R372): a CLEAN page takes the header of its Cellar image; else every brick
takes the poisoned record and the page becomes DIRTY. (The group is read only where the index cache lacks it.) DESIGN CHOICE: the
lengths that BRICK_MISMATCH carries are 0 here, since no record tells one. -/
def State.groupLost (s : State) (k : Nat) : State :=
  let p := s.page k
  let img := if p.mode = .clean then (p.slot.bind s.image).bind fun i => if i.lost then none else some i else none
  match img with
  | some i =>
    let recs := s.openGroup i.page i.gen i.groupSeq i.group
    (s.updPage k fun p => { p with bricks := List.zipWith (fun r (l : Laid) => { l with record := r }) recs p.store }).groupWritten k
  | none =>
    let s := (upTo 16).foldl (fun s b => if ((s.page k).brick b).record = 0 then s
      else s.poisonStore (brickKey k b) ⟨5, 0, 0, 0⟩) s
    if p.mode = .clean then s.updPage k fun p => { p with mode := .dirty, dirtySince := s.now } else s

/-- What a Store read of a brick delivers (R365, R373): its plaintext; POISON with the stored copy unchanged; or POISON after
the stored copy was poisoned. -/
inductive ReadSays where
  | ok (plain : List Byte)
  | once
  | poisoned
  deriving Repr

/-- A Store read of a brick, in the order of checks of R373. -/
def State.readBrick (s : State) (bk : Nat) (f : ReadFaults) : ReadSays × State :=
  let k := bk / 16
  let place := s.brickPlace bk
  let (region, bay, first) := place.getD (0, 0, 0)
  let rank := s.readRank region bay
  let ch := rankChannel region rank
  let s := s.endRead bk
  let s := if f.link.val = 1 then s.linkRetry ch (rank % 2)
    else if f.link.val = 2 then (s.linkRetry ch (rank % 2)).retireRank region rank 2 else s
  let s := if f.parity.val = 0 then s
    else s.parityError region (0x180 + ch % 32) 0 (f.parity.val = 2) (pageRoom k)
  if f.parity.val = 2 then (.once, s)
  else
    let p := s.page k
    let l := p.brick (bk % 16)
    let errs (u : Nat) : List (Fin 34 × Byte) := (f.units.filter fun e => e.unit.val = u).flatMap (·.bytes)
    let told := (upTo (recSectors l.record)).map fun u => (u, unitSays (l.unit u) (errs u))
    let group := f.units.filter fun u => 8 ≤ u.unit.val
    let s := told.foldl (fun s u => s.unitRead region (bay + (first + u.1) / 8) ((first + u.1) % 8) u.2) s
    let s := if group.any fun u => decide (unitSays (p.groupUnit (u.unit.val - 8)) u.bytes = .bad) then s.groupLost k else s
    let wrong := told.any (fun u => decide (u.2 = .wrong) || decide (u.2 = .bad)) || decide (f.link.val = 2)
    if wrong then
      let p := s.page k
      (.poisoned, s.poisonStore bk (crcMismatch (s.openBrick k (bk % 16) p.gen (p.brick (bk % 16)))))
    else
      match s.plainOf bk with
      | .ok d => (.ok d, s)
      | .error m => (.poisoned, s.poisonStore bk m)

/-- The brick's sectors are in the Store. -/
def State.brickStored (s : State) (bk : Nat) : Bool :=
  (s.page (bk / 16)).inStore && decide (((s.page (bk / 16)).brick (bk % 16)).record ≠ 0)

/-- The requests that wait for a brick's read are answered POISON (R365). -/
def State.poisonReads (s : State) (bk : Nat) : State :=
  let mine (r : OpenReq) : Bool := decide (r.why = .read) && decide (s.brickOf r.room r.line = bk)
  let l := s.reqs.opened.filter mine
  l.foldl (fun s r => s.finish r 2 none) (s.setOpen (s.reqs.opened.filter fun r => !mine r))

/-- Store sectors arrive and are checked (R148, R373), and the reads that wait for the brick are answered. -/
def execStoreReadComplete (brick : BrickId) (faults : ReadFaults) (s : State) :
    Host.Outcome State Fault Refusal :=
  let bk := brickIdKey brick
  if !s.brickStored bk ∨ s.sec.keysOff then .next s
  else
    match s.readBrick bk faults with
    | (.ok d, s) => .next (s.retryWith (some (bk, d)))
    | (.once, s) => .next ((s.poisonReads bk).retryAll)
    | (.poisoned, s) => .next s.retryAll

/-- A slot's fill from the Store is checked (R192): the waiting writes are merged in arrival order and answered. -/
def execLandingFillDone (brick : BrickId) (faults : ReadFaults) (s : State) :
    Host.Outcome State Fault Refusal :=
  let bk := brickIdKey brick
  match s.slotOf bk with
  | none => .next s
  | some l =>
    if !l.filling ∨ !s.brickStored bk ∨ s.sec.keysOff then .next s
    else
      let zeros := List.replicate 256 (0 : Byte)
      let put (s : State) (d : List Byte) (pm : Nat) : State := s.putSlot bk { l with data := d, poison := pm, written := 0, filling := false, last := s.now }
      match s.readBrick bk faults with
      | (.ok d, s) => .next ((put s d (recMask ((s.page (bk / 16)).brick (bk % 16)).record)).retryAll)
      | (_, s) => .next ((put s zeros 15).retryAll)

/- ## The landing's way to the Store (R162, R194, R203) -/

/-- The sample of a window in SX7 table mode takes a brick's plaintext (R203 steps 1, 2). -/
def State.sampleBrick (s : State) (bk : Nat) (plain : List Byte) (region : Nat) : State :=
  let k := bk / 16
  let room := pageRoom k
  match s.windowOf k with
  | none => s
  | some w =>
    let key := 16 * room + w
    let x := Tbl.get s.codec.samples key ⟨0, [], [], false⟩
    if s.val .roomTableMode room 0 = 0 ∨ x.done then s
    else
      let el := attrElement (s.pageAttr k)
      let vals := plain.foldl (fun t b => Tbl.upd t b.toNat 0 (· + 1)) x.values
      let exps := match splitOf el with
        | none => x.exps
        | some p =>
          let es := elementsOf p.bits ((placesOf el (bk % 16) .element).map fun i => plain.getD i 0)
          es.foldl (fun t e => Tbl.upd t (p.expOf e) 0 (· + 1)) x.exps
      let x := { x with bytes := x.bytes + 256, values := vals, exps := exps, done := decide (65536 ≤ x.bytes + 256) }
      s.setCodec { s.codec with samples := Tbl.put s.codec.samples key x,
                                queue := if x.done then s.codec.queue ++ [(region, key)] else s.codec.queue }

/-- The lines of a brick whose Lost entries have their poison in the Store now are freed (R238). -/
def State.freeMarked (s : State) (bk : Nat) : State :=
  s.setEntries (Tbl.keep s.dir.entries fun l e => !(decide (lineBrick l = bk) && decide (e.st = DirMode.lost) && e.marked))

/-- A slot's brick coded, encrypted, given its check bytes, laid in its page's frame and freed (R15, R162, R165, R194, R238, R366); none where the region has no run for it. -/
def State.storeSlot (s : State) (bk : Nat) (l : Landing) (parity : Fin 3) : Option State :=
  let k := bk / 16
  let region := ((s.page k).frame.getD 0) / framesPerRegion
  let pm := if parity = 2 then l.poison ||| l.written else l.poison
  let data := (upTo 4).foldl (fun d j => if bitOf pm j then mergeLine d j (List.replicate 64 0) fullMask else d) l.data
  let s := if parity = 0 then s else s.parityError region (match l.lane with | some x => 0x0C0 + x % 64 | none => 0x3FF) 2 (decide (parity = 2)) (pageRoom k)
  let (v, s) := s.nextVersion bk
  let coded := if pm = 0 then compress (s.codeChoice k) (bk % 16) v data
    else poisonForm (attrSealed (s.pageAttr k)) v pm data
  let st := s.sealBrick k (bk % 16) (s.page k).gen coded
  (s.layBrick bk st).map fun s =>
    let s := (s.groupWritten k).queueStoreWrite bk
    ((s.sampleBrick bk data region).setLanding (Tbl.del s.landing bk)).freeMarked bk

/-- A queued slot is compressed, encrypted and accepted by the Store controller, and freed (R194). -/
def execLandingSlotFreed (brick : BrickId) (parity : Fin 3) (s : State) :
    Host.Outcome State Fault Refusal :=
  let bk := brickIdKey brick
  match s.slotOf bk with
  | none => .next s
  | some l =>
    if l.filling ∨ !(l.queued || l.under.isSome) ∨ s.sec.keysOff ∨ !(s.page (bk / 16)).inStore then .next s
    else
      let (d, pm) := l.under.getD (l.data, l.poison)
      match s.storeSlot bk { l with data := d, poison := pm } parity with
      | none => .next s
      | some s =>
        -- A marked slot goes ahead of the slot that a later write took for its brick.
        let s := if l.under.isSome then s.putSlot bk { l with under := none, queued := false, lane := none } else s
        .next (s.copyDemoted (bk / 16)).retryAll

/-- A slot no write has reached for LANDING_DWELL courses is queued for compression (R194). -/
def execLandingDwell (brick : BrickId) (s : State) : Host.Outcome State Fault Refusal :=
  let bk := brickIdKey brick
  match s.slotOf bk with
  | none => .next s
  | some l =>
    if !l.filling ∧ l.last + 4096 * s.val .landingDwell 0 0 ≤ s.now then .next (s.queueSlot bk) else .next s

/- ## Repairs (R374 to R376, R379) -/

/-- A poisoned brick with a clean source is rewritten through the landing (R375), ahead of port writes for space. -/
def execBrickRepair (brick : BrickId) (s : State) : Host.Outcome State Fault Refusal :=
  let bk := brickIdKey brick
  let k := bk / 16
  match s.integ.repairs.find? fun r => r.brick = bk with
  | none => .next s
  | some r =>
    let p := s.page k
    let drop (s : State) : State := s.setInteg { s.integ with repairs := s.integ.repairs.erase r }
    if !p.inStore then .next (drop s)
    else if (s.slotOf bk).isNone ∧ (s.landingFull ∨ (attrDurable (s.pageAttr k) ∧ !s.fits 264)) then .next s
    else
      let (old, pm) := match s.baseOf bk with
        | .ready d m => (d, m)
        | _ => (match s.plainOf bk with | .ok d => d | .error _ => List.replicate 256 0, recMask (p.brick (bk % 16)).record)
      let data := (upTo 4).foldl (fun d j =>
        if bitOf pm j then mergeLine d j ((r.plain.drop (64 * j)).take 64) fullMask else d) old
      let s := (((s.putSlot bk { Landing.init s.now with data := data, written := pm }).requeue bk false).pageWritten k)
      let s := (drop s).setInteg { (drop s).integ with repaired := s.integ.repaired + 1 }
      .next ((s.raise { code := 0x7003, sev := 1, unit := srcRoom (pageRoom k), args := brickArg bk ++ leBytes 1 r.source }).retryAll)

/-- IMAGE_DAMAGED for each retained shelf version that refers to a slot (R379). -/
def State.damageShelves (s : State) (slot : Nat) : State :=
  let hits := s.shelves.flatMap fun f => (f.2.vers.flatMap fun v => (v.pages.filter fun p => p.slot = slot).map fun p =>
    (f.1, f.2.room, v.version, p.page))
  s.raiseAll (hits.map fun h =>
    { code := 0x7005, sev := 2, unit := srcRoom h.2.1,
      args := leBytes 1 2 ++ leBytes 2 h.1 ++ leBytes 4 h.2.2.1 ++ leBytes 5 h.2.2.2 })

/-- A page's sixteen bricks poisoned as one image (R376, R403): every record takes the poisoned form of R183, without sectors, or with eight
of encrypted zeros in a sealed window (R199), under its next VERSION. DEDUCED: R376 says 'with no sectors' of the form R183 has outside
sealed windows. -/
def State.poisonAll (s : State) (k : Nat) : State :=
  let s := (upTo 16).foldl (fun s b =>
    let (v, s) := s.nextVersion (brickKey k b)
    let st := s.sealBrick k b (s.page k).gen (poisonForm (attrSealed (s.pageAttr k)) v 15 (List.replicate 256 0))
    s.updPage k fun p => { p with bricks := p.store.set b st }) s
  (s.updPage k fun p => { p with footing := [] }).groupWritten k

/-- A replacement image of poisoned records in a Store frame, its page DIRTY (R376 step 3); `old` is the image lost. -/
def State.replaceImage (s : State) (k : Nat) (old : Image) : State :=
  let s := (s.updPage k fun p => { p with bricks := old.bricks, gen := old.gen, groupSeq := old.groupSeq, behind := true }).poisonAll k
  let r := s.frameRegion (homeSlice (pageNo k))
  let f := s.findFrame r
  let bays := baysFor (s.page k).store []
  let start := (s.findRun r bays).getD 0
  let s := s.setStore { s.store with frames := Tbl.put s.store.frames f ⟨k, start, bays, none⟩ }
  s.updPage k fun p => { p with mode := .dirty, transit := .none, frame := some f, dirtySince := s.now }

/-- A replacement image that only manifests, versions or a DEMOTED page refer to, under a fresh generation (R165, R376 step 3). -/
def State.deadImage (s : State) (i : Image) : Image :=
  let g := max (i.gen + 1) (s.freshGen i.page)
  let bs := (upTo 16).map fun b =>
    let v := (recVersion (i.bricks.getD b Laid.blank).record + 1) % 2 ^ 16
    (s.sealBrick i.page b g (poisonForm (attrSealed (s.pageAttr i.page)) v 15 (List.replicate 256 0))).bare
  { i with gen := g, groupSeq := 0, bricks := bs, group := s.sealGroup i.page g 0 bs, lost := false }

/-- An image that no copy replaces becomes one of poisoned records, through a Store frame of each page that refers to it, and every referrer
is told (R376, R379). It stands under the slot until it is programmed, so that every referrer reads the poison. -/
def State.poisonReferrers (s : State) (sl : Nat) (i : Image) : State :=
  let pages := (s.pages.filter fun e => e.2.slot = some sl)
  let s := pages.foldl (fun s e =>
    let k := e.1
    let s := if (s.page k).mode = .cellar then (s.replaceImage k i).settleOverdraft (pageRoom k) else s
    let s := s.raise { code := 0x7004, sev := 2, unit := srcRoom (pageRoom k), args := brickArg (brickKey k 0) ++ leBytes 1 5 }
    let s := s.raise { code := 0x7005, sev := 2, unit := srcRoom (pageRoom k),
                       args := leBytes 1 1 ++ leBytes 2 0 ++ leBytes 4 0 ++ leBytes 5 (pageNo k) }
    s.damageShared k) s
  let dead : Image := match pages.find? fun e => (s.page e.1).inStore with
    | some e => imageOf e.1 (s.page e.1).form i.loc i.refs
    | none => s.deadImage i
  (s.setCellar { s.cellar with images := Tbl.put s.cellar.images sl dead }).damageShelves sl

/-- The search for a lost image's referrers ends (R376, R379): a CLEAN Store copy replaces it; else it is poisoned. -/
def execReferrerSearchEnd (slot : BitVec 34) (s : State) : Host.Outcome State Fault Refusal :=
  let sl := slot.toNat
  match s.image sl with
  | none => .next s
  | some i =>
    if !i.lost then .next s
    else
      match (s.pages.filter fun e => e.2.slot = some sl).find? fun e => e.2.mode = .clean with
      | some (k, p) =>
        let s := s.setCellar { s.cellar with images := Tbl.put s.cellar.images sl { imageOf k p.form i.loc i.refs with lost := false } }
        let s := (s.updPage k fun p => { p with mode := .dirty, dirtySince := s.now }).queueWriteBack k 1
        let s := s.setInteg { s.integ with repaired := s.integ.repaired + 1 }
        .next (s.raise { code := 0x7003, sev := 1, unit := srcRoom (pageRoom k), args := brickArg (brickKey k 0) ++ leBytes 1 4 })
      | none => .next (s.poisonReferrers sl i)

end Sys2Proof.Machine
end

