-- ==== Sys2Proof/Machine/Tiers.lean ====
section
/-!
DEFINITION. Sys2Proof/Machine/Tiers.lean: fetches that land, write-back by age and idleness, promotion, removal, the Loft
quota scale, and what placement does at a course boundary (R137 to R149, R153 to R155, R219, R317).
-/

namespace Sys2Proof.Machine

/-- A page of a running unshelve verified (R219 step 5): every brick expands and has the CRC of its page entry. A brick that
fails is poisoned; its stored bytes count where it was fetched (R223). Answers the state with the page off the list. -/
def State.verifyPage (s : State) (k : Nat) (fetched : Bool) : State :=
  let hit := s.shelves.find? fun f => match f.2.job with
    | some j => decide (j.op = 2) && j.begun && decide (f.2.room = pageRoom k) && j.todo.contains (pageNo k) && decide (k < 2 ^ 40)
    | none => false
  match hit with
  | none => s
  | some (n, f) =>
    match f.job with
    | none => s
    | some j =>
      let ent := (f.vers.find? fun v => v.version = j.version).bind fun v => v.pages.find? fun p => p.page = pageNo k
      let crcs := (ent.map (·.crcs)).getD []
      let s := (upTo 16).foldl (fun s b =>
        let st := (s.page k).brick b
        match s.expandIn k b (s.page k).gen st (s.page k).footing with
        | .error m => s.poisonStore (brickKey k b) m
        | .ok d =>
          if crc32c d = crcs.getD b (crc32c d) ∨ recPoison st.record then s
          else s.poisonStore (brickKey k b) (crcMismatch (s.openBrick k b (s.page k).gen st))) s
      let bad := (upTo 16).filter fun b => recPoison ((s.page k).brick b).record
      let mask := bad.foldl (fun m b => m + 2 ^ b) 0
      let found : List ManPage := match ent with
        | some e => if e.mask = mask then [] else
            [{ e with mask := mask, crcs := (upTo 16).map fun b => if bad.contains b then recCrc ((s.page k).brick b).record
                                            else crcs.getD b 0 }]
        | none => []
      let j' := { j with todo := j.todo.erase (pageNo k), bytes := j.bytes + (if fetched then storedSize (s.page k).store else 0),
                         poisoned := j.poisoned + bad.length, found := j.found ++ found }
      s.setShelves (Tbl.put s.shelves n { f with job := some j' })

/-- The footing bricks that a page's DELTA bricks name (R181): by shelf and base version, from the images of the shelf's manifests, each
with the generation of its image, which decrypts it (R196). -/
def State.footingOf (s : State) (k : Nat) (bs : List Laid) : Tbl (Nat × Laid) :=
  (upTo 16).filterMap fun b =>
    match (bs.getD b Laid.blank).base with
    | none => none
    | some (shelf, ver) =>
      let mine (v : ShelfVer) : Option Image := (v.pages.find? fun p => p.page = pageNo k).bind fun p =>
        (s.image p.slot).filter fun i => decide (pageRoom i.page = pageRoom k)
      let img := (Tbl.find s.shelves shelf).bind fun f => ((f.vers ++ f.bases).filter fun v => v.version = ver).findSome? mine
      img.map fun i =>
        let l := i.bricks.getD b Laid.blank
        (b, i.gen, { l with check := sectorChecks (l.sectors.length / 32) l.sectors })

/-- A stair's step that has landed late in deadline mode (R155). -/
def State.landedLate (s : State) (t m : Nat) : State :=
  let d := s.stairDeadlineAt t m
  if s.stairTimed t && decide (d < s.now) && (s.stepPages t m).all fun k => (s.page k).inStore then s.stairLate t m (s.now - d)
  else s

/-- A Cellar fetch lands in the Store at bays found for it (R133, R149, R168, R181, R345, R376): the page group and sectors come unchanged and
take check bytes; the page becomes CLEAN, or VOLATILE with its Cellar copy freed; lost bricks are poisoned; an unshelve verifies it.
DESIGN CHOICE: the lengths that BRICK_MISMATCH carries for a lost brick are 0, since nothing of its body was read. -/
def State.landFetched (s : State) (k : Nat) (f : Fetch) (i : Image) (start : Nat) : State :=
  let p := s.page k
  let r := s.frameRegion (loftRegion p)
  let foot := s.footingOf k i.bricks
  let bs := s.landedBricks i
  let fr := s.findFrame r
  let s := s.senseImage i
  let s := s.setStore { s.store with frames := Tbl.put s.store.frames fr ⟨k, start, baysFor i.bricks foot, none⟩ }
  let vol := decide (p.mode = .demoted)
  let s := s.updPage k fun p => { p with mode := if vol then .volatile else .clean, transit := .none, bricks := bs,
                                         footing := foot, frame := some fr, slot := if vol then none else p.slot,
                                         gen := i.gen, groupSeq := i.groupSeq, group := i.group, groupCheck := sectorChecks 4 i.group,
                                         behind := p.behind || decide (i.gen ≠ p.gen) || decide (i.groupSeq ≠ p.groupSeq),
                                         gens := max p.gens (i.gen + 1), promote := f.loft }
  let s := if vol then match p.slot with | some sl => s.releaseSlot sl | none => s else s
  let s := if i.lost then (upTo 16).foldl (fun s b => if ((s.page k).brick b).record = 0 then s
    else s.poisonStore (brickKey k b) ⟨5, 0, 0, 0⟩) s else s
  let s := (s.settleOverdraft (pageRoom k)).verifyPage k true
  match f.step with
  | some (t, m) => s.landedLate t m
  | none => s

/-- FETCH_COMPLETE (R133, R149, R317) of a fetch whose turn has come: the page lands where there are bays for it, and what waited for it goes on; without bays the fetch waits. -/
def execFetchComplete (page : PageId) (s : State) : Host.Outcome State Fault Refusal :=
  let k := pageIdKey page
  match s.fetchOf k, (s.page k).slot.bind s.image with
  | some f, some i =>
    if f.begun.isNone then .next s
    else
    let s := s.setTier { s.tier with fetches := s.tier.fetches.erase f }
    let p := s.page k
    if p.mode ≠ .cellar ∧ p.mode ≠ .demoted then .next s
    else
      match s.findRun (s.frameRegion (loftRegion p)) (baysFor i.bricks (s.footingOf k i.bricks)) with
      | none => .next (s.setTier { s.tier with fetches := f :: s.tier.fetches })
      | some start => .next (s.landFetched k f i start).retryAll
  | _, _ => .next s

/- ## Write-back by idleness and age (R145) -/

/-- A DIRTY page not touched for WRITEBACK_IDLE courses is queued (R145). -/
def execWritebackIdle (page : PageId) (s : State) : Host.Outcome State Fault Refusal :=
  let k := pageIdKey page
  let p := s.page k
  .next (if p.lastTouch + s.val .writebackIdle 0 0 ≤ s.time.course then s.queueWriteBack k 4 else s)

/-- A page dirty for WRITEBACK_AGE_MAX courses is queued (R145). -/
def execWritebackAgeMax (page : PageId) (s : State) : Host.Outcome State Fault Refusal :=
  let k := pageIdKey page
  let p := s.page k
  .next (if p.mode = .dirty ∧ p.dirtySince + 4096 * s.val .writebackAgeMax 0 0 ≤ s.now then s.queueWriteBack k 4 else s)

/-- A page dirty for twice WRITEBACK_AGE_MAX raises WRITEBACK_LAG once per 64 courses (R145). -/
def execWritebackLag (page : PageId) (s : State) : Host.Outcome State Fault Refusal :=
  let k := pageIdKey page
  let p := s.page k
  if p.mode = .dirty ∧ p.dirtySince + 8192 * s.val .writebackAgeMax 0 0 ≤ s.now ∧ s.quiet64 s.tier.lagAt then
    let old := Tbl.total s.pages fun _ q => if q.mode = .dirty then 1 else 0
    let age := if old = 0 then 0 else s.pages.foldl (fun a e => if e.2.mode = .dirty then max a (s.now - e.2.dirtySince) else a) 0
    .next ((s.setTier { s.tier with lagAt := some s.now }).raise
      { code := 0x3003, sev := 2, unit := srcRoom (pageRoom k), args := leBytes 4 (age / 4096) ++ leBytes 8 s.dirtyStored })
  else .next s

/-- Ceiling pressure (R145, R396): above 75 % of the ceiling pages are queued at step 1, oldest dirty first, until those
queued, or being written back with no write since, would bring the total to 75 %; in a breach too. -/
def State.ceilingPressure (s : State) : State :=
  let goal := s.ceiling * 3 / 4
  let excess := s.dirtyStored - goal
  let queued := Tbl.total s.pages fun _ p =>
    if p.mode = .dirty ∧ (p.wbStep = 1 ∨ (p.transit = .writing ∧ !p.wrote)) then storedSize p.store + 8 else 0
  let s := s.setTier { s.tier with pressure := decide (excess ≠ 0) }
  let l := sortBy (fun a b => decide (a.2.dirtySince < b.2.dirtySince))
    (s.pages.filter fun e => decide (e.2.mode = PageMode.dirty) && decide (e.2.wbStep ≠ 1) && (decide (e.2.transit = Transit.none) || e.2.wrote))
  (l.foldl (fun (x : Nat × State) e =>
    if excess ≤ x.1 then x else (x.1 + storedSize e.2.store + 8, x.2.queueWriteBack e.1 1)) (queued, s)).2

/- ## The Loft (R136, R137, R140) -/

/-- Hot-page space in service, in bytes (R135, R157): a retired bank group takes 32 MiB of it (R16), a retired bond block all of its eight
groups. -/
def State.hotCapacity (s : State) : Nat :=
  let group (r g : Nat) : Bool := !s.isRetired r (0x240 + g) && !s.isRetired r (0x280 + g / 8)
  (upTo 4).foldl (fun n r => n + (1536 - 32 * (64 - ((upTo 64).filter (group r)).length)) * 1048576) 0

/-- A room's effective Loft quota (R137). -/
def State.effLoft (s : State) (room : Nat) : Nat := s.val .roomLoftQuota room 0 * s.tier.scale / 1000

/-- A page's Loft copy dropped, once the landing holds none of its bricks (R136). -/
def State.dropLoft (s : State) (k : Nat) : State := if s.inLanding k then s else s.updPage k Page.dropLoft

/-- The coldest of some pages, the oldest LAST_TOUCH on a tie (R142). -/
def State.coldestOf (s : State) (l : List (Nat × Page)) : Option (Nat × Page) :=
  l.foldl (fun (a : Option (Nat × Page)) e => match a with
    | none => some e
    | some b =>
      let x := s.heatOf e.2
      let y := s.heatOf b.2
      if x < y ∨ (x = y ∧ e.2.lastTouch < b.2.lastTouch) then some e else a) none

/-- The Loft pages of a room that can be dropped now (R136). -/
def State.loftPages (s : State) (room : Nat) : List (Nat × Page) :=
  s.pages.filter fun e => decide (pageRoom e.1 = room) && e.2.loft.isSome && !s.inLanding e.1

/-- A page that heat does not drop from the Loft (R143, R153): of a Loft-pinned window, or of a stair's Loft step in use. -/
def State.loftPinned (s : State) (e : Nat × Page) : Bool := e.2.promote || decide (attrPlacement (s.pageAttr e.1) = 1)

/-- The coldest Loft page of a room (R140) of those that heat may drop. -/
def State.coldest (s : State) (room : Nat) : Option (Nat × Page) :=
  s.coldestOf ((s.loftPages room).filter fun e => !s.loftPinned e)

/-- A room above its effective Loft quota has its coldest Loft pages dropped until it fits (R137). DEDUCED: those that heat may drop go first,
and the pinned ones only where these do not suffice. -/
def State.trimLoft (s : State) (room : Nat) : Nat → State
  | 0 => s
  | n + 1 =>
    if s.usedLoft room ≤ s.effLoft room then s
    else match (s.coldest room).or (s.coldestOf (s.loftPages room)) with
      | none => s
      | some e => (s.dropLoft e.1).trimLoft room n

/-- Every room trimmed at a boundary; pages that the landing holds are dropped at a later one. -/
def State.trimAll (s : State) : State := (upTo 64).foldl (fun s r => s.trimLoft r s.pages.length) s

/-- The Loft quota scale (R137): the largest whole permille at which the scaled quotas fit. -/
def State.settleLoftScale (s : State) : State :=
  let sum := (upTo 64).foldl (fun n r => n + s.val .roomLoftQuota r 0) 0
  let scale := if sum ≤ s.hotCapacity then 1000 else 1000 * s.hotCapacity / sum
  if scale = s.tier.scale then s
  else (s.setTier { s.tier with scale := scale }).raise
    { code := 0x3004, sev := 1, unit := 0x2C1, args := leBytes 2 s.tier.scale ++ leBytes 2 scale }

/-- A page enters the Loft (R136). -/
def State.intoLoft (s : State) (k : Nat) : State := s.updPage k fun p => { p with loft := some (loftRegion p), spilled := false }

/-- One page of the promotion queue (R140, R143): in within the quota; else one by heat in place of a colder page of its room, or a spill. A
pinned page beyond the quota stays in the Store, and counts once as a spill while it does (DESIGN CHOICE). -/
def State.promoteOne (s : State) (k : Nat) : State :=
  let p := s.page k
  let room := pageRoom k
  let spill (s : State) : State := s.updRoom room fun x => { x with spill := x.spill + 1 }
  if !p.inStore || p.loft.isSome || decide (attrPlacement (s.pageAttr k) = 3) then s
  else if s.usedLoft room + 4096 ≤ s.effLoft room then s.intoLoft k
  else if s.loftPinned (k, p) then (if p.spilled then s else spill (s.updPage k fun p => { p with spilled := true }))
  else
    match s.coldest room with
    | some e => if s.heatOf e.2 < s.heatOf p then (s.dropLoft e.1).intoLoft k else spill s
    | none => spill s

/-- Promotion at a boundary (R140): PROMOTE_RATE pages a region, oldest queued first; pages a stair brought to the Loft or a
Loft-pinned window holds come through the same queue. -/
def State.promotePages (s : State) : State :=
  let want := (s.pages.filter fun e => e.2.promote && e.2.inStore && e.2.loft.isNone && !s.tier.promo.contains e.1).map (·.1)
  let q := s.tier.promo ++ want
  let rate := s.decided .promoteRate 0 0
  let (_, rest, now) := q.foldl (fun (x : Tbl Nat × List Nat × List Nat) k =>
    let r := loftRegion (s.page k)
    if Tbl.get x.1 r 0 < rate then (Tbl.upd x.1 r 0 (· + 1), x.2.1, x.2.2 ++ [k]) else (x.1, x.2.1 ++ [k], x.2.2)) ([], [], [])
  now.foldl (fun s k => s.promoteOne k) (s.setTier { s.tier with promo := rest })

/- ## Removal from the Store (R141, R142, R147, R317) -/

/-- A page taken out of the Store (R141): a CLEAN one is dropped, a DIRTY one queued for write-back, a VOLATILE one demoted. DESIGN CHOICE: the
scan position then stands just past it (R142 gives no place). -/
def State.removePage (s : State) (k : Nat) : State :=
  let s := s.setTier { s.tier with scan := Tbl.put s.tier.scan (pageRoom k) (k + 1) }
  match (s.page k).mode with
  | .clean => s.leaveStore k .cellar
  | .dirty => (s.queueWriteBack k 3).updPage k fun p => { p with leaving := true }
  | .volatile => (s.queueDemotion k 3).updPage k fun p => { p with leaving := true }
  | _ => s

/-- A room's pages removed down to the low water (R141), `n` at most. -/
def State.removeDown (s : State) (room : Nat) : Nat → State
  | 0 => s
  | n + 1 =>
    if s.usedStore room - s.leavingBytes room ≤ (s.room room).effStore * s.decided .storeLowWater 0 0 / 100 then s
    else match s.pickRemoval room [] with
      | some e => (s.removePage e.1).removeDown room n
      | none => s

/-- A room above its effective quota has pages removed down to the low water, and its overshoot reported (R141, R147). -/
def State.removeRoom (s : State) (room n : Nat) : State :=
  if s.usedStore room ≤ (s.room room).effStore then s
  else
    let s := if (s.room room).effStore + s.overshootLimit room < s.usedStore room then s.overshootSaid room else s
    s.removeDown room n

/-- A page is on its way out (R147): being written back or demoted, or queued for it and able to begin. -/
def State.onItsWay (s : State) (k : Nat) (p : Page) : Bool :=
  decide (p.transit = .writing) || decide (p.transit = .demoting) || (decide (p.mode = .dirty) && (p.leaving || decide (p.wbStep ≠ 0)))
    || (decide (p.mode = .volatile) && decide (p.wbStep ≠ 0) && !s.cellarFull (pageRoom k))

/-- The rooms R147 holds nothing for, judged at a boundary. -/
def State.settleStuck (s : State) : State :=
  let stuck := (upTo 64).filter fun r =>
    decide ((s.room r).effStore < s.usedStore r) && (s.pickRemoval r []).isNone
      && !s.pages.any fun e => decide (pageRoom e.1 = r) && s.onItsWay e.1 e.2
      && s.pages.any fun e => decide (pageRoom e.1 = r) && decide (e.2.mode = PageMode.volatile) && s.cellarFull r
  s.setTier { s.tier with stuck := stuck }

/-- Every room's removal for a course (R141). -/
def State.removeAll (s : State) : State :=
  ((upTo 64).foldl (fun s r => s.removeRoom r s.pages.length) s).settleStuck

/-- Free bays below the reserve: CLEAN pages of any room are dropped, coldest first (R317). -/
def State.restoreBays (s : State) : Nat → State
  | 0 => s
  | n + 1 =>
    if !s.baysLow then s
    else
      let l := s.pages.filter fun e => decide (e.2.mode = PageMode.clean) && !s.heldInStore e.1 e.2 && !s.stairHolds e.1
      match l.foldl (fun (a : Option (Nat × Page)) e => match a with
        | none => some e
        | some b => if s.heatOf e.2 < s.heatOf b.2 then some e else a) none with
      | none => s
      | some e => (s.leaveStore e.1 .cellar).restoreBays n

/-- Pages of Cellar-only windows leave the Store once nothing holds them there (R143, R144), those to be written first at removal's step (R145). -/
def State.cellarOnly (s : State) : State :=
  (s.pages.filter fun e => decide (attrPlacement (s.pageAttr e.1) = 3) && e.2.inStore).foldl (fun s e =>
    let p := s.page e.1
    let s := if p.loft.isSome then s.dropLoft e.1 else s
    let p := s.page e.1
    match p.mode with
    | .clean => if s.staysInStore e.1 then s else s.leaveStore e.1 .cellar
    | .dirty => s.queueWriteBack e.1 3
    | .volatile => s.queueDemotion e.1 3
    | _ => s) s

/-- Placement's work at a boundary (R139 to R147, R153, R154, R317). -/
def State.placement (s : State) : State :=
  let s := if s.time.course % 2 ^ 28 = 0 then s.agePages else s
  let s := (s.setTier { s.tier with channels := s.channelsIn }).settleLoftScale.trimAll.promotePages
  let s := s.removeAll
  let s := s.cellarOnly.ceilingPressure
  let s := s.restoreBays s.pages.length
  let s := s.landingPressure
  let s := s.stairs.foldl (fun s e => if s.stairRuns e.1 then s.unstarve e.1 else s) s
  s.serveFetches

end Sys2Proof.Machine
end

