-- ==== Sys2Proof/Machine/Dictionary.lean ====
section
/-!
DEFINITION. Sys2Proof/Machine/Dictionary.lean: how a request to the object dictionary is taken, judged and answered (R438
to R449): sessions, classes and masks, statuses, responses.
-/

namespace Sys2Proof.Machine

/-- The class of an arrival (R426, R450): Steward, a Tenant port, another member, the board, the rack, the service UART. -/
inductive Cls where
  | steward | tenant (p : Nat) | vault | board | rack | bench
  deriving DecidableEq, Repr

/-- The class a frame arrives under; none from a port that is Off or a UART that is not enabled. -/
def State.classOf (s : State) (a : Arrival) : Option Cls :=
  match a with
  | .port p => if !s.isUp p then none else match s.roleOf p with
    | .companion => some .steward | .host => some (.tenant p) | .peer => some .vault | .off => none
  | .i3c => some .board
  | .rack _ => some .rack
  | .uart => if s.board.bench then some .bench else none
  | .relay _ => some .vault

/-- The statuses of R446. -/
def stOk : Nat := 0
/-- NO_ENTRY. -/
def stNoEntry : Nat := 1
/-- DENIED. -/
def stDenied : Nat := 2
/-- ACCESS. -/
def stAccess : Nat := 3
/-- LENGTH. -/
def stLength : Nat := 4
/-- REFUSED. -/
def stRefused : Nat := 5
/-- STATE. -/
def stState : Nat := 6
/-- BUSY. -/
def stBusy : Nat := 7
/-- BLOCK. -/
def stBlock : Nat := 9

/-- A reply: its status and payload, one DETAIL byte where the status is not OK (R445). -/
abbrev Reply := Nat × List Byte

/-- OK with no data. -/
def rOk : Reply := (stOk, [])
/-- A status with DETAIL 0. -/
def rNo (st : Nat) : Reply := (st, [0])
/-- A status with a reason code. -/
def rWhy (st why : Nat) : Reply := (st, leBytes 1 why)

/- ## Sessions (R449) -/

/-- A session by its arrival. -/
def State.sess (s : State) (a : Arrival) : Option Session := s.od.sessions.find? fun x => x.arr = a

/-- A session opened: at most 8 of the rack, the one idle longest giving way. -/
def State.openSess (s : State) (a : Arrival) : State :=
  match s.sess a with
  | some _ => s
  | none =>
    let isRack (x : Session) : Bool := match x.arr with | .rack _ => true | _ => false
    let racks := s.od.sessions.filter isRack
    let old := (sortBy (fun x y => decide (x.last < y.last)) racks).head?
    let l := match a, old with
      | .rack _, some o => if 8 ≤ racks.length then s.od.sessions.erase o else s.od.sessions
      | _, _ => s.od.sessions
    s.setOd { s.od with sessions := l ++ [⟨a, [], [], s.now, []⟩] }

/-- The state with a session replaced. -/
def State.putSess (s : State) (x : Session) : State :=
  s.setOd { s.od with sessions := s.od.sessions.map fun y => if y.arr = x.arr then x else y }

/-- A session changed. -/
def State.updSess (s : State) (a : Arrival) (f : Session → Session) : State :=
  match s.sess a with | some x => s.putSess (f x) | none => s

/-- A session ends (R449, R456): its values, transfers and notification queue go. -/
def State.endSess (s : State) (a : Arrival) : State :=
  let s := s.setOd { s.od with sessions := s.od.sessions.filter fun x => x.arr ≠ a }
  match a with
  | .port p => s.setNotify (Tbl.del s.notify p)
  | .i3c => (s.setNotify (Tbl.del s.notify 0x40)).setOd { s.od with i3c := { s.od.i3c with waiting := [] } }
  | _ => s

/-- A per-session value in force. -/
def State.sessVal (s : State) (a : Arrival) (e : Ent) : Nat :=
  match s.sess a with | some x => Tbl.get x.vals (e.row.key 0 0) e.row.dflt | none => e.row.dflt

/-- A per-session value set. -/
def State.setSessVal (s : State) (a : Arrival) (e : Ent) (v : Nat) : State :=
  s.updSess a fun x => { x with vals := Tbl.put x.vals (e.row.key 0 0) v }

/- ## Masks (R441) -/

/-- The shelf a session has selected. -/
def State.selShelf (s : State) (a : Arrival) : Shelf := Tbl.get s.shelves (s.sessVal a .shelfSelect) Shelf.init

/-- The room that an entry's query value names: of the payload when it is the query that is written, else of the session. -/
def State.queryRoom (s : State) (a : Arrival) (e : Ent) (write : Option Nat) : Nat :=
  let v (q : Ent) : Nat := match write with | some x => if q = e then x else s.sessVal a q | none => s.sessVal a q
  match e with
  | .pageQuery => bitsOf (v .pageQuery) 63 58 | .pageStatus => bitsOf (v .pageQuery) 63 58
  | .brickQuery => bitsOf (v .brickQuery) 63 58 | .brickRecord => bitsOf (v .brickQuery) 63 58
  | .pageGeneration => bitsOf (v .brickQuery) 63 58
  | .tableQuery => bitsOf (v .tableQuery) 13 8 | .tableBinding => bitsOf (v .tableQuery) 13 8
  | .tableImage => bitsOf (v .tableQuery) 13 8
  | _ => 255

/-- The mask lets a Tenant port reach an entry (R441); `callRoom` is the room of the call that CALL_QUERY names. -/
def State.tenantMay (s : State) (a : Arrival) (p : Nat) (e : Ent) (i j : Nat) (write : Option Nat) (callRoom : Nat → Option Nat) :
    Bool :=
  match e.row.mask.tenant with
  | .none => false
  | .any => true
  | .own => s.owns p (if e = .roomFunction then j else i)
  | .owner =>
    let room := if e = .stairFunction then s.val .stairRoom j 0
      else if e = .stairFunctionHi then s.val .stairRoom (128 + j) 0
      else if e.row.index / 256 = 0x34 ∨ e.row.index / 256 = 0x35 then s.val .stairRoom i 0
      else (s.selShelf a).room
    decide (room < 64) && s.owns p room
  | .publisher => let r := s.val .pubRoom i 0; decide (r < 64) && s.owns p r
  | .query =>
    if e = .callQuery ∨ e = .callStatus then
      match callRoom (match write with | some v => v | none => s.sessVal a .callQuery) with
      | some r => s.owns p r | none => decide (e = .callQuery)
    else
      let r := s.queryRoom a e write
      decide (r < 64) && s.owns p r

/-- The class of an arrival is in an entry's mask for a read or a write (R441). -/
def State.masked (s : State) (a : Arrival) (c : Cls) (e : Ent) (i j : Nat) (write : Option Nat)
    (callRoom : Nat → Option Nat) : Bool :=
  let m := e.row.mask
  match c with
  | .steward => m.steward
  | .tenant p => (write.isNone || !m.tenantRO) && s.tenantMay a p e i j write callRoom
  | .vault => match m.vault with | .no => false | .ro => write.isNone | .rw => true
  | .board => m.board
  | .rack => m.rack || (write.isNone && decide (e.row.index < 0xF000))
  | .bench => m.bench

/- ## Answers -/

/-- A response is sent (R445, R451, R452): by I3C it waits for the board's private read behind an in-band interrupt; to another member it
goes as a Relay message (R489). -/
def State.odAnswer (s : State) (rq : Rq) (idx sub : Nat) (r : Reply) : State :=
  let f := odFrame (0x80 + r.1) idx sub rq.seq.toNat r.2
  let s := (s.setOd { s.od with requests := s.od.requests + 1 }).updSess rq.src fun x => { x with last := s.now }
  match rq.src with
  | .i3c =>
    let c := s.od.i3c
    let s := s.setOd { s.od with i3c := { c with waiting := c.waiting ++ [f] } }
    if c.irq then s.send (.ibi 1) else s
  | .port p => (s.odFlit p f).send (.response (.port p) f)
  | .relay m => s.tell m.toNat 12 s.ownIndex 0 0 f
  | a => s.send (.response a f)

/-- The transport number of OD_PROTOCOL_ERROR, and the port (R463). -/
def transportOf : Arrival → Nat × Nat
  | .port p => (0, p.val) | .i3c => (1, 0) | .rack _ => (2, 0) | .uart => (3, 0) | .relay _ => (0, 0)

/-- A frame discarded (R444); OD_PROTOCOL_ERROR at most once per transport in 64 courses (R463). -/
def State.discardFrame (s : State) (a : Arrival) : State :=
  let (t, p) := transportOf a
  let key := 64 * t + p
  let s := s.setOd { s.od with discarded := s.od.discarded + 1 }
  let n := Tbl.get s.od.recentBad (2 * key) 0 + 1
  let said := Tbl.find s.od.recentBad (2 * key + 1)
  if s.quiet64 said then
    (s.setOd { s.od with recentBad := Tbl.put (Tbl.put s.od.recentBad (2 * key) 0) (2 * key + 1) s.now }).raise
      { code := 0x1110, sev := 1, unit := srcKeeper, args := leBytes 1 t ++ leBytes 1 p ++ leBytes 2 n }
  else s.setOd { s.od with recentBad := Tbl.put s.od.recentBad (2 * key) n }

/-- The aux rail is within its range (R506). -/
def State.auxIn (s : State) : Bool := decide (3135 ≤ s.board.aux) && decide (s.board.aux ≤ 3465)

/-- RESET_N is taken asserted (R508). -/
def State.inReset (s : State) : Bool := (Tbl.get s.board.pins 2 ⟨false, false, false, false, 0, none⟩).taken

/-- The lifecycle state in force: the last entry burnt; Foundry before the first (R408, R409). -/
def State.lifecycle (s : State) : Nat := s.sec.log.getLastD 0

/-- A module that is halted or in boot ROM recovery serves FW_STAGE and the identity entries alone (R417, R472). -/
def State.recovering (s : State) : Bool := decide (s.power.mode = .starting) && decide (15 ≤ s.start.step)

/-- What a module in recovery serves. -/
def inRecovery (e : Ent) : Bool := decide (e = .fwStage) || decide (e.row.index = 0x1000)

/-- Requests reach the Keeper (R13, R35, R452, R472, R506, R510): not while Off, held in reset or before S02 has ended; a module
that is halted, or in boot ROM recovery, listens to I3C and the UART alone, one that is Scrapped to the UART; in Sealed the ports
are Down; I3C needs the aux rail. -/
def State.odLive (s : State) (a : Arrival) : Bool :=
  let side := match a with | .i3c => s.auxIn | .uart => true | _ => false
  (decide (s.lifecycle ≠ 4) || decide (a = .uart)) &&
  match s.power.mode with
  | .off => false
  | .sealed => !s.inReset && (match a with | .port _ => false | .relay _ => false | .i3c => s.auxIn | _ => true)
  | .starting => decide (3 ≤ s.start.step) && (match a with | .i3c => s.auxIn | _ => decide (s.start.step < 15) || side)
  | _ => match a with | .i3c => s.auxIn | _ => true

/-- The rooms of calls, by CALL_ID. -/
abbrev CallRooms := Nat → Option Nat

/-- A payload's length fits an entry (R438): a number's exactly, octets up to the entry's length. -/
def lengthFits (r : Row) (n : Nat) : Bool :=
  match r.ty with
  | .octets => decide (n ≤ r.octets)
  | .string => decide (1 ≤ n) && decide (n ≤ r.octets)
  | t => decide (n = t.bytes)

/-- A value fits its type and range (R438, R439). -/
def valueFits (r : Row) (payload : List Byte) : Bool :=
  let v := ofLe payload
  match r.ty with
  | .octets => true
  | .string => true
  | .bool => decide (v ≤ 1)
  | .enum => decide (v < 256) && r.rng.ok v
  | _ => r.rng.ok v

/-- What a chapter does with an accepted write: the reply and the state. -/
abbrev Act := State → Reply × State

/-- Why a request does not reach its entry (R417, R441, R446, R472): the arrival has no class, the Keeper restarts, the module is in
recovery or Scrapped, or the class is not in the mask. -/
def State.barred (s : State) (a : Arrival) (e : Ent) (i j : Nat) (write : Option Nat) (rooms : CallRooms) : Option Nat :=
  match s.classOf a with
  | none => some stDenied
  | some c =>
    if s.power.keeperDown then some stBusy
    else if s.recovering ∧ !inRecovery e then some stState
    else if write.isSome ∧ s.lifecycle = 4 then some stDenied
    else if !(s.recovering ∧ e = .fwStage) ∧ !s.masked a c e i j write rooms then some stDenied
    else none

/-- A write judged before its chapter sees it: mask, access, length, type and range (R438 to R441, R446). -/
def State.judgeWrite (s : State) (rq : Rq) (e : Ent) (i j : Nat) (payload : List Byte) (rooms : CallRooms) (act : Act) :
    Reply × State :=
  match s.barred rq.src e i j (some (ofLe payload)) rooms with
  | some st => (rNo st, s)
  | none =>
    if e.row.acc = .ro then (rNo stAccess, s)
    else if !lengthFits e.row payload.length then (rNo stLength, s)
    else if !valueFits e.row payload then (rNo stRefused, s)
    else act s

/-- A write that arrives by block transfer, or within a session (R448): judged and acted on whatever its length. -/
def State.odWhole (s : State) (rq : Rq) (e : Ent) (i j : Nat) (payload : List Byte) (rooms : CallRooms) (act : Act) : State :=
  if !s.odLive rq.src || (s.classOf rq.src).isNone then s
  else
    let s := s.openSess rq.src
    let (r, s) := s.judgeWrite rq e i j payload rooms act
    s.odAnswer rq (e.row.idx i j) (e.row.subIdx j) r

/-- A write request for a known entry, from its frame to its response. A frame of more than 256 payload bytes is discarded
(R444); one from no class has no session to answer in. -/
def State.odWrite (s : State) (rq : Rq) (e : Ent) (i j : Nat) (payload : List Byte) (rooms : CallRooms) (act : Act) : State :=
  if !s.odLive rq.src || (s.classOf rq.src).isNone then s
  else if 256 < payload.length then s.discardFrame rq.src
  else
    let s := s.openSess rq.src
    let (r, s) := s.judgeWrite rq e i j payload rooms act
    s.odAnswer rq (e.row.idx i j) (e.row.subIdx j) r

/-- A read judged before its value is taken (R439, R441, R446). -/
def State.judgeRead (s : State) (rq : Rq) (e : Ent) (i j : Nat) (rooms : CallRooms) (act : Act) : Reply × State :=
  match s.barred rq.src e i j none rooms with
  | some st => (rNo st, s)
  | none => if e.row.acc = .wo ∨ e.row.acc = .cmd then (rNo stAccess, s) else act s

/-- A read request for a known entry (R438, R439): the value when it is 256 bytes or shorter. -/
def State.odRead (s : State) (rq : Rq) (e : Ent) (i j : Nat) (rooms : CallRooms) (get : State → List Byte × State) : State :=
  if !s.odLive rq.src || (s.classOf rq.src).isNone then s
  else
    let s := s.openSess rq.src
    let (r, s) := s.judgeRead rq e i j rooms fun s => let (v, s') := get s; if 256 < v.length then (rNo stLength, s) else ((stOk, v), s')
    s.odAnswer rq (e.row.idx i j) (e.row.subIdx j) r

/-- No call has a room: for entries whose mask names no call. -/
def noCalls : CallRooms := fun _ => none

/-- An unconditional act: the value is set. -/
def actSet (e : Ent) (i j : Nat) (payload : List Byte) : Act := fun s =>
  match e.row.ty with
  | .octets => (rOk, s.setBlob e i j payload)
  | .string => (rOk, s.setBlob e i j payload)
  | _ => (rOk, (s.keepLate e i j).setVal e i j (ofLe payload))

end Sys2Proof.Machine
end

