-- ==== Sys2Proof/Machine/Codec.lean ====
section
/-!
DEFINITION. Sys2Proof/Machine/Codec.lean: tables loaded, bound, freed and built by the first pass (R174, R202, R203), and
packed-image loads (R204, R205).
-/

namespace Sys2Proof.Machine

/-- How many stored bricks of a room name a table id (R174): those of Store copies, and those of Cellar images that are not
the image of a CLEAN page (a brick and its clean image are one, DEDUCED). -/
def State.tableCount (s : State) (room id : Nat) : Nat :=
  let n (bs : List Laid) : Nat := (bs.filter fun b => b.tables.contains id).length
  let clean (slot : Nat) : Bool := s.pages.any fun e => decide (e.2.slot = some slot) && decide (e.2.mode = PageMode.clean)
  Tbl.total s.pages (fun k p => if pageRoom k = room ∧ p.inStore then n p.bricks else 0)
    + Tbl.total s.cellar.images fun sl i => if pageRoom i.page = room ∧ !clean sl then n i.bricks else 0

/-- A slot is bound by some room. -/
def State.slotBound (s : State) (slot : Nat) : Bool := s.codec.binds.any fun e => decide (e.2 = slot)

/-- TABLE_INVALID (R185): of a room's binding, or of a refused load from the Keeper. -/
def tableInvalid (room : Option Nat) (id check slot : Nat) : Ev :=
  { code := 0x5002, sev := 2, unit := match room with | some r => srcRoom r | none => srcKeeper,
    args := leBytes 1 id ++ leBytes 1 check ++ leBytes 2 slot }

/-- TABLE_LOAD_IMAGE (R202): the image is checked, and the slot takes it when it is unbound. -/
def actTableLoad (src : Arrival) (payload : List Byte) : Act := fun s =>
  let slot := s.sessVal src .tableLoadSlot
  let check := if payload.length ≠ 136 then 1 else if tableCheck payload ≠ 0 then tableCheck payload
    else if s.slotBound slot then 6 else 0
  if check ≠ 0 then (rWhy stRefused check, s.raise (tableInvalid none 255 check slot))
  else (rOk, s.setCodec { s.codec with slots := Tbl.put s.codec.slots slot ⟨payload, false⟩ })

/-- TABLE_LOAD_IMAGE as a command. -/
def execTableLoadImage (rq : Rq) (payload : List Byte) (s : State) : Host.Outcome State Fault Refusal :=
  .next (s.odWrite rq .tableLoadImage 0 0 payload noCalls (actTableLoad rq.src payload))

/-- TABLE_BIND (R174, R201, R202): checked as it arrives, in effect from the next boundary. -/
def actTableBind (room id v : Nat) : Act := fun s =>
  let bind := bitOf v 15
  let slot := v % 4096
  let check := if s.tableCount room id ≠ 0 then 5
    else if bind && (Tbl.find s.codec.slots slot).isNone then 6 else 0
  if s.val .roomTableMode room 0 ≠ 0 then (rNo stRefused, s)
  else if check ≠ 0 then (rWhy stRefused check, s.raise (tableInvalid (some room) id check (if bind then slot else 65535)))
  else (rOk, (s.setVal .tableBind room id v).setCodec
    { s.codec with waiting := s.codec.waiting ++ [(s.decidedAt, 32 * room + id, if bind then some slot else none)] })

/-- TABLE_BIND as a command. -/
def execTableBind (rq : Rq) (room : Fin 64) (id : Fin 32) (payload : List Byte) (s : State) :
    Host.Outcome State Fault Refusal :=
  .next (s.odWrite rq .tableBind room id payload noCalls (actTableBind room id (ofLe payload)))

/-- Bindings accepted take effect at their boundary (R47, R202). -/
def State.applyBinds (s : State) : State :=
  let due := s.codec.waiting.filter fun w => w.1 ≤ s.now
  let b := due.foldl (fun t w => match w.2.2 with | some sl => Tbl.put t w.2.1 sl | none => Tbl.del t w.2.1) s.codec.binds
  s.setCodec { s.codec with binds := b, waiting := s.codec.waiting.filter fun w => s.now < w.1 }

/-- TABLE_FREE (R202): a slot that no room binds is emptied. -/
def actTableFree (slot : Nat) : Act := fun s =>
  if s.slotBound slot ∨ 4096 ≤ slot then (rNo stRefused, s)
  else (rOk, s.setCodec { s.codec with slots := Tbl.del s.codec.slots slot })

/-- TABLE_FREE as a command. -/
def execTableFree (rq : Rq) (payload : List Byte) (s : State) : Host.Outcome State Fault Refusal :=
  .next (s.odWrite rq .tableFree 0 0 payload noCalls (actTableFree (ofLe payload)))

/-- A binding removed, its slot emptied when the builder loaded it and no room binds it (R174, R203). -/
def State.unbind (s : State) (key : Nat) : State :=
  match Tbl.find s.codec.binds key with
  | none => s
  | some slot =>
    let s := s.setCodec { s.codec with binds := Tbl.del s.codec.binds key }
    let built := match Tbl.find s.codec.slots slot with | some t => t.built | none => false
    if built && !s.slotBound slot then s.setCodec { s.codec with slots := Tbl.del s.codec.slots slot } else s

/-- A table image is one the builder can give a sample (R203 step 3): valid, every symbol seen coded, no other. -/
def builtOk (img : List Byte) (seen : Tbl Nat) : Bool :=
  decide (tableCheck img = 0) && (upTo 256).all fun v => decide ((tableLens img).getD v 0 ≠ 0) == (Tbl.find seen v).isSome

/-- The table that the model takes the builder to give a sample where an operand is none that R203 allows: every symbol seen and the
escape at the two lengths nearest the logarithm of their number, the shorter ones first. -/
def flatTable (seen : Tbl Nat) : List Byte :=
  let syms := (upTo 256).filter fun v => (Tbl.find seen v).isSome
  let n := syms.length + 1
  let len := if n ≤ 2 then 1 else Nat.log2 (n - 1) + 1
  let short := 2 ^ len - n
  let lenAt (i : Nat) : Nat := if i < short then len - 1 else len
  let lens := (upTo 256).map fun v => match syms.findIdx? (· = v) with | some i => lenAt i | none => 0
  let esc := lenAt (n - 1)
  let body := (upTo 128).map fun i => BitVec.ofNat 8 (16 * lens.getD (2 * i) 0 + lens.getD (2 * i + 1) 0)
  let head : List Byte := [1, BitVec.ofNat 8 (16 * esc + maxLen (esc :: lens)), 0, 0]
  head ++ leBytes 4 (crc32c (head ++ body)) ++ body

/-- The table the builder makes of a sample (R203 step 3): its own choice among those R203 allows, which the operand brings. -/
def builtTable (img : List Byte) (seen : Tbl Nat) : List Byte := if builtOk img seen then img else flatTable seen

/-- One id of a window given its table (R203): a binding that bricks name stands; another goes; a free slot takes the image.
Answers the slot bound, and whether slots were too few. -/
def State.buildOne (s : State) (key : Nat) (img : List Byte) : Option Nat × Bool × State :=
  if (Tbl.find s.codec.binds key).isSome ∧ s.tableCount (key / 32) (key % 32) ≠ 0 then (none, false, s)
  else
    let s := s.unbind key
    let slot := firstUnlisted s.codec.slots s.codec.slots.length 0
    if 4096 ≤ slot then (none, true, s)
    else (some slot, false, s.setCodec { s.codec with slots := Tbl.put s.codec.slots slot ⟨img, true⟩,
                                                      binds := Tbl.put s.codec.binds key slot })

/-- The first pass completes a window's tables (R203): the window at the front of its region's queue. The images are the
builder's own choice among those R203 allows. -/
def execTableBuilt (room : Fin 64) (window : Fin 16) (byteImage expImage : List Byte) (s : State) :
    Host.Outcome State Fault Refusal :=
  let key := 16 * room.val + window.val
  match s.codec.queue.find? fun e => e.2 = key with
  | none => .next s
  | some e =>
    if (s.codec.queue.find? fun x => x.1 = e.1) ≠ some e then .next s
    else
      let x := Tbl.get s.codec.samples key ⟨0, [], [], false⟩
      let planes := decide (attrElement (s.attr room window) ≠ 0)
      let free := 4096 - s.codec.slots.length
      let s := s.setCodec { s.codec with queue := s.codec.queue.erase e }
      let (b, full1, s) := s.buildOne (32 * room.val + 2 * window.val) (builtTable byteImage x.values)
      let (x', full2, s) := if planes then s.buildOne (32 * room.val + 2 * window.val + 1) (builtTable expImage x.exps)
        else (none, false, s)
      let s := s.setCodec { s.codec with usable := Tbl.put s.codec.usable key (boundaryAfter s.now) }
      let s := if full1 || full2 then s.raise { code := 0x5005, sev := 2, unit := srcRoom room,
                                                args := leBytes 1 window ++ leBytes 2 free } else s
      .next (s.raise { code := 0x5004, sev := 0, unit := srcRoom room,
                       args := leBytes 1 window ++ leBytes 2 (b.getD 65535) ++ leBytes 2 (x'.getD 65535) })

/- ## Packed-image loads (R204, R205) -/

/-- A room's load. -/
def State.load (s : State) (room : Nat) : Load := Tbl.get s.codec.loads room ⟨0, 0, 0, 0, 0, 0, 0, 0⟩
/-- The state with a room's load replaced. -/
def State.setLoad (s : State) (room : Nat) (l : Load) : State := s.setCodec { s.codec with loads := Tbl.put s.codec.loads room l }

/-- A load ends (R205): PACKED_LOAD_END. -/
def State.endLoad (s : State) (room st reason cause : Nat) : State :=
  let l := s.load room
  (s.setLoad room { l with state := st, reason := reason, cause := cause }).raise
    { code := 0x5006, sev := 1, unit := srcRoom room,
      args := leBytes 4 l.done ++ leBytes 1 st ++ leBytes 1 reason ++ leBytes 1 cause }

/-- PACKED_LOAD_GO (R205): a load begins, or is refused at once with its reason. -/
def actLoadGo (room v : Nat) : Act := fun s =>
  let src := s.val .packedLoadSrc room 0
  let dst := s.val .packedLoadDst room 0
  let n := s.val .packedLoadPages room 0
  let old := s.load room
  if v ≠ 1 then (rNo stRefused, s)
  else if old.state = 1 then
    -- The load that runs goes on; STATUS shows it running, with the reason of the refusal.
    (rWhy stRefused 6, s.setLoad room { old with reason := 6 })
  else
    let refuse (why : Nat) : Reply × State := (rWhy stRefused why, (s.setLoad room ⟨src, dst, n, 0, 4, why, 0, 0⟩))
    match s.windowAt room src, s.windowAt room dst with
    | some w, some d =>
      if s.val .windowBase room d + s.val .windowSize room d < dst + 4096 * n ∨ src % 64 ≠ 0 ∨ dst % 4096 ≠ 0
          ∨ s.val .windowBase room w + s.val .windowSize room w < src + 128 * n then refuse 3
      else if attrSealed (s.attr room d) ∨ w = d ∨ (s.viewOf room d).isSome then refuse 4
      else if !s.roomOn room then refuse 5
      else (rOk, s.setLoad room ⟨src, dst, n, 0, 1, 0, 0, 0⟩)
    | _, _ => refuse 3

/-- PACKED_LOAD_GO as a command. -/
def execPackedLoadGo (rq : Rq) (room : Fin 64) (payload : List Byte) (s : State) : Host.Outcome State Fault Refusal :=
  .next (s.odWrite rq .packedLoadGo room 0 payload noCalls (actLoadGo room (ofLe payload)))

/-- What a brick of a room reads as now: its landing slot, or its stored form expanded; none while it must be fetched, an
error where it is poisoned or does not rebuild. -/
def State.brickReads (s : State) (bk : Nat) : Option (Except Nat (List Byte)) :=
  match s.slotOf bk with
  | some l => if l.filling then none else some (if l.poison = 0 then .ok l.data else .error 0)
  | none =>
    let p := s.page (bk / 16)
    match p.mode with
    | .new => some (.ok (List.replicate 256 0))
    | .cellar => none
    | .demoted => none
    | _ => if recPoison (p.brick (bk % 16)).record then some (.error 0)
      else match s.plainOf bk with | .ok d => some (.ok d) | .error m => some (.error m.cause)

/-- `n` bytes of a room from an address of a brick boundary or not, brick by brick. -/
def State.roomBytes (s : State) (room addr n : Nat) : Option (Except Nat (List Byte)) :=
  let first := addr / 256
  let count := (addr + n + 255) / 256 - first
  let all := (upTo count).foldl (fun (a : Option (Except Nat (List Byte))) i =>
    match a, s.brickReads (2 ^ 38 * room + first + i) with
    | some (.ok l), some (.ok d) => some (.ok (l ++ d))
    | some (.ok _), x => x
    | x, _ => x) (some (.ok []))
  all.map fun r => match r with | .ok l => .ok ((l.drop (addr % 256)).take n) | .error e => .error e

/-- A record that a packed image may hold (R204). -/
def packedRecordOk (r : Nat) : Bool :=
  decide (r = 0) || (recordOk r && match recMode r with
    | .zero => true | .fill => true | .weight => true
    | .raw => decide (recSectors r = 8) && !recPoison r
    | _ => false)

/-- The record under which a loaded brick is stored: the image's with the brick's next VERSION (R205). -/
def withVersion (r v : Nat) : Nat := mkRecord (recCrc r) v (recTable r) (recMode r) (recSectors r) (recPoison r) (recSealed r)

/-- The target page replaced by a packed page as one write (R205 step 4). An unwritten brick of the image leaves an unwritten
brick, or where the brick was written before a ZERO one, so that no VERSION repeats (DEDUCED). -/
def State.replacePage (s : State) (k : Nat) (bs : List Stored) : Option State :=
  -- A page in the Cellar: its VERSIONs go on from those of its image.
  let s := match (if (s.page k).inStore then none else (s.page k).slot.bind s.image) with
    | some i => s.updPage k fun p =>
        { p with bricks := s.landedBricks i, gen := i.gen, groupSeq := i.groupSeq, gens := max p.gens (i.gen + 1),
                 behind := p.behind || decide (i.gen ≠ p.gen) || decide (i.groupSeq ≠ p.groupSeq) }
    | none => s
  let first := decide ((s.page k).mode = .new)
  let s := if first then s.allocate k (homeSlice (pageNo k)) else s
  let (coded, s) := (upTo 16).foldl (fun (a : List Stored × State) b =>
    let (v, s) := a.2.nextVersion (brickKey k b)
    let st := bs.getD b Stored.blank
    let old := (s.page k).brick b
    let n : Stored := if st.record ≠ 0 then ⟨withVersion st.record v, st.body⟩
      else if old.record = 0 then Stored.blank
      else ⟨mkRecord (crc32c (List.replicate 256 0)) v 0 .zero 0 false false, []⟩
    (a.1 ++ [n], s)) ([], s)
  let s := s.setLanding (Tbl.keep s.landing fun b _ => decide (b / 16 ≠ k))
  let p := s.page k
  let news := (upTo 16).map fun b => s.sealBrick k b p.gen (coded.getD b Stored.blank)
  let r := match p.frame with | some f => f / framesPerRegion | none => s.frameRegion (homeSlice (pageNo k))
  let bays := baysFor news []
  match s.findRun r bays with
  | none => none
  | some start =>
    let f := p.frame.getD (s.findFrame r)
    let kept := ((Tbl.find s.store.frames f).bind (·.kept))
    let s := s.setStore { s.store with frames := Tbl.put s.store.frames f ⟨k, start, bays, kept⟩ }
    let m : PageMode := match p.mode with | .cellar => .clean | .demoted => .volatile | m => m
    let old := if p.mode = .demoted then p.slot else none
    let s := s.setPage k { p with bricks := news, footing := [], frame := some f, mode := m, transit := if p.transit = .fetching then .none else p.transit,
                                  slot := if p.mode = .demoted then none else p.slot }
    let s := match old with | some sl => s.releaseSlot sl | none => s
    some ((s.groupWritten k).accepted k first)

/-- A range of a room lies within one window. -/
def State.inWindow (s : State) (room addr n : Nat) : Bool :=
  match s.windowAt room addr with
  | some w => decide (addr + n ≤ s.val .windowBase room w + s.val .windowSize room w)
  | none => false

/-- One page of a packed load (R205): read, checked, and once it fits it replaces the target. -/
def execPackedLoadPage (room : Fin 64) (s : State) : Host.Outcome State Fault Refusal :=
  let l := s.load room
  if l.state ≠ 1 ∨ s.sec.keysOff then .next s
  else if !s.roomOn room then .next (s.endLoad room 3 5 0)
  else if l.total ≤ l.done then .next (s.endLoad room 2 0 0)
  else
    let k := pageKey room (l.dst / 4096 + l.done)
    if !s.inWindow room l.src 128 || (s.windowOf k).isNone then .next (s.endLoad room 3 3 0)
    else match s.roomBytes room l.src 128 with
    | none => .next (s.needPage (pageKey room (l.src / 4096)) false).2
    | some (.error c) => .next (s.endLoad room 3 2 c)
    | some (.ok hdr) =>
      let recs := (upTo 16).map fun b => ofLe ((hdr.drop (8 * b)).take 8)
      if !recs.all packedRecordOk then .next (s.endLoad room 3 2 6)
      else
        let size := 128 + 32 * (recs.map recSectors).sum
        if !s.inWindow room l.src size then .next (s.endLoad room 3 3 0)
        else match s.roomBytes room l.src size with
        | none => .next (s.needPage (pageKey room ((l.src + size - 1) / 4096)) false).2
        | some (.error c) => .next (s.endLoad room 3 2 c)
        | some (.ok data) =>
          let bs := bricksOf data
          let bad := (upTo 16).filterMap fun b => match s.expandCoded k b (bs.getD b Stored.blank) noFooting with
            | .ok _ => none | .error m => some m.cause
          let p := s.page k
          let durable := attrDurable (s.pageAttr k)
          let more := if p.mode = .dirty then size - storedSize p.store else size + 8
          let holders := s.dir.entries.filter fun e => decide (linePage e.1 = k)
          match bad with
          | c :: _ => .next (s.endLoad room 3 2 c)
          | [] =>
            if p.mode = .new ∧ s.quotaRefuses room durable then .next (s.endLoad room 3 1 0)
            else if durable ∧ !s.fits more then .next s
            else if !holders.isEmpty then
              .next (holders.foldl (fun s e => (s.recallPorts e.1 true (portsOf e.2.ports)).2) s)
            else
              -- The page's stored bytes are charged to the target's class as its share allows.
              let want := ceilDiv size 64
              let (n, s) := s.chargeUp room (s.pageClass k) (want - l.paid)
              let s := s.setLoad room { l with paid := l.paid + n }
              if l.paid + n < want then .next s
              else
              match (if s.isShared k then s.splitPage k (homeSlice (pageNo k)) else some s).bind fun s => s.replacePage k bs with
              | none => .next s
              | some s =>
                let l' := { l with done := l.done + 1, src := (l.src + size + 63) / 64 * 64, paid := 0 }
                let s := s.setLoad room l'
                .next ((if l'.done = l'.total then s.endLoad room 2 0 0 else s).retryAll)

end Sys2Proof.Machine
end

