-- ==== Sys2Proof/Machine/Publish.lean ====
section
/-!
DEFINITION. Sys2Proof/Machine/Publish.lean: published regions and views (R240 to R248), a host declared failed (R234), and the
list of crash lines (R239).
-/

namespace Sys2Proof.Machine

/-- Every page of a range of a room lies in a window whose attributes pass, walked from window to window. -/
def State.rangeIn (s : State) (room : Nat) (ok : Nat → Bool) : Nat → Nat → Nat → Bool
  | 0, _, size => decide (size = 0)
  | n + 1, base, size =>
    if size = 0 then true
    else match s.windowAt room base with
      | none => false
      | some w =>
        let stop := s.val .windowBase room w + s.val .windowSize room w
        ok (s.attr room w) && s.rangeIn room ok n stop (size - (stop - base))

/-- A pool window of a room, while the module is Joined (R490, R210, R246). -/
def State.poolWindow (s : State) (room w : Nat) : Bool :=
  decide (s.vault.mode = .joined) && bitOf (s.val .poolWindows room 0) w && !(s.poolMembers room).isEmpty

/-- A region is defined (R240). -/
def State.pubDefined (s : State) (g : Nat) : Bool := decide (s.val .pubRoom g 0 < 64) && decide (s.val .pubSize g 0 ≠ 0)

/-- A region's versions. -/
def State.pub (s : State) (g : Nat) : Pub := Tbl.get s.pubs.regions g ⟨0, []⟩
/-- The state with a region's versions replaced. -/
def State.setPub (s : State) (g : Nat) (x : Pub) : State := s.setPubs { s.pubs with regions := Tbl.put s.pubs.regions g x }

/-- The current version of a region (R241): the newest one retained; 0 before the first commit. -/
def Pub.current (x : Pub) : Nat := (x.vers.head?.map (·.version)).getD 0

/-- The views bound to a region, as 16 times the room plus window. -/
def State.viewsOf (s : State) (g : Nat) : List Nat := (upTo 1024).filter fun i => s.viewOf (i / 16) (i % 16) = some g

/-- Views that have a version of a region open (R242). -/
def State.openViews (s : State) (g v : Nat) : List Nat := (s.viewsOf g).filter fun i => Tbl.get s.pubs.views i 0 = v

/-- A version is in one of the three groups of R242. -/
def State.retains (s : State) (g : Nat) (v : PubVer) : Bool :=
  decide ((s.pub g).current = v.version) || !v.isSealed || !(s.openViews g v.version).isEmpty

/-- A page that only a version refers to is freed, image and all. -/
def State.freePage (s : State) (k : Nat) : State :=
  let p := s.page k
  let s := s.freeFrame k
  let s := s.setLanding (Tbl.keep s.landing fun b _ => decide (b / 16 ≠ k))
  let s := (s.updPage k Page.freed).cancelItems k
  (match p.slot with | some sl => s.releaseSlot sl | none => s).settleOverdraft (pageRoom k)

/-- A version released (R242): every page that it alone refers to is freed. Answers how many. -/
def State.releaseVersion (s : State) (g v : Nat) : Nat × State :=
  let x := s.pub g
  match x.vers.find? fun y => y.version = v with
  | none => (0, s)
  | some y =>
    let s := s.setPub g { x with vers := x.vers.filter fun z => z.version ≠ v }
    let mine := (y.pages.map (·.2)).filter fun k => decide (2 ^ 40 ≤ k) && !s.isShared k
    (mine.length, mine.foldl (fun s k => s.freePage k) s)

/-- A region's versions all go (R240), and its definition with them. -/
def State.deleteRegion (s : State) (g : Nat) : State :=
  let s := (s.pub g).vers.foldl (fun s v => (s.releaseVersion g v.version).2) s
  let s := s.setPubs { s.pubs with regions := Tbl.del s.pubs.regions g, last := Tbl.del s.pubs.last g }
  ((s.setVal .pubRoom g 0 255).setVal .pubBase g 0 0).setVal .pubSize g 0 0

/-- VIEW_CHANGE (R251): a view's version changes. -/
def viewChange (room w g old new : Nat) : Ev :=
  { code := 0x5815, sev := 0, unit := srcRoom room,
    args := leBytes 1 w ++ leBytes 1 g ++ leBytes 4 old ++ leBytes 4 new }

/-- A view's version set, 0 none (R247). -/
def State.setView (s : State) (room w g v : Nat) : State :=
  let old := Tbl.get s.pubs.views (16 * room + w) 0
  if old = v then s
  else (s.setPubs { s.pubs with views := Tbl.put s.pubs.views (16 * room + w) v }).raise (viewChange room w g old v)

/-- A view unbound, its version closed (R240, R246). -/
def State.unbindView (s : State) (room w : Nat) : State :=
  match s.viewOf room w with
  | none => s
  | some g => (s.setView room w g 0).setVal .viewRegion room w 0

/- ## Definitions and bindings (R240, R246) -/

/-- A definition write (R240): the value is put in place and the definition that results must hold; it is refused while the
region retains a version. -/
def actPubDefine (e : Ent) (g v : Nat) : Act := fun s =>
  let s' := s.setVal e g 0 v
  let room := s'.val .pubRoom g 0
  let base := s'.val .pubBase g 0
  let size := s'.val .pubSize g 0
  let aligned := decide (base % 4096 = 0) && decide (size % 4096 = 0)
  let fits := decide (room = 255) || (decide (room < 64)
    && s.rangeIn room (fun a => attrDurable a && attrPublisher a) 17 base size)
  if !(s.pub g).vers.isEmpty then (rNo stState, s)
  else if aligned && fits then (rOk, s')
  else (rNo stRefused, s)

/-- A definition write as a command: PUB_ROOM, PUB_BASE or PUB_SIZE of the region its index names; another index or sub-index
names no entry of a definition and is answered NO_ENTRY. -/
def execPubDefine (rq : Rq) (index : BitVec 16) (sub : Byte) (payload : List Byte) (s : State) :
    Host.Outcome State Fault Refusal :=
  let g := index.toNat % 256
  let act (e : Ent) : State := s.odWrite rq e g 0 payload noCalls (actPubDefine e g (ofLe payload))
  .next (if index.toNat / 256 = 0x59 ∧ sub = 1 then act .pubRoom
    else if index.toNat / 256 = 0x59 ∧ sub = 2 then act .pubBase
    else if index.toNat / 256 = 0x59 ∧ sub = 3 then act .pubSize
    else if s.odLive rq.src ∧ (s.classOf rq.src).isSome then (s.openSess rq.src).odAnswer rq index.toNat sub.toNat (rNo stNoEntry)
    else s)

/-- PUB_DELETE (R240): refused while a view has a version of the region open. -/
def actPubDelete (g v : Nat) : Act := fun s =>
  if v ≠ 1 then (rNo stRefused, s)
  else if (s.pub g).vers.any fun x => !(s.openViews g x.version).isEmpty then (rNo stState, s)
  else (rOk, s.deleteRegion g)

/-- PUB_DELETE as a command. -/
def execPubDelete (rq : Rq) (region : Byte) (payload : List Byte) (s : State) : Host.Outcome State Fault Refusal :=
  .next (s.odWrite rq .pubDelete region.toNat 0 payload noCalls (actPubDelete region.toNat (ofLe payload)))

/-- VIEW_REGION (R246): a window bound or unbound. A binding that changes closes the version the view held. -/
def actViewRegion (room w v : Nat) : Act := fun s =>
  let g := v % 256
  let size := s.val .windowSize room w
  let base := s.val .windowBase room w
  let used := s.pages.any fun e => decide (pageRoom e.1 = room) && decide (e.1 < 2 ^ 40)
    && decide (base ≤ 4096 * pageNo e.1) && decide (4096 * pageNo e.1 < base + size)
  if !bitOf v 15 then
    if v = 0 then (rOk, (s.unbindView room w)) else (rNo stRefused, s)
  else if v / 256 ≠ 128 then (rNo stRefused, s)
  else if size = 0 ∨ !s.pubDefined g ∨ size ≠ s.val .pubSize g 0 ∨ used ∨ s.poolWindow room w then (rNo stRefused, s)
  else if s.val .viewRegion room w = v then (rOk, s)
  else (rOk, (s.unbindView room w).setVal .viewRegion room w v)

/-- VIEW_REGION as a command. -/
def execViewRegion (rq : Rq) (room : Fin 64) (window : Fin 16) (payload : List Byte) (s : State) :
    Host.Outcome State Fault Refusal :=
  .next (s.odWrite rq .viewRegion room window payload noCalls (actViewRegion room window (ofLe payload)))

/- ## Publishing (R243, R244) -/

/-- A Publish arrives (R88, R243): admitted, it waits for its boundary; in Quiet it starts the exit and is decided after it
(R37). In Brace nothing is admitted and no answer is given (DEDUCED from R99). -/
def execPublish (port : Fin 32) (tag : BitVec 12) (room : Fin 64) (line : BitVec 40) (region : Byte) (base : BitVec 32)
    (s : State) : Host.Outcome State Fault Refusal :=
  match s.turned 0x30 port tag.toNat room line.toNat with
  | some s => .next s
  | none =>
    if s.power.mode = .brace ∨ s.power.mode = .flush then .next s
    else
      let s := if s.quieted ∨ s.power.exitAt.isSome then s.startExit.2 else s
      let q : PubReq := ⟨port, tag.toNat, room, region.toNat, base.toNat, s.now, false⟩
      .next (s.setPubs { s.pubs with waiting := s.pubs.waiting ++ [q] })

/-- The pages of a region's range that are allocated, by offset, and the lines of the range held Owned. -/
def State.pubPages (s : State) (g : Nat) : Tbl Nat :=
  let k0 := pageKey (s.val .pubRoom g 0) (s.val .pubBase g 0 / 4096)
  let n := s.val .pubSize g 0 / 4096
  (s.pages.filter fun e => decide (k0 ≤ e.1) && decide (e.1 < k0 + n) && e.2.allocated).map fun e => (e.1 - k0, e.1)

/-- BackInv for every line that a port holds Owned among the pages that pass (R214, R244). Answers the recalls, and the marks of
the lines whose crash outcome is open. -/
def State.recallOwned (s : State) (p : Nat → Bool) : List Nat × State :=
  (s.dir.entries.filter fun e => p (linePage e.1)).foldl (fun x e =>
    if s.crashOpen e.1 then (x.1 ++ [crashMark e.1], x.2)
    else if e.2.st = .owned then
      let (ids, s) := x.2.recallPorts e.1 false (portsOf e.2.ports)
      (x.1 ++ ids, s)
    else x) ([], s)

/-- A seal (R244): PUB_SEALED, to the owner ports of every room with a view of the region. -/
def State.sealVersion (s : State) (g : Nat) (v : PubVer) : State :=
  let x := s.pub g
  let room := s.val .pubRoom g 0
  let rooms := (upTo 64).filter fun r => (s.viewsOf g).any fun i => i / 16 = r
  let mark (y : PubVer) : PubVer := if y.version = v.version then { y with isSealed := true } else y
  (s.setPub g { x with vers := x.vers.map mark }).raise
    { code := 0x5812, sev := 0, unit := srcRoom room, also := rooms,
      args := leBytes 1 g ++ leBytes 4 v.version ++ leBytes 4 v.recalled }

/-- Lines that a version holds wait for their page or its base. -/
def State.bringing (s : State) (g v : Nat) : Bool := s.dir.returned.any fun x => x.of_.contains (g, v)

/-- A commit (R243, R244): the version holds what the range holds at C, and the answers to the recalls it issues. With none to
await it is sealed at once. -/
def State.commitPub (s : State) (q : PubReq) : State :=
  let g := q.region
  let x := s.pub g
  let n := x.highest + 1
  let k0 := pageKey (s.val .pubRoom g 0) (s.val .pubBase g 0 / 4096)
  let last := k0 + s.val .pubSize g 0 / 4096
  let pages := s.pubPages g
  let inside (k : Nat) : Bool := decide (k0 ≤ k) && decide (k < last)
  let (ids, s) := s.recallOwned inside
  let take (x : Returned) : Returned := if inside (linePage x.line) then { x with of_ := x.of_ ++ [(g, n)] } else x
  let s := s.setDir { s.dir with returned := s.dir.returned.map take }
  let issued := (ids.filter fun i => i < 2 ^ 20).length
  let v : PubVer := ⟨n, q.base, false, false, s.shown (stampOf s.time.course 0), ids, issued, pages⟩
  let s := (s.setPub g ⟨n, v :: x.vers⟩).answerPub q.gone q.port q.tag 0 (n * 2 ^ 32)
  let s := s.raise { code := 0x5810, sev := 1, unit := srcRoom q.room,
                     args := leBytes 1 g ++ leBytes 1 q.port ++ leBytes 4 n ++ leBytes 4 q.base }
  if ids.isEmpty && !s.bringing g n then s.sealVersion g v else s

/-- A Publish answered DENIED, its reason kept (R243, R250). -/
def State.denyPub (s : State) (q : PubReq) (why : Nat) : State :=
  (s.setPubs { s.pubs with last := Tbl.put s.pubs.last q.region (why * 2 ^ 24 + q.port * 2 ^ 16) }).answerPub q.gone q.port q.tag 4 0

/-- One Publish decided at C (R243): the first outcome that applies. -/
def State.decidePub (s : State) (q : PubReq) : State :=
  let g := q.region
  let x := s.pub g
  if s.val .pubRoom g 0 ≠ q.room ∨ !s.pubDefined g then s.denyPub q 1
  else if s.isAdrift then s.denyPub q 2
  else if q.base ≠ x.current then
    (s.answerPub q.gone q.port q.tag 5 (x.current * 2 ^ 32)).raise
      { code := 0x5811, sev := 0, unit := srcRoom q.room,
        args := leBytes 1 g ++ leBytes 1 q.port ++ leBytes 4 q.base ++ leBytes 4 x.current }
  else if 16 ≤ (x.vers.filter fun v => s.retains g v).length then s.denyPub q 3
  else if 0xFFFFFFFE ≤ x.highest then s.denyPub q 4
  else if s.slotsLow then s.denyPub q 5
  else s.commitPub q

/-- The Publishes of a region whose boundary has come, decided in the order of admission, ties to the lower port (R243); none
in Quiet or Brace. -/
def execPublishDecide (region : Byte) (s : State) : Host.Outcome State Fault Refusal :=
  if s.quieted ∨ s.power.exitAt.isSome ∨ s.power.mode = .brace ∨ s.power.mode = .flush then .next s
  else
    let due (q : PubReq) : Bool := decide (q.region = region.toNat) && decide (decisionAt q.admitted ≤ s.now)
    let before (a b : PubReq) : Bool := decide (a.admitted < b.admitted ∨ (a.admitted = b.admitted ∧ a.port < b.port))
    let l := sortBy before (s.pubs.waiting.filter due)
    let s := s.setPubs { s.pubs with waiting := s.pubs.waiting.filter fun q => !due q }
    .next (l.foldl (fun s q => s.decidePub q) s)

/-- A version whose recalls are answered and applied is sealed at the boundary (R244). -/
def execPubSealed (region : Byte) (version : BitVec 32) (s : State) : Host.Outcome State Fault Refusal :=
  match s.pubVer region.toNat version.toNat with
  | none => .next s
  | some v =>
    .next (if v.isSealed ∨ s.time.pos ≠ 0 ∨ s.stillAwaits v.awaits ∨ s.bringing region.toNat v.version then s else s.sealVersion region.toNat v)

/-- A version that is in none of the groups of R242 is released at a course boundary. -/
def execPubReleased (region : Byte) (version : BitVec 32) (s : State) : Host.Outcome State Fault Refusal :=
  let g := region.toNat
  match s.pubVer g version.toNat with
  | none => .next s
  | some v =>
    if s.retains g v ∨ s.time.pos ≠ 0 then .next s
    else
      let (n, s) := s.releaseVersion g v.version
      .next (s.raise { code := 0x5814, sev := 0, unit := srcRoom (s.val .pubRoom g 0),
                       args := leBytes 1 g ++ leBytes 4 v.version ++ leBytes 4 n })

/- ## Opens (R247) -/

/-- An Open refused with its reason in VIEW_STATUS. -/
def State.denyOpen (s : State) (o : OpenWait) (w why : Nat) : State :=
  (s.setPubs { s.pubs with status := Tbl.put s.pubs.status (16 * o.room + w) why }).answerPub o.gone o.port o.tag 4 0

/-- An Open decided (R247). -/
def State.decideOpen (s : State) (o : OpenWait) : State :=
  match s.windowAt o.room (o.line * 64) with
  | none => s.answerPub o.gone o.port o.tag 4 0
  | some w =>
    match s.viewOf o.room w with
    | none => s.denyOpen o w 1
    | some g =>
      let held := Tbl.get s.pubs.views (16 * o.room + w) 0
      if o.close then
        if held = 0 then s.denyOpen o w 4
        else (s.setView o.room w g 0).answerPub o.gone o.port o.tag 0 (held * 2 ^ 32)
      else
        let vers := (s.pub g).vers
        let pick := if o.version = 0xFFFFFFFF then vers.find? (·.isSealed) else vers.find? fun v => v.version = o.version
        match pick with
        | none => s.denyOpen o w 2
        | some v =>
          if !v.isSealed then s.denyOpen o w 3
          else (s.setView o.room w g v.version).answerPub o.gone o.port o.tag 0 (v.version * 2 ^ 32)

/-- An Open arrives (R88, R247): decided at once, or in Quiet after the exit that it starts (R37). Its REGION field decides
nothing: the view names its region. -/
def execOpenView (port : Fin 32) (tag : BitVec 12) (room : Fin 64) (line : BitVec 40) (_region : Byte) (version : BitVec 32)
    (close : Bool) (s : State) : Host.Outcome State Fault Refusal :=
  match s.turned 0x31 port tag.toNat room line.toNat with
  | some s => .next s
  | none =>
    let o : OpenWait := ⟨port, tag.toNat, room, line.toNat, version.toNat, close, false⟩
    if s.power.mode = .brace ∨ s.power.mode = .flush then .next s
    else if s.quieted ∨ s.power.exitAt.isSome then
      let s := s.startExit.2
      .next (s.setPubs { s.pubs with opens := s.pubs.opens ++ [o] })
    else .next (s.decideOpen o)

/-- The Opens that waited for the end of a Quiet exit, decided in order (R37). -/
def State.decideOpens (s : State) : State :=
  let l := s.pubs.opens
  l.foldl (fun s o => s.decideOpen o) (s.setPubs { s.pubs with opens := [] })

/-- Brace (R244): a version not sealed is void; its number stays used and its pages stay with the live range. -/
def State.voidVersions (s : State) : List (Nat × Nat) × State :=
  let l := s.pubs.regions.flatMap fun g => (g.2.vers.filter fun v => !v.isSealed).map fun v => (g.1, v.version)
  (l, l.foldl (fun s x => (s.releaseVersion x.1 x.2).2) s)

/- ## A host declared failed (R234), and the crash list (R239, R249) -/

/-- HOST_FAILED (R234): the port's function goes Stopping and the port Down with cause 0. -/
def actHostFailed (v : Nat) : Act := fun s =>
  if h : v < 32 then
    if s.roleOf v = .peer ∨ s.roleOf v = .off then (rNo stRefused, s)
    else
      let f := s.fn (.port ⟨v, h⟩)
      let s := if f.state = .off then s else s.fnTo (.port ⟨v, h⟩) { f with state := .stopping, cause := 0 }
      (rOk, s.portDown v 0 true)
  else (rNo stRefused, s)

/-- HOST_FAILED as a command. -/
def execHostFailed (rq : Rq) (payload : List Byte) (s : State) : Host.Outcome State Fault Refusal :=
  .next (s.odWrite rq .hostFailed 0 0 payload noCalls (actHostFailed (ofLe payload))).retryAll

/-- A list read in blocks from a cursor: `n` words of 8 bytes, zeros past the end. -/
def blockWords (n at_ : Nat) (l : List Nat) : List Byte := fit (8 * n) (((l.drop at_).take n).flatMap (leBytes 8))

/-- CRASH_BLOCK (R249): 32 lines of the scan the cursor names; the cursor advances by 32. -/
def getCrashBlock (a : Arrival) (s : State) : List Byte × State :=
  let c := s.sessVal a .crashCursor
  let l := s.dir.lists.getD (c / 2 ^ 30) []
  let i := c % 2 ^ 20
  (blockWords 32 i l, s.setSessVal a .crashCursor (c - i + (i + 32) % 2 ^ 20))

/-- CRASH_BLOCK as a command. -/
def execCrashBlock (rq : Rq) (s : State) : Host.Outcome State Fault Refusal :=
  .next (s.odRead rq .crashBlock 0 0 noCalls (getCrashBlock rq.src))

end Sys2Proof.Machine
end

