-- ==== Sys2Proof/Machine/Calls.lean ====
section
/-!
DEFINITION. Sys2Proof/Machine/Calls.lean: calls and their completion lines (R263, R264, R267), and the program store (R274,
R275).
-/

namespace Sys2Proof.Machine

/-- The state with the cores, calls and programs replaced field by field. -/
def State.setCalls (s : State) (l : List Call) : State := s.setCores { s.cores with calls := l }

/-- A call by CALL_ID, the newest of that number. -/
def State.call (s : State) (id : Nat) : Option Call := s.cores.calls.reverse.find? fun c => c.id = id

/-- A call changed. -/
def State.updCall (s : State) (id : Nat) (f : Call → Call) : State :=
  s.setCalls (s.cores.calls.map fun c => if c.id = id then f c else c)

/-- A core. -/
def State.core (s : State) (c : Nat) : Core := Tbl.get s.cores.cores c Core.init
/-- The state with a core replaced. -/
def State.setCore (s : State) (c : Nat) (x : Core) : State := s.setCores { s.cores with cores := Tbl.put s.cores.cores c x }
/-- The state with a core changed. -/
def State.updCore (s : State) (c : Nat) (f : Core → Core) : State := s.setCore c (f (s.core c))

/-- Calls not ENDED, of 1,024 (R93, R276). -/
def State.callsOpen (s : State) : Nat := (s.cores.calls.filter fun c => decide (c.mode ≠ CallMode.ended)).length

/-- The rooms of calls, for the masks of CALL_QUERY and CALL_STATUS. -/
def State.callRooms (s : State) : CallRooms := fun id => (s.call id).map (·.room)

/-- A core runs a step of a call. -/
def State.callRuns (s : State) (id : Nat) : Bool := s.cores.cores.any fun e => e.2.running && decide (e.2.call = some id)

/-- A call ends (R264): from READY or PARKED; an ending of the same course that stands higher in the list of R264, or equally
high on a lower core, takes the place of another. -/
def State.endCall (s : State) (id : Nat) (e : Ending) : State :=
  let e := { e with course := e.course - s.time.base }
  s.updCall id fun c =>
    match c.mode with
    | .ready => { c with mode := .ending, ending := some e }
    | .parked => { c with mode := .ending, ending := some e }
    | .ending =>
      match c.ending with
      | some o =>
        if o.course = e.course ∧ (e.rank < o.rank ∨ (e.rank = o.rank ∧ e.core < o.core)) then { c with ending := some e } else c
      | none => { c with ending := some e }
    | .ended => c

/-- A line the module writes for itself, a completion line or its digest (R223, R267): a full-line write that recalls every
holder and takes space freed under the ceiling ahead of port writes, what Held ones have reserved too. Answers whether it is done; else what it waits
for has been set going. A line in no window, or of a far page that is lost, can not be written and is dropped (DESIGN CHOICE). -/
def State.ownWrite (s : State) (room line : Nat) (d : BitVec 512) : Bool × State :=
  let l := lineKey room line
  let k := linePage l
  let bk := lineBrick l
  let r : OpenReq := ⟨63, 0, .wr, room, line, d, 0, false, s.now, .recall, 0, none, true, false, false⟩
  if (s.windowAt room (line * 64)).isNone then (true, s)
  else if s.isFar k then
    match s.serveFar k with
    | (.done _ _, s) => (true, s)
    | (_, s) => (false, s)
  else if (Tbl.find s.vault.leaving k).isSome then (false, s)
  else if (s.page k).mode = .cellar ∨ (s.page k).mode = .demoted then (false, (s.needPage k false).2)
  else
    match s.consult r with
    | (.scan _, s) => (false, s)
    | (.wait, s) => (false, s)
    | (_, s) =>
      if s.needsSlot bk ∧ s.landingFull then (false, s)
      else if attrDurable (s.pageAttr k) ∧ s.ceiling + (s.tier.reservations.map (·.bytes)).sum < s.dirtyStored + s.writeCost k bk (s.isShared k) then
        (false, s)
      else
        let first := decide ((s.page k).mode = .new)
        let s := if first then s.allocate k (homeSlice (pageNo k)) else s
        let s := if s.isShared k then (s.splitPage k (homeSlice (pageNo k))).getD s else s
        match s.baseOf bk with
        | .ready data pm =>
          let x := mergeWrite .wr false (line % 4) (lineBytes d) fullMask data pm
          let open_ := s.crashOpen l
          let s := ((s.writeSlot bk (line % 4) x.2.1 x.2.2).accepted k first).putEntry l none
          (true, if open_ then s.crashCleared l else s)
        | .filling => (false, s)
        | .fill => (false, (s.beginFill bk).queueRead bk 0)

/-- A line of 64 bytes. -/
def lineFrom (bs : List Byte) : BitVec 512 := BitVec.ofNat 512 (ofLe (fit 64 bs))

/-- The completion line (R267). -/
def Call.completion (c : Call) (e : Ending) : List Byte :=
  leBytes 4 c.id ++ leBytes 1 e.outcome ++ leBytes 1 e.detail ++ leBytes 2 e.code ++ leBytes 4 c.steps ++ leBytes 4 e.course
    ++ fit 48 e.result

/-- Images that no new Call finds and no call runs are freed; a removal is then over (R274). -/
def State.freeProgs (s : State) : State :=
  let used (p : Prog) : Bool := p.current
    || s.cores.calls.any fun c => decide (c.prog = some p.serial) && decide (c.mode ≠ CallMode.ended)
  let gone := s.cores.progs.filter fun p => !used p
  let clear (t : Tbl Nat) (p : Prog) : Tbl Nat := if Tbl.get t p.handle 0 = 6 then Tbl.put t p.handle 0 else t
  s.setCores { s.cores with progs := s.cores.progs.filter used, status := gone.foldl clear s.cores.status }

/-- A completion line that a Brace left owing, and that is written when its room comes online (R269, R225). -/
def State.owes (s : State) (c : Call) : Bool :=
  c.prog.isNone && (s.cores.voids.any (fun v => decide (v.1 = c.room) && decide (v.2.1 = c.line) && decide (v.2.2.1 = c.id))
    || s.flush.shelfCalls.any fun v => decide (v.1 = c.room) && decide (v.2.1 = c.line) && decide (v.2.2.1 = c.id))

/-- An owed completion line has been written. -/
def State.paidLine (s : State) (c : Call) : State :=
  if s.owes c then
    let s := s.setCores { s.cores with voids := s.cores.voids.filter fun v => !(decide (v.1 = c.room) && decide (v.2.1 = c.line) && decide (v.2.2.1 = c.id)) }
    s.setFlush { s.flush with shelfCalls := s.flush.shelfCalls.filter fun v => !(decide (v.1 = c.room) && decide (v.2.1 = c.line) && decide (v.2.2.1 = c.id)) }
  else s

/-- No step of an ending call runs and all its writes have been accepted: its lines are written and it is ENDED (R264, R267,
R223). -/
def execCallCompletion (call : BitVec 32) (s : State) : Host.Outcome State Fault Refusal :=
  let id := call.toNat
  match s.call id with
  | none => .next s
  | some c =>
    match c.mode, c.ending with
    | .ending, some e =>
      if s.callRuns id then .next s
      else
        let (ok, s) := match c.digest with
          | some d =>
            let (ok, s) := s.ownWrite c.room (c.line + 1) (lineFrom d)
            (ok, if ok then s.updCall id fun c => { c with digest := none } else s)
          | none => (true, s)
        if !ok then .next s
        else
          match s.ownWrite c.room c.line (lineFrom (c.completion e)) with
          | (true, s) => .next (((s.paidLine c).updCall id fun c => { c with mode := .ended }).freeProgs.retryAll)
          | (false, s) => .next s
    | _, _ => .next s

/-- The kept stamp of a PARKED call is reached, by the epoch in force (R57, R264). -/
def execCallUnpark (call : BitVec 32) (s : State) : Host.Outcome State Fault Refusal :=
  match s.call call.toNat with
  | none => .next s
  | some c =>
    .next (if c.mode = .parked ∧ s.ofShown c.kept ≤ s.now then s.updCall c.id fun c => { c with mode := .ready } else s)

/-- The code of a call's state (R276). -/
def CallMode.code : CallMode → Nat
  | .ready => 0 | .parked => 1 | .ending => 2 | .ended => 3

/-- CALL_TIMEOUT courses since the acceptance of a call that is READY or PARKED (R264): it ends FATAL, detail 5. -/
def execCallTimeout (call : BitVec 32) (s : State) : Host.Outcome State Fault Refusal :=
  match s.call call.toNat with
  | none => .next s
  | some c =>
    if c.prog.isNone ∨ s.now < c.accepted + 4096 * s.val .callTimeout 0 0 ∨ (c.mode ≠ .ready ∧ c.mode ≠ .parked) then .next s
    else
      let e : Ending := ⟨6, 32, s.time.course, 8, 5, 0, []⟩
      .next ((s.endCall c.id e).raise
        { code := 0x8003, sev := 2, unit := srcRoom c.room,
          args := leBytes 4 c.id ++ leBytes 1 c.mode.code ++ leBytes 4 c.steps })

/- ## The program store (R274, R275) -/

/-- CODE_WORDS of an image. -/
def imageWords (img : List Byte) : Nat := ofLe ((img.drop 4).take 4)
/-- ENTRY of an image. -/
def imageEntry (img : List Byte) : Nat := ofLe ((img.drop 8).take 4)
/-- STEP_BYTES of an image. -/
def imageStepBytes (img : List Byte) : Nat := ofLe ((img.drop 12).take 4)

/-- The header of an image is valid (R275). -/
def imageOk (img : List Byte) : Bool :=
  decide (64 ≤ img.length) && decide (img.length ≤ 1048576) && decide (img.getD 0 0 = 1)
    && ((img.drop 1).take 3).all (· = 0) && ((img.drop 16).take 48).all (· = 0)
    && decide (img.length = 64 + 16 * imageWords img) && decide (imageEntry img < imageWords img)

/-- Handles of module operations (R263). -/
def handleReserved (h : Nat) : Bool := decide (0xFFFFFF00 ≤ h)

/-- Bytes free in the program store (R276). -/
def State.progFree (s : State) : Nat := 16777216 - (s.cores.progs.map fun p => p.image.length).sum

/-- A refused install: PROG_REFUSED with its PROG_STATUS (R276, R278). -/
def State.progRefuse (s : State) (h st : Nat) : Reply × State :=
  (rWhy stRefused st, (s.setCores { s.cores with status := Tbl.put s.cores.status h st }).raise
    { code := 0x8011, sev := 2, unit := srcKeeper, args := leBytes 4 h ++ leBytes 1 st })

/-- PROG_INSTALL (R274): the image sent is installed under the selected handle, or refused at its first failing check. -/
def actProgInstall (src : Arrival) (v : Nat) : Act := fun s =>
  if v ≠ 1 then (rNo stRefused, s)
  else
    let h := s.sessVal src .progSelect
    let img := s.blob .progImage 0 0 []
    if sha384 img ≠ fit 48 (s.blob .progDigest 0 0 []) then s.progRefuse h 2
    else if !imageOk img then s.progRefuse h 3
    else if handleReserved h then s.progRefuse h 5
    else
      let old := s.cores.progs.map fun p => if p.handle = h then { p with current := false } else p
      let s' := (s.setCores { s.cores with progs := old }).freeProgs
      if s'.progFree < img.length ∨ 256 ≤ s'.cores.progs.length then s.progRefuse h 4
      else
        let p : Prog := ⟨s'.cores.nextProg, h, s.val .progRooms 0 0, img, true⟩
        (rOk, (s'.setCores { s'.cores with progs := s'.cores.progs ++ [p], nextProg := s'.cores.nextProg + 1,
                                           status := Tbl.put s'.cores.status h 1 }).raise
          { code := 0x8010, sev := 1, unit := srcKeeper, args := leBytes 4 h ++ leBytes 4 img.length })

/-- PROG_INSTALL as a command. -/
def execProgInstall (rq : Rq) (payload : List Byte) (s : State) : Host.Outcome State Fault Refusal :=
  .next (s.odWrite rq .progInstall 0 0 payload noCalls (actProgInstall rq.src (ofLe payload)))

/-- PROG_REMOVED (R278). -/
def progRemoved (h cause : Nat) : Ev :=
  { code := 0x8012, sev := 1, unit := srcKeeper, args := leBytes 4 h ++ leBytes 1 cause }

/-- PROG_REMOVE (R274): new Calls no longer find the handle; the image goes when its calls have ended. -/
def actProgRemove (src : Arrival) (v : Nat) : Act := fun s =>
  let h := s.sessVal src .progSelect
  if v ≠ 1 ∨ !s.cores.progs.any (fun p => p.current && decide (p.handle = h)) then (rNo stRefused, s)
  else
    let old := s.cores.progs.map fun p => if p.handle = h then { p with current := false } else p
    (rOk, ((s.setCores { s.cores with progs := old, status := Tbl.put s.cores.status h 6 }).freeProgs).raise (progRemoved h 0))

/-- PROG_REMOVE as a command. -/
def execProgRemove (rq : Rq) (payload : List Byte) (s : State) : Host.Outcome State Fault Refusal :=
  .next (s.odWrite rq .progRemove 0 0 payload noCalls (actProgRemove rq.src (ofLe payload)))

/-- A program that a Call of a room may run. -/
def State.progFor (s : State) (h room : Nat) : Option Prog :=
  s.cores.progs.find? fun p => p.current && decide (p.handle = h) && bitOf p.rooms room

/-- An accepted call joins the queue with the next CALL_ID, and CallAck is sent (R93, R263). -/
def State.acceptCall (s : State) (port tag : Nat) (c : Call) : Nat × State :=
  let id := s.cores.nextId
  let s := s.setCores { s.cores with calls := s.cores.calls ++ [{ c with id := id }], nextId := (id + 1) % 2 ^ 32 }
  (id, s.respond port tag 0 none (id * 2 ^ 32) true)

end Sys2Proof.Machine
end

