-- ==== Sys2Proof/Machine/Shelving.lean ====
section
/-!
DEFINITION. Sys2Proof/Machine/Shelving.lean: shelves (R209 to R227): definitions, the shelve from command to commit, the
manifest and its digest, the unshelve, releases.
-/

namespace Sys2Proof.Machine

/-- A shelf. -/
def State.shelf (s : State) (n : Nat) : Shelf := Tbl.get s.shelves n Shelf.init
/-- The state with a shelf replaced. -/
def State.setShelf (s : State) (n : Nat) (f : Shelf) : State := s.setShelves (Tbl.put s.shelves n f)
/-- The state with a shelf changed. -/
def State.updShelf (s : State) (n : Nat) (g : Shelf → Shelf) : State := s.setShelf n (g (s.shelf n))
/-- The state with a shelf's command changed. -/
def State.updJob (s : State) (n : Nat) (g : ShelfJob → ShelfJob) : State := s.updShelf n fun f => { f with job := f.job.map g }

/-- Recorders in use, of 256 (R218). -/
def State.recorders (s : State) : Nat := Tbl.count s.shelves fun _ f => f.recording

/-- The pages of a shelf's ranges among those listed, in address order. -/
def State.rangePages (s : State) (f : Shelf) : List Nat :=
  (s.pages.filter fun e => decide (e.1 < 2 ^ 40) && decide (pageRoom e.1 = f.room) && inStep f.ranges (pageNo e.1)
    && e.2.allocated).map (·.1)

/- ## Manifests and digests (R216, R217) -/

/-- The page entry of an image: its poison mask and its bricks' CRCs, an unwritten brick giving that of 256 zero bytes. -/
def manPage (page slot : Nat) (i : Image) : ManPage :=
  let rec_ (b : Nat) : Nat := (i.bricks.getD b Laid.blank).record
  ⟨page, i.gen, slot, (upTo 16).foldl (fun m b => m + (if recPoison (rec_ b) then 2 ^ b else 0)) 0,
    (upTo 16).map fun b => if rec_ b = 0 then crc32c (List.replicate 256 0) else recCrc (rec_ b)⟩

/-- The first 8 bytes of a page entry. -/
def ManPage.head (p : ManPage) : List Byte := leBytes 8 (p.mask * 2 ^ 48 + p.page)
/-- The CRCs of a page entry. -/
def ManPage.crcBytes (p : ManPage) : List Byte := p.crcs.flatMap (leBytes 4)

/-- The digest of page entries in ascending page address (R217). -/
def digestOf (l : List ManPage) : List Byte := sha384 (l.flatMap fun p => p.head ++ p.crcBytes)

/-- The ranges of a definition in 256 bytes. -/
def rangeBytes (l : List (Nat × Nat)) : List Byte := fit 256 (l.flatMap fun r => leBytes 8 r.1 ++ leBytes 8 r.2)

/-- A manifest as it is read (R216). -/
def manifestBytes (n room : Nat) (v : ShelfVer) : List Byte :=
  leBytes 2 n ++ [1] ++ leBytes 1 room ++ leBytes 4 v.version ++ leBytes 8 v.freeze ++ leBytes 8 v.commit
    ++ leBytes 8 v.pages.length ++ leBytes 4 v.order.length ++ leBytes 1 v.ranges.length ++ [0, 0, 0] ++ fit 48 v.digest
    ++ rangeBytes v.ranges ++ v.order.flatMap (leBytes 4)
    ++ v.pages.flatMap fun p => p.head ++ leBytes 4 p.gen ++ leBytes 4 0 ++ p.crcBytes

/-- MANIFEST_BLOCK (R226): 256 bytes of the manifest from the cursor, which advances. -/
def getManifestBlock (a : Arrival) (s : State) : List Byte × State :=
  let n := s.sessVal a .shelfSelect
  let f := s.shelf n
  let c := s.sessVal a .manifestCursor
  let m := match f.vers.find? fun v => v.version = s.sessVal a .manifestVersion with
    | some v => manifestBytes n f.room v | none => []
  (fit 256 (m.drop c), s.setSessVal a .manifestCursor (c + 256))

/-- MANIFEST_BLOCK as a command. -/
def execManifestBlock (rq : Rq) (s : State) : Host.Outcome State Fault Refusal :=
  .next (s.odRead rq .manifestBlock 0 0 noCalls (getManifestBlock rq.src))

/- ## Definitions (R209, R210) -/

/-- SHELF_ROOM (R210, R211, R218): a shelf allotted, or unallotted when it retains no version and is Idle. -/
def actShelfRoom (src : Arrival) (v : Nat) : Act := fun s =>
  let n := s.sessVal src .shelfSelect
  let f := s.shelf n
  if v ≠ 255 ∧ 64 ≤ v then (rNo stRefused, s)
  else if f.room = v then (rOk, s)
  else if !f.vers.isEmpty ∨ f.job.isSome then (rNo stState, s)
  else if v = 255 ∧ f.bases.isEmpty then (rOk, s.setShelves (Tbl.del s.shelves n))
  else (rOk, s.setShelf n { Shelf.init with room := v, recording := decide (v ≠ 255) && decide (s.recorders < 256), bases := f.bases,
                                            highest := f.bases.foldl (fun m b => max m b.version) 0 })

/-- SHELF_ROOM as a command. -/
def execShelfRoom (rq : Rq) (payload : List Byte) (s : State) : Host.Outcome State Fault Refusal :=
  .next (s.odWrite rq .shelfRoom 0 0 payload noCalls (actShelfRoom rq.src (ofLe payload)))

/-- The ranges of a payload, those of size 0 left out. -/
def rangesOf : Nat → List Byte → List (Nat × Nat)
  | 0, _ => []
  | n + 1, bs =>
    let b := ofLe (bs.take 8)
    let z := ofLe ((bs.drop 8).take 8)
    (if z = 0 then [] else [(b, z)]) ++ rangesOf n (bs.drop 16)

/-- Two ranges overlap. -/
def rangesMeet (a b : Nat × Nat) : Bool := decide (a.1 < b.1 + b.2) && decide (b.1 < a.1 + a.2)

/-- No two ranges of a list overlap. -/
def apart : List (Nat × Nat) → Bool
  | [] => true
  | r :: rs => !rs.any (rangesMeet r) && apart rs

/-- A range meets a pool window of its room while the module is Joined (R210, R490). -/
def State.meetsPool (s : State) (room : Nat) (r : Nat × Nat) : Bool :=
  (upTo 16).any fun w => s.poolWindow room w && rangesMeet r (s.val .windowBase room w, s.val .windowSize room w)

/-- The shelf's ranges lie in durable windows of its room. -/
def State.rangesFit (s : State) (room : Nat) (l : List (Nat × Nat)) : Bool :=
  l.all fun r => s.rangeIn room attrDurable 17 r.1 r.2

/-- SHELF_RANGES (R210). -/
def actShelfRanges (src : Arrival) (payload : List Byte) : Act := fun s =>
  let n := s.sessVal src .shelfSelect
  let f := s.shelf n
  let l := rangesOf 16 payload
  let others := (s.shelves.filter fun e => decide (e.1 ≠ n) && decide (e.2.room = f.room)).flatMap fun e => e.2.ranges
  let ok := l.all (fun r => decide (r.1 % 4096 = 0) && decide (r.2 % 4096 = 0)) && apart l
    && !l.any (fun r => others.any (rangesMeet r)) && !l.any (s.meetsPool f.room)
  if payload.length ≠ 256 then (rNo stLength, s)
  else if f.room = 255 ∨ !f.vers.isEmpty ∨ f.job.isSome then (rNo stState, s)
  else if ok && s.rangesFit f.room l then (rOk, s.setShelf n { f with ranges := l })
  else (rNo stRefused, s)

/-- SHELF_RANGES as a command. -/
def execShelfRanges (rq : Rq) (payload : List Byte) (s : State) : Host.Outcome State Fault Refusal :=
  .next (s.odWrite rq .shelfRanges 0 0 payload noCalls (actShelfRanges rq.src payload))

/-- SHELF_CLASS, SHELF_FLAGS and SHELF_DELTA_TABLE of the selected shelf (R226). -/
def actShelfField (src : Arrival) (e : Ent) (v : Nat) : Act := fun s =>
  let n := s.sessVal src .shelfSelect
  let f := s.shelf n
  if f.room = 255 then (rNo stState, s)
  else match e with
    | .shelfClass => if v < 8 then (rOk, s.setShelf n { f with cls := v }) else (rNo stRefused, s)
    | .shelfFlags => if v < 4 then (rOk, s.setShelf n { f with flags := v }) else (rNo stRefused, s)
    | _ => if v < 32 ∨ v = 255 then (rOk, s.setShelf n { f with delta := v }) else (rNo stRefused, s)

/- ## Results (R223) -/

/-- The 48 bytes of a result. -/
def shelfResult (n op outcome version start stop pages bytes poisoned : Nat) : List Byte :=
  leBytes 2 n ++ leBytes 1 op ++ leBytes 1 outcome ++ leBytes 4 version ++ leBytes 8 start ++ leBytes 8 stop
    ++ leBytes 8 pages ++ leBytes 8 bytes ++ leBytes 4 poisoned ++ leBytes 4 0

/-- A command's result handed to a call (R223): its completion line is due, and for a shelve or unshelve done its digest. -/
def State.endShelfCall (s : State) (id : Nat) (result : List Byte) (digest : Option (List Byte)) : State :=
  (s.endCall id ⟨6, 32, s.time.course, 0, 0, 0, result⟩).updCall id fun c => { c with digest := some (digest.getD []) }

/-- SHELVE_END or UNSHELVE_END (R227), by the path of R124. -/
def shelfEnd (n op version outcome courses poisoned room : Nat) : Ev :=
  { code := if op = 1 then 0x3801 else 0x3802, sev := 1, unit := srcRoom room, room := some room,
    args := leBytes 2 n ++ leBytes 4 version ++ leBytes 1 outcome ++ leBytes 4 (if op = 1 then courses else poisoned) }

/-- How many pages a retained version of a shelf has. -/
def Shelf.pagesOf (f : Shelf) (version : Nat) : Nat := ((f.vers.find? fun v => v.version = version).map (·.pages.length)).getD 0

/-- A running command ends (R223): its result and digest are kept, the shelf is Idle, the end is written, and a call hears of
it. -/
def State.endJob (s : State) (n outcome pages : Nat) (digest : Option (List Byte)) : State :=
  let f := s.shelf n
  match f.job with
  | none => s
  | some j =>
    let stop := stampOf s.time.course 0
    let r := shelfResult n j.op outcome j.version (s.shown j.start) (s.shown stop) pages j.bytes j.poisoned
    let s := s.setShelf n { f with job := none, result := r, digest := digest.getD f.digest }
    let s := s.raise (shelfEnd n j.op j.version outcome ((stop - j.start) / 4096) j.poisoned f.room)
    match j.src with | .call id _ _ => s.endShelfCall id r digest | .od => s

/-- A command refused before it begins: its outcome goes to the call and to SHELF_RESULT (R223). One that is denied leaves no trace on the
shelf, which need not be its room's, and one that finds the shelf busy writes no end (R222, DEDUCED). -/
def State.refuseShelf (s : State) (n op version outcome : Nat) (from_ : ShelfFrom) : State :=
  let r := shelfResult n op outcome version 0 0 0 0 0
  let s := if outcome = 8 then s
    else
      let f := s.shelf n
      let s := s.setShelf n { f with result := r }
      if op = 3 ∨ outcome = 2 then s else s.raise (shelfEnd n op version outcome 0 0 f.room)
  match from_ with | .call id _ _ => s.endShelfCall id r none | .od => s

/- ## The shelve (R214, R215) -/

/-- A shelve command (R211, R213, R222, R343): the outcome that refuses it, or the state in which it waits for its freeze. -/
def State.startShelve (s : State) (n : Nat) (from_ : ShelfFrom) : Nat × State :=
  let f := s.shelf n
  if f.job.isSome then (2, s)
  else if s.slotsLow then (9, s)
  else if 32 ≤ f.vers.length ∨ f.highest = 0xFFFFFFFF then (5, s)
  else (0, s.setShelf n { f with job := some ⟨1, 0, from_, false, false, s.now, [], [], [], [], [], 0, 0, none⟩ })

/-- The bricks of a page whose plaintext the version takes from elsewhere than the stored form (R214): those in the landing,
and those a port owns a line of or lost one of. -/
def State.overOf (s : State) (k gen : Nat) (bricks : List Laid) (footing : Tbl (Nat × Laid)) : Tbl (List Byte × Nat) :=
  (upTo 16).filterMap fun b =>
    let bk := brickKey k b
    let owned := s.dir.entries.any fun e => decide (e.1 / 4 = bk) && decide (e.2.st ≠ DirMode.shared)
    match s.slotOf bk with
    | some l => if l.filling then none else some (b, (l.data, l.poison))
    | none =>
      if !owned then none
      else
        let st := bricks.getD b Laid.blank
        some (b, (match s.expandIn k b gen st footing with | .ok d => d | .error _ => List.replicate 256 0), recMask st.record)

/-- A page as the freeze has it. A page in the Cellar has the bricks of its image. -/
def State.markPage (s : State) (k : Nat) : MarkedPage :=
  let p := s.page k
  let img := if p.inStore then none else p.slot.bind s.image
  let bricks := (img.map (·.bricks)).getD p.store
  let gen := (img.map (·.gen)).getD p.gen
  let foot := if p.inStore then p.footing else s.footingOf k bricks
  ⟨k, gen, bricks, foot, s.overOf k gen bricks foot, decide (p.mode = PageMode.dirty) || s.inLanding k, false⟩

/-- The freeze of a shelve (R211, R214 steps 1 and 2). -/
def State.freezeShelf (s : State) (n : Nat) (f : Shelf) (j : ShelfJob) : State :=
  let all := s.rangePages f
  let owned (k : Nat) : Bool := s.dir.entries.any fun e => decide (linePage e.1 = k) && decide (e.2.st ≠ DirMode.shared)
  let within (k : Nat) : Bool := decide (k < 2 ^ 40) && decide (pageRoom k = f.room) && inStep f.ranges (pageNo k)
  -- A page that is NEW joins the version with what a port that owns a line of it returns.
  let news := (s.dir.entries.map fun e => linePage e.1).foldl (fun a k =>
    if within k && !all.contains k && owned k && !a.contains k then a ++ [k] else a) []
  let mine := all.filter fun k => decide ((s.page k).mode = PageMode.dirty) || s.inLanding k || owned k
  let rest := all.filter fun k => !mine.contains k
  let fixed := rest.filterMap fun k => (s.page k).slot.bind fun sl => (s.image sl).map fun i => manPage (pageNo k) sl i
  let marked := (mine ++ news).map s.markPage
  let (ids, s) := s.recallOwned within
  let s := fixed.foldl (fun s p => s.refImage p.slot) s
  let v := f.highest + 1
  let s := s.setShelf n { s.shelf n with
    highest := v, job := some { j with version := v, begun := true, start := stampOf s.time.course 0, awaits := ids,
                                       marked := marked, pages := fixed } }
  let s := s.queueSlots fun b _ => mine.contains (b / 16)
  -- Marked slots go ahead of the others.
  let s := s.setLanding (Tbl.each s.landing fun b l => if mine.contains (b / 16) then { l with marked := true, turn := 0 } else l)
  mine.foldl (fun s k => s.queueWriteBack k 2) s

/-- At the first boundary after its command a shelve freezes. -/
def execShelveFreeze (shelf : BitVec 12) (s : State) : Host.Outcome State Fault Refusal :=
  let n := shelf.toNat
  let f := s.shelf n
  match f.job with
  | none => .next s
  | some j =>
    .next (if j.op = 1 ∧ !j.begun ∧ boundaryAfter j.start ≤ s.now then s.freezeShelf n f j else s)

/-- The base of a DELTA trial (R215): shelf and version it is named by, its stored form with the generation it lies under, and its
plaintext. -/
def State.deltaBase (s : State) (n : Nat) (f : Shelf) (k b : Nat) : Option ((Nat × Nat) × (Nat × Laid) × List Byte) :=
  let u := f.vers.find? fun v => v.pages.any fun p => p.page = pageNo k
  match u.bind fun v => (v.pages.find? fun p => p.page = pageNo k).bind fun p => (s.image p.slot).map fun i => (v, i) with
  | none => none
  | some (v, i) =>
    let l := i.bricks.getD b Laid.blank
    let named : Option ((Nat × Nat) × Nat × Laid) := match l.base with
      | some name => (Tbl.find (s.footingOf k i.bricks) b).map fun g => (name, g)
      | none => some ((n, v.version), i.gen, { l with check := sectorChecks (l.sectors.length / 32) l.sectors })
    named.bind fun x =>
      if x.2.2.record = 0 ∨ recPoison x.2.2.record then none
      else match s.expandIn k b x.2.1 x.2.2 [] with
        | .ok d => some (x.1, x.2, d)
        | .error _ => none

/-- One brick of a marked page in the form the version keeps (R215): a new coded form with its footing brick if it is DELTA; none where
the brick keeps the form it has. -/
def State.codeBrick (s : State) (n : Nat) (f : Shelf) (m : MarkedPage) (b version : Nat) : Option (Stored × Option (Nat × Laid)) :=
  let k := m.page
  let old := m.bricks.getD b Laid.blank
  let c := s.codeChoice k
  let based := Tbl.find m.based b
  let plain : Option (List Byte × Nat) := match based with
    | some x => some x
    | none => if old.record = 0 ∨ recPoison old.record then none
      else match s.expandIn k b m.gen old m.footing with | .ok d => some (d, 0) | .error _ => none
  plain.bind fun (d, pm) =>
    if pm ≠ 0 then some (poisonForm c.isSealed version pm d, none)
    else
      let keeps := based.isNone && decide (recMode old.record ≠ .delta)
      let own := if keeps then s.openBrick k b m.gen old else compress c b version d
      let table := if f.delta < 32 then (s.tableOf (pageRoom k) f.delta).map codeOf else none
      let trial : Option (Stored × Nat × Laid) := match table, (if c.isSealed then none else s.deltaBase n f k b) with
        | some code, some (name, base, plain) =>
          let x := deltaBody name.1 name.2 code d plain
          if x.1 < recSectors own.record ∧ x.1 ≤ c.rawMax then
            some (⟨mkRecord (crc32c d) version f.delta .delta x.1 false false, x.2⟩, base)
          else none
        | _, _ => none
      match trial with
      | some (st, base) =>
        if based.isNone ∧ recMode old.record = .delta ∧ (s.openBrick k b m.gen old).body = st.body ∧ recTable old.record = f.delta then none
        else some (st, some base)
      | none => if keeps then none else some (own, none)

/-- A marked page's sixteen bricks coded for the version, their VERSIONs drawn from the page's counters and all of them encrypted under
its generation (R165, R215); a brick that keeps its form and lies under an earlier generation is encrypted again under this one. -/
def State.codePage (s : State) (n : Nat) (f : Shelf) (m : MarkedPage) : List Laid × Tbl (Nat × Laid) × State :=
  let k := m.page
  let new := (upTo 16).foldl (fun (x : List (Option (Stored × Option (Nat × Laid))) × State) b =>
    let (v, s') := x.2.nextVersion (brickKey k b)
    match x.2.codeBrick n f m b v with
    | none => (x.1 ++ [none], x.2)
    | some y => (x.1 ++ [some y], s')) ([], s.freshen k)
  let drawn (s : State) (b : Nat) : State := match new.1.getD b none with
    | some y => s.updPage k fun p => { p with drawn := Tbl.put p.drawn b (recVersion y.1.record) }
    | none => s
  let s := (upTo 16).foldl drawn new.2
  let gen := (s.page k).gen
  let kept (b : Nat) : Laid :=
    let old := m.bricks.getD b Laid.blank
    if m.gen = gen then { old with check := sectorChecks (old.sectors.length / 32) old.sectors }
    else s.sealBrick k b gen (s.openBrick k b m.gen old)
  let bs := (upTo 16).map fun b => match (new.1.getD b none) with
    | some y => s.sealBrick k b gen y.1
    | none => kept b
  let foot := (upTo 16).filterMap fun b => match (new.1.getD b none) with
    | some y => y.2.map fun g => (b, g)
    | none => (Tbl.find m.footing b).map fun g => (b, g)
  (bs, foot, s)

/-- A marked page put to the Cellar (R214 steps 3 and 4): one not written since the freeze takes the coded form in the Store
too, and its program completes its write-back; one written since is programmed beside it; one that did not change keeps its
image, and one that was NEW and to which nothing came back has no entry. None where the Cellar or the Store has no room for now. -/
def State.programMarked (s : State) (n : Nat) (f : Shelf) (m : MarkedPage) : Option (Option ManPage × Nat × State) :=
  let k := m.page
  let p := s.page k
  let asIs := if m.changed then none else p.slot.bind fun sl => (s.image sl).map fun i => (sl, i)
  match asIs with
  | some (sl, i) => some (some (manPage (pageNo k) sl i), 0, s.refImage sl)
  | none =>
    if !m.changed then some (none, 0, s) else
    let (bs, foot, s) := s.codePage n f m
    let p := s.page k
    let here := !m.written && p.inStore
    let s := if here then s.cancelItems k else s
    let slot := if here then s.slotFor p else s.newSlot
    let set := if s.setFull (slot % 2) then 1 - slot % 2 else slot % 2
    if s.setFull set then none
    else
      let laid : Option (PageForm × State) := if !here then
          -- The version's page group takes a GROUP_SEQ of its own, and the live one the next (R197).
          let s := s.groupWritten k
          let q := s.page k
          let bs := if q.gen = p.gen then bs
            else (upTo 16).map fun b => s.sealBrick k b q.gen (s.openBrick k b p.gen (bs.getD b Laid.blank))
          some (⟨q.gen, q.groupSeq, bs, s.sealGroup k q.gen q.groupSeq bs⟩, s.groupWritten k)
        else
          let s := (s.setPage k { p with bricks := bs, footing := foot, transit := .writing, wrote := false, wbStep := 0 }).groupWritten k
          let s := s.updPage k fun q => { q with snapshot := some q.form }
          let moved : Option State := match p.frame with | some fr => s.reRun fr (max 1 (baysFor bs foot)) false | none => some s
          moved.map fun s => ((s.page k).form, s)
      laid.bind fun (form, s) =>
        (s.placeItem (rowKey set false) slot (imageBytes bs) (if here then some k else none)).map fun s =>
          let img : Image := imageOf k form none 0
          let s := match s.image slot with | some _ => s | none => s.putImage slot img
          (some (manPage (pageNo k) slot img), storedSize bs, s.refImage slot)

/-- One marked page put to the Cellar; what finds no room stays marked. -/
def State.programOne (s : State) (n : Nat) (m : MarkedPage) : State :=
  match s.programMarked n (s.shelf n) m with
  | some (mp, bytes, s) =>
    s.updJob n fun j => { j with marked := j.marked.filter fun x => x.page ≠ m.page, pages := j.pages ++ mp.toList, bytes := j.bytes + bytes }
  | none => s

/-- The kept runs of a shelve's frames given up (R214 step 3). -/
def State.dropKept (s : State) (pages : List Nat) : State :=
  s.setStore { s.store with frames := Tbl.each s.store.frames fun _ e => if pages.contains e.page then { e with kept := none } else e }

/-- A shelve may program its marked pages (R214): its recalls are answered and applied, and its marked slots have left the landing; not while
the keys are locked, since recoding needs them (R431). -/
def State.mayProgram (s : State) (j : ShelfJob) : Bool :=
  let waits (m : MarkedPage) : Bool := (!m.written && s.inLanding m.page)
    || s.landing.any fun e => decide (e.1 / 16 = m.page) && (e.2.marked || e.2.under.isSome)
  let due := s.dir.returned.any fun r => j.marked.any fun m => decide (m.page = linePage r.line)
  decide (j.op = 1) && j.begun && !j.coded && !s.stillAwaits j.awaits && !j.marked.any waits && !due && !s.sec.keysOff

/-- A shelve whose marked pages have all been put to the Cellar gives up its kept runs. -/
def State.settleCoded (s : State) (n : Nat) : State :=
  match (s.shelf n).job with
  | some j =>
    if s.mayProgram j && j.marked.isEmpty then
      let kept := (s.store.frames.filter fun e => e.2.kept.isSome && decide (pageRoom e.2.page = (s.shelf n).room)
        && inStep (s.shelf n).ranges (pageNo e.2.page)).map fun e => e.2.page
      (s.dropKept kept).updJob n fun j => { j with coded := true }
    else s
  | none => s

/-- The landing slots of a shelve's marked pages not written since are queued (R194): those that the answers to its BackInv took, too. -/
def State.drainMarked (s : State) (n : Nat) : State :=
  match (s.shelf n).job with
  | some j => if j.op = 1 ∧ j.begun ∧ !j.coded then s.queueSlots fun b _ => j.marked.any fun m => decide (m.page = b / 16) && !m.written else s
  | none => s

/-- The bytes of a manifest, in whole pages of the Cellar (R216). -/
def manifestSize (order pages : Nat) : Nat := 4096 * ceilDiv (344 + 4 * order + 88 * pages) 4096

/-- The pages of a shelve are all programmed. -/
def State.pagesDone (s : State) (f : Shelf) (j : ShelfJob) : Bool :=
  j.coded && j.pages.all fun p => decide ((s.page (pageKey f.room p.page)).transit ≠ Transit.writing)
    && match s.image p.slot with | some i => i.loc.isSome | none => false

/-- What the Cellar programs next (R145, R214): a queued page, a shelve's marked page, or the rest of a shelve's manifest. -/
inductive Program where
  | page (k : Nat)
  | marked (shelf : Nat) (m : MarkedPage)
  | manifest (shelf : Nat)
  deriving DecidableEq, Repr

/-- What a course's program bytes serve, in the order of R145: step, class, order queued; a shelve's pages and manifest stand in step 2 at the
shelf's class. A marked page goes with its shelve alone. -/
def State.programQueue (s : State) : List Program :=
  let wb := s.wbQueue.filter fun e => !s.isMarked e.1 || s.inLanding e.1
  let queued (l : List (Nat × Page)) : List (List Nat × Program) := l.map fun e => ([s.pageClass e.1, e.2.wbOrder], .page e.1)
  let shelved := s.shelves.flatMap fun e => match e.2.job with
    | none => []
    | some j =>
      if s.mayProgram j then j.marked.map fun m => ([e.2.cls, (s.page m.page).wbOrder], Program.marked e.1 m)
      else if s.pagesDone e.2 j then [([e.2.cls, s.tier.order], Program.manifest e.1)]
      else []
  let two := sortBy (fun (a b : List Nat × Program) => decide (a.1 < b.1)) (queued (wb.filter fun e => e.2.wbStep = 2) ++ shelved)
  (wb.filter fun e => e.2.wbStep = 1).map (fun e => .page e.1) ++ two.map (·.2) ++ (wb.filter fun e => 2 < e.2.wbStep).map fun e => .page e.1

/-- Items served while the course's program bytes last; what is left of them. -/
def State.serveItems (s : State) (left : Nat) : List Program → Nat × State
  | [] => (left, s)
  | x :: rest =>
    if left = 0 then (0, s)
    else match x with
      | .page k =>
        let n := imageBytes (s.page k).store
        let s := s.beginWriteBack k
        (if left < n then s.setTier { s.tier with excess := n - left } else s).serveItems (left - n) rest
      | .marked n m =>
        let b := imageBytes m.bricks
        let s := (s.programOne n m).settleCoded n
        (if left < b then s.setTier { s.tier with excess := b - left } else s).serveItems (left - b) rest
      | .manifest n =>
        let f := s.shelf n
        let full := match f.job with
          | some j => j.manifest.getD (manifestSize (if f.recording then f.order.length else 0) j.pages.length) | none => 0
        (s.updJob n fun j => { j with manifest := some (full - left) }).serveItems (left - full) rest

/-- The Cellar's program bytes of a course (R119, R145, R348): 50,000 with all 32 channels, less what the course before took of them. Answers what
is left. -/
def State.serveCellar (s : State) : Nat × State :=
  let rate := 50000 * s.channelsIn / 32
  let s := s.shelves.foldl (fun s e => (s.drainMarked e.1).settleCoded e.1) s
  (s.setTier { s.tier with excess := s.tier.excess - rate }).serveItems (rate - s.tier.excess) s.programQueue

/-- The eviction of a shelf's ranges (R214 step 7). -/
def State.evict (s : State) (f : Shelf) : State :=
  (s.rangePages f).foldl (fun s k =>
    let p := s.page k
    if s.inLanding k then s
    else if p.mode = .clean ∧ p.transit = .none then s.leaveStore k .cellar
    else s.updPage k Page.dropLoft) s

/-- The manifest of a shelve is programmed behind its pages (R214 steps 5 to 7, R216 to R218): the version is recorded, the
result written, and the ranges evicted when the flag says so. -/
def execShelveCommit (shelf : BitVec 12) (s : State) : Host.Outcome State Fault Refusal :=
  let n := shelf.toNat
  let f := s.shelf n
  match f.job with
  | none => .next s
  | some j =>
    if j.op ≠ 1 ∨ !s.pagesDone f j ∨ j.manifest ≠ some 0 then .next s
    else
      let entry (p : ManPage) : ManPage := match s.image p.slot with | some i => manPage p.page p.slot i | none => p
      let pages := sortBy (fun a b => decide (a.page < b.page)) (j.pages.map entry)
      let d := digestOf pages
      let bad := (pages.map fun p => ((upTo 16).filter fun b => bitOf p.mask b).length).sum
      let order := if f.recording then f.order else []
      let v : ShelfVer := ⟨j.version, s.shown j.start, s.shown (stampOf s.time.course 0), d, f.ranges, order, pages⟩
      let s := s.setShelf n { f with vers := v :: f.vers, job := some { j with poisoned := bad } }
      let s := s.settleOverdraft f.room
      let s := s.endJob n 0 pages.length (some d)
      .next ((if bitOf f.flags 0 then s.evict f else s).retryAll)

/-- SHELVE by object dictionary (R222): the payload names the shelf. -/
def State.shelfByOd (s : State) (src : Arrival) (payload : List Byte) (run : Nat → Nat → Nat → State → Nat × State) : Reply × State :=
  let op := ofLe (payload.take 1)
  let n := ofLe ((payload.drop 2).take 2)
  let version := ofLe ((payload.drop 4).take 4)
  let room := (s.shelf n).room
  let may := match s.classOf src with
    | some (.tenant p) => decide (room < 64) && s.owns p room
    | some .steward => decide (room < 64)
    | _ => false
  if payload.length ≠ 8 then (rNo stLength, s)
  else if payload.getD 1 0 ≠ 0 ∨ op = 0 ∨ 3 < op ∨ 4096 ≤ n then (rNo stRefused, s)
  else if !may then (rWhy stRefused 8, s)
  else
    match run op n version s with
    | (0, s) => (rOk, s)
    | (2, s) => (rWhy stBusy 2, s.refuseShelf n op version 2 .od)
    | (o, s) => (rWhy stRefused o, s.refuseShelf n op version o .od)

/- ## The unshelve (R219 to R221) -/

/-- An unshelve command (R219, R222): the outcome that refuses it, or the state in which it waits. -/
def State.startUnshelve (s : State) (n version : Nat) (from_ : ShelfFrom) : Nat × State :=
  let f := s.shelf n
  let v := if version = 0 then f.vers.head? else f.vers.find? fun v => v.version = version
  if f.job.isSome then (2, s)
  else match v with
    | none => (3, s)
    | some v =>
      if !s.rangesFit f.room f.ranges then (4, s)
      else if !s.roomOn f.room then (7, s)
      else (0, s.setShelf n { f with job := some ⟨2, v.version, from_, false, false, s.now, [], [], [], [], [], 0, 0, none⟩ })

/-- Unshelve stairs in use, of 64 (R219). -/
def State.unshelving (s : State) : Nat := Tbl.count s.shelves fun _ f => match f.job with
  | some j => decide (j.op = 2) && j.begun | none => false

/-- The unshelves that wait, in class order (R219), then in the order of their commands. -/
def State.unshelveQueue (s : State) : List Nat :=
  let l := s.shelves.filterMap fun e => e.2.job.bind fun j => if j.op = 2 ∧ !j.begun then some (e.1, e.2.cls, j.start) else none
  (sortBy (fun a b => decide (a.2.1 < b.2.1 ∨ (a.2.1 = b.2.1 ∧ a.2.2 < b.2.2))) l).map (·.1)

/-- A live page given up for a version's (R219 step 3): its copies, slots, dirty bytes and fetch go, its lines are recalled and
what they bring is discarded; a published version that shares it keeps it. -/
def State.dropLive (s : State) (k : Nat) : State :=
  let s := if s.isShared k then (s.splitPage k (homeSlice (pageNo k))).getD s else s
  let s := (s.dir.entries.filter fun e => linePage e.1 = k).foldl (fun s e => (s.recallPorts e.1 true (portsOf e.2.ports)).2) s
  let brought := s.dir.returned.filter fun r => linePage r.line = k
  let s := s.setDir { s.dir with returned := s.dir.returned.filter fun r => linePage r.line ≠ k }
  let s := brought.foldl (fun s x => x.of_.foldl (fun s gv => s.applyVersion false x gv) s) s
  let s := s.setTier { s.tier with fetches := s.tier.fetches.filter fun x => x.page ≠ k }
  s.freePage k

/-- The switch of an unshelve (R219 steps 3 to 5): every page of the ranges refers to the version's image, and the stair
starts. -/
def State.switchShelf (s : State) (n : Nat) (f : Shelf) (j : ShelfJob) (v : ShelfVer) : State :=
  let same (k : Nat) : Bool := v.pages.any fun e => decide (e.page = pageNo k) && decide ((s.page k).slot = some e.slot)
    && decide ((s.page k).mode = PageMode.clean ∨ (s.page k).mode = PageMode.cellar) && !s.inLanding k
  let s0 := s
  -- A page that is NEW and is in the version changes too, so that the lines of it that ports hold are recalled.
  let news := (v.pages.map fun e => pageKey f.room e.page).filter fun k => decide ((s.page k).mode = PageMode.new)
  let s := (s.rangePages f ++ news).foldl (fun s k => if same k then s else s.dropLive k) s
  let put (s : State) (e : ManPage) : State :=
    let k := pageKey f.room e.page
    if (s0.page k).slot = some e.slot ∧ same k then s
    else match s.image e.slot with
      | some i => s.setPage k { (s.page k).freed with mode := .cellar, slot := some e.slot, gen := i.gen, groupSeq := i.groupSeq, behind := true }
      | none => s
  let s := (v.pages.foldl put s).settleOverdraft f.room
  let used := s.recorders - bit01 f.recording
  let s := s.setShelf n { s.shelf n with
    order := [], recording := decide (used < 256),
    job := some { j with begun := true, start := stampOf s.time.course 0, todo := v.pages.map (·.page) } }
  let s := (s.setStair (256 + n) { Stair.init with k := 2 }).issueAhead (256 + n)
  v.pages.foldl (fun s e => if (s.page (pageKey f.room e.page)).inStore then s.verifyPage (pageKey f.room e.page) false else s) s

/-- At the boundary where an unshelve stair is free for it, an unshelve switches. -/
def execUnshelveSwitch (shelf : BitVec 12) (s : State) : Host.Outcome State Fault Refusal :=
  let n := shelf.toNat
  let f := s.shelf n
  match f.job with
  | none => .next s
  | some j =>
    match f.vers.find? fun v => v.version = j.version with
    | none => .next s
    | some v =>
      let first := (s.unshelveQueue.take (64 - s.unshelving)).contains n
      .next (if j.op = 2 ∧ !j.begun ∧ boundaryAfter j.start ≤ s.now ∧ first then (s.switchShelf n f j v).retryAll else s)

/-- The stair of an unshelve removed. -/
def State.endStair (s : State) (n : Nat) : State :=
  s.setStairs (Tbl.del s.stairs (256 + n))

/-- Every page of an unshelve is verified (R219 step 6, R221): its digest is computed and compared, the outcome reported. -/
def execUnshelveEnd (shelf : BitVec 12) (s : State) : Host.Outcome State Fault Refusal :=
  let n := shelf.toNat
  let f := s.shelf n
  match f.job with
  | none => .next s
  | some j =>
    match f.vers.find? fun v => v.version = j.version with
    | none => .next s
    | some v =>
      if j.op ≠ 2 ∨ !j.begun ∨ !j.todo.isEmpty then .next s
      else
        let seen (e : ManPage) : ManPage := (j.found.find? fun x => x.page = e.page).getD e
        let d := digestOf (v.pages.map seen)
        let s := s.endStair n
        if d = v.digest then .next (s.endJob n 0 v.pages.length (some d))
        else
          let first := ((v.pages.find? fun e => seen e ≠ e).map (·.page)).getD 0
          let s := s.raise { code := 0x3805, sev := 2, unit := srcRoom f.room,
                             args := leBytes 2 n ++ leBytes 4 v.version ++ leBytes 5 first }
          .next (s.endJob n 1 v.pages.length (some d))

/-- SHELF_VOID (R227). -/
def shelfVoid (n version op cause room : Nat) (replayed : Bool) : Ev :=
  { code := 0x3804, sev := 2, unit := srcRoom room, replayed := replayed,
    args := leBytes 2 n ++ leBytes 4 version ++ leBytes 1 op ++ leBytes 1 cause }

/-- An unshelve whose room leaves On ends void with its stair; its switch stands (R224). -/
def State.voidUnshelve (s : State) (room : Nat) : State :=
  s.shelves.foldl (fun s e =>
    match (s.shelf e.1).job with
    | some j =>
      if j.op = 2 ∧ (s.shelf e.1).room = room then
        let s := (s.endStair e.1).raise (shelfVoid e.1 j.version 2 7 room false)
        s.endJob e.1 7 ((s.shelf e.1).pagesOf j.version) none
      else s
    | none => s) s

/-- What a shelve that does not commit has taken is given up (R225): references on images and kept runs. -/
def State.abandonShelve (s : State) (n : Nat) : State :=
  match (s.shelf n).job with
  | none => s
  | some j =>
    let s := s.dropKept (j.marked.map (·.page))
    j.pages.foldl (fun s p => s.unrefImage p.slot) (s.updJob n fun j => { j with marked := [], pages := [] })

/- ## Releases (R213) -/

/-- A DELTA brick is stored that names a brick of a shelf's version at a page as its base. -/
def State.namesBase (s : State) (room n version page : Nat) : Bool :=
  let names (l : Laid) : Bool := decide (l.base = some (n, version))
  s.pages.any (fun e => decide (pageRoom e.1 = room) && decide (pageNo e.1 = page) && (e.2.bricks ++ (e.2.snapshot.map (·.bricks)).getD []).any names)
    || s.cellar.images.any fun e => decide (pageRoom e.2.page = room) && decide (pageNo e.2.page = page) && e.2.bricks.any names
    || s.shelves.any fun e => decide (e.2.room = room) && match e.2.job with
      | some j => j.marked.any fun m => decide (pageNo m.page = page) && m.bricks.any names
      | none => false

/-- A version released (R213): its manifest goes, and every image that it alone refers to, but those whose bricks a stored DELTA
brick names. Answers how many images were freed. -/
def State.releaseShelf (s : State) (n : Nat) (v : ShelfVer) : Nat × State :=
  let f := s.shelf n
  let keep := v.pages.filter fun p => s.namesBase f.room n v.version p.page
  let go := v.pages.filter fun p => !keep.contains p
  let before := s.cellar.images.length
  let bases := if keep.isEmpty then f.bases else { v with pages := keep } :: f.bases
  let s := s.setShelf n { f with vers := f.vers.filter fun x => x.version ≠ v.version, bases := bases }
  let s := (go.foldl (fun s p => s.unrefImage p.slot) s).settleOverdraft f.room
  (before - s.cellar.images.length, s)

/-- Bases that no DELTA brick names any more are freed (R213), judged at a boundary. -/
def State.settleBases (s : State) : State :=
  (s.shelves.filter fun e => !e.2.bases.isEmpty).foldl (fun s e =>
    let f := s.shelf e.1
    let room (p : ManPage) : Nat := ((s.image p.slot).map fun i => pageRoom i.page).getD f.room
    let named (v : ShelfVer) (p : ManPage) : Bool := s.namesBase (room p) e.1 v.version p.page
    let go := f.bases.flatMap fun v => v.pages.filter fun p => !named v p
    let left := (f.bases.map fun v => { v with pages := v.pages.filter (named v) }).filter fun v => !v.pages.isEmpty
    let rooms := go.map room
    rooms.foldl (fun s r => s.settleOverdraft r)
      (go.foldl (fun s p => s.unrefImage p.slot) (s.setShelf e.1 { f with bases := left }))) s

/-- A release command (R213): the outcome that refuses it, or the state after it. -/
def State.startRelease (s : State) (n version : Nat) (from_ : ShelfFrom) : Nat × State :=
  let f := s.shelf n
  if f.job.isSome then (2, s)
  else match f.vers.find? fun v => v.version = version with
    | none => (3, s)
    | some v =>
      let (freed, s) := s.releaseShelf n v
      let r := shelfResult n 3 0 version (s.shown s.now) (s.shown s.now) v.pages.length 0 0
      let s := s.updShelf n fun f => { f with result := r }
      let s := s.raise { code := 0x3803, sev := 0, unit := srcRoom f.room,
                         args := leBytes 2 n ++ leBytes 4 version ++ leBytes 4 freed }
      (0, match from_ with | .call id _ _ => s.endShelfCall id r none | .od => s)

/-- A shelf discarded with its versions, as ROOM_ERASE does (R209). -/
def State.dropShelf (s : State) (n : Nat) : State :=
  let f := s.shelf n
  let s := (s.abandonShelve n).endStair n
  let s := match f.job with
    | some j => (match j.src with | .call id _ _ => s.endShelfCall id (shelfResult n j.op 7 j.version 0 0 0 0 0) none | .od => s)
    | none => s
  let other (p : ManPage) : Bool := match s.image p.slot with | some i => decide (pageRoom i.page ≠ f.room) | none => false
  let kept := (f.bases.map fun v => { v with pages := v.pages.filter other }).filter fun v => !v.pages.isEmpty
  let all := ((f.vers ++ f.bases).flatMap (·.pages)).filter fun p => !other p
  all.foldl (fun s p => s.unrefImage p.slot)
    (if kept.isEmpty then s.setShelves (Tbl.del s.shelves n) else s.setShelf n { Shelf.init with bases := kept })

/- ## Commands (R222) -/

/-- A shelf command's operation run. -/
def State.shelfOp (s : State) (op n version : Nat) (from_ : ShelfFrom) : Nat × State :=
  match op with
  | 1 => s.startShelve n from_
  | 2 => s.startUnshelve n version from_
  | _ => s.startRelease n version from_

/-- SHELF_COMMAND (R222). -/
def actShelfCommand (src : Arrival) (payload : List Byte) : Act := fun s =>
  s.shelfByOd src payload fun op n version s => s.shelfOp op n version .od

/-- A write to SHELF_COMMAND as a command: it does what its operation byte says. -/
def State.shelfCommand (s : State) (rq : Rq) (payload : List Byte) : State :=
  s.odWrite rq .shelfCommand 0 0 payload noCalls (actShelfCommand rq.src payload)

/-- SHELVE: a SHELF_COMMAND write whose operation is 1. -/
def execShelve (rq : Rq) (payload : List Byte) (s : State) : Host.Outcome State Fault Refusal :=
  .next (s.shelfCommand rq payload)

/-- UNSHELVE: a SHELF_COMMAND write whose operation is 2. -/
def execUnshelve (rq : Rq) (payload : List Byte) (s : State) : Host.Outcome State Fault Refusal :=
  .next (s.shelfCommand rq payload)

/-- SHELF_RELEASE: a SHELF_COMMAND write whose operation is 3. -/
def execShelfRelease (rq : Rq) (payload : List Byte) (s : State) : Host.Outcome State Fault Refusal :=
  .next (s.shelfCommand rq payload)

/- ## Calls (R93, R222, R263, R269) -/

/-- A call that is handed to a shelf (R222): accepted as a call, it runs its command or ends at once with its outcome. -/
def State.callShelf (s : State) (port tag room line h : Nat) (cls : Nat) (args : List Byte) : State :=
  let op := h - 0xFFFFFF00
  let n := ofLe ((args.drop 2).take 2)
  let version := ofLe ((args.drop 4).take 4)
  let c : Call := ⟨0, h, room, line, cls, 0, 0, args, s.now, none, .ready, 0, 0, false, false, 0, [0, 0, 0, 0], [], none, none⟩
  let (id, s) := s.acceptCall port tag c
  let from_ := ShelfFrom.call id room line
  let bad := decide (ofLe (args.take 1) ≠ op) || decide (args.getD 1 0 ≠ 0) || !(args.drop 8).all (· = 0) || decide (4096 ≤ n)
    || decide ((s.shelf n).room ≠ room)
  if bad then s.refuseShelf n op version 8 from_
  else match s.shelfOp op n version from_ with
    | (0, s) => s
    | (o, s) => s.refuseShelf n op version o from_

/-- A Call arrives (R93, R263, R269): DENIED, BUSY, or acknowledged with its CALL_ID. In Quiet it is BUSY and starts the exit
(R37); in Brace nothing is admitted. Its fields in W1 are those of R84. -/
def execCall (port : Fin 32) (tag : BitVec 12) (room : Fin 64) (line : BitVec 40) (w1 : Word) (args : List Byte) (s : State) :
    Host.Outcome State Fault Refusal :=
  match s.turned 0x10 port tag.toNat room line.toNat with
  | some s => .next s
  | none =>
    let w := w1.toNat
    let h := bitsOf w 63 32
    let cores := bitsOf w 31 26
    let budget := bitsOf w 25 10
    let slots := bitsOf w 9 5
    let cls := match s.windowAt room (line.toNat * 64) with | some x => attrClass (s.attr room x) | none => 7
    let deny := s.respond port tag.toNat 4 none 0
    let busy := s.respond port tag.toNat 7 none 0
    let shelf := decide (0xFFFFFF01 ≤ h) && decide (h ≤ 0xFFFFFF03)
    if s.power.mode = .brace ∨ s.power.mode = .flush then .next s
    else if s.quieted ∨ s.power.exitAt.isSome then .next (busy.startExit).2
    else if slots = 0 ∨ 16 < slots ∨ args.length ≠ 16 * slots ∨ (32 < cores ∧ !shelf) ∨ w % 32 ≠ 0 then .next deny
    else if shelf && (decide (slots ≠ 1) || (s.windowAt room ((line.toNat + 1) * 64)).isNone) then .next deny
    else match (if shelf then none else s.progFor h room) with
      | none =>
        if !shelf then .next deny
        else if s.power.quiet ≠ .none ∨ 1024 ≤ s.callsOpen then .next busy
        else .next (s.callShelf port tag.toNat room line.toNat h cls args)
      | some p =>
        if s.power.quiet ≠ .none ∨ 1024 ≤ s.callsOpen then .next busy
        else
          let c : Call := ⟨0, h, room, line.toNat, cls, if cores = 0 then 32 else cores, if budget = 0 then 65536 else budget,
            args, s.now, some p.serial, .ready, 0, 0, false, false, 0, [0, 0, 0, 0], [], none, none⟩
          .next (s.acceptCall port tag.toNat c).2

end Sys2Proof.Machine
end

