-- ==== Sys2Proof/Machine/Rooms.lean ====
section
/-!
DEFINITION. Sys2Proof/Machine/Rooms.lean: the deliverable budget and the regulator (R119 to R126), the staging copy and its
commit (R117, R118), Store quotas in force (R116), and ROOM_ERASE (R108).
-/

namespace Sys2Proof.Machine

/- ## The budget (R119, R120) -/

/-- A rank counts for the budget: in service or standing spare. -/
def State.rankCounts (s : State) (ch r : Nat) : Bool :=
  let m := s.rankMode (ch / 32) (2 * (ch % 32) + r)
  decide (m = RankMode.inService) || decide (m = RankMode.spare)

/-- The weight of a channel in quarters: 4 with both ranks, 3 with one, 0 with none. -/
def State.channelWeight (s : State) (ch : Nat) : Nat :=
  match s.rankCounts ch 0, s.rankCounts ch 1 with
  | true, true => 4
  | false, false => 0
  | _, _ => 3

/-- A package stands above 85 °C. -/
def State.packageHot (s : State) (pkg : Nat) : Bool := decide (850 < s.packageTemp pkg)

/-- Migrations to a spare and copies of a dead slot under way (R119). -/
def State.migrating (s : State) : Nat := s.store.migrations.length

/-- A sum over the numbers below `n`. -/
def sumTo (n : Nat) (f : Nat → Nat) : Nat := (upTo n).foldl (fun a i => a + f i) 0

/-- The store term of R119, for given regions throttled: each channel's part in units of 1/10,880,000 of a byte. -/
def State.storeTerm (s : State) (throttled : List Nat) : Nat :=
  let part (ch : Nat) : Nat :=
    let w := s.channelWeight ch * (if throttled.contains (ch / 32) then 1 else 2)
    4 * rateOf s.store.budgetPoint * w * (if s.packageHot (ch / 4) then 92 else 96) * 32 * 80
  let sum := sumTo 128 part / (8 * 100 * 34 * 100)
  sum - (50000 + 4000 * s.migrating)

/-- The link term of one port (R119). -/
def State.linkTerm (s : State) (p : Nat) : Nat :=
  if s.isUp p ∧ (s.roleOf p = .host ∨ s.roleOf p = .companion) then 196000 * (s.port p).width * 256 / (4 * 272) else 0

/-- The link term of the module. -/
def State.linkSum (s : State) : Nat := sumTo 32 s.linkTerm

/-- A room's port budget (R120). -/
def State.portBudget (s : State) (owners : Nat) : Nat := sumTo 32 fun p => if bitOf owners p then s.linkTerm p else 0

/-- The Cellar admission limit at a percentage (R119). -/
def State.cellarLimitAt (s : State) (percent : Nat) : Nat := 230000 * s.channelsIn * percent / 3200

/-- The admission limit at a percentage (R119). -/
def admitAt (d percent : Nat) : Nat := d * percent / 100

/-- Regions throttled under R27. -/
def State.throttledRegions (s : State) : List Nat := (upTo 4).filter s.throttled

/-- What the budget and the port budgets depend on, in the order of the causes of R131; each falls where the budget may. -/
def State.budgetInputs (s : State) (cellar : Nat) : List (List Nat) :=
  [(upTo 128).map s.channelWeight ++ [1000 - s.migrating], [rateOf s.store.budgetPoint], (upTo 32).map s.linkTerm,
    [2 ^ 40 - s.power.cut.getD 0], (upTo 4).map fun r => bit01 (!s.throttledRegions.contains r), [cellar],
    (upTo 32).map fun g => bit01 (!s.packageHot g)]

/-- The cause that a change of the inputs is reported with (R126, R131): the first of which one fell, else the first of which one rose. -/
def budgetCause (old new : List (List Nat)) : Nat :=
  let ix (p : Nat → Nat → Bool) : Option Nat :=
    (upTo 7).find? fun i => ((old.getD i []).zip (new.getD i [])).any fun e => p e.1 e.2
  match ix (fun a b => decide (b < a)), ix (fun a b => decide (a < b)) with
  | some i, _ => i + 1
  | none, some i => i + 1
  | none, none => 4

/- ## Floors and derating (R125, R126) -/

/-- A configured floor of a (room, class) pair. -/
structure Floor where
  room : Nat
  cls : Nat
  bytes : Nat
  deriving DecidableEq, Repr

/-- The configured floors that are not zero, by room and class. -/
def State.floors (s : State) : List Floor :=
  (upTo 64).flatMap fun k => (upTo 8).filterMap fun c =>
    let f := s.val .classFloor k c
    if f = 0 then none else some ⟨k, c, f⟩

/-- The bytes of some floors. -/
def floorSum (l : List Floor) : Nat := (l.map (·.bytes)).sum

/-- The floors of R125 derated to a limit, class by class from C7 down. -/
def derateFrom (l : List Floor) : Nat → Nat → List Floor
  | 0, _ => []
  | c + 1, excess =>
    let mine := l.filter fun f => f.cls = c
    let sum := floorSum mine
    if excess = 0 then mine ++ derateFrom l c 0
    else if sum ≤ excess then mine.map (fun f => { f with bytes := 0 }) ++ derateFrom l c (excess - sum)
    else mine.map (fun f => { f with bytes := f.bytes * (sum - excess) / sum }) ++ derateFrom l c 0

/-- The effective floors of some pairs under a limit. -/
def derate (l : List Floor) (limit : Nat) : List Floor := derateFrom l 8 (floorSum l - limit)

/-- A pair's floor in a list. -/
def floorIn (l : List Floor) (k c d : Nat) : Nat := ((l.find? fun f => decide (f.room = k) && decide (f.cls = c)).map (·.bytes)).getD d

/-- A pair that stands for Cellar-only windows (R118, R119). -/
def State.cellarOnlyPair (s : State) (k c : Nat) : Bool :=
  (upTo 16).any fun w => decide (s.val .windowSize k w ≠ 0) && decide (attrClass (s.attr k w) = c)
    && decide (attrPlacement (s.attr k w) = 3)

/-- Every pair's effective floor, and whether the Cellar limit set it: the lowest of the runs of R125. -/
def State.effectiveFloors (s : State) : List (Floor × Nat × Bool) :=
  let l := s.floors
  let all := derate l s.adm.limit
  let rooms := (upTo 64).flatMap fun k =>
    let mine := l.filter fun f => f.room = k
    if mine.isEmpty then [] else derate mine (s.portBudget (s.owners k))
  let cel := derate (l.filter fun f => s.cellarOnlyPair f.room f.cls) s.adm.cellarLimit
  l.map fun f =>
    let a := min (floorIn all f.room f.cls f.bytes) (floorIn rooms f.room f.cls f.bytes)
    let b := floorIn cel f.room f.cls f.bytes
    (f, min a b, decide (b < a))

/-- GUARANTEE_MISS (R124): counted, and written at most once per pair per 64 courses. -/
def State.missSaid (s : State) (k c kind served : Nat) : State :=
  let p := s.pair k c
  let p := { p with misses := p.misses + 1, missSince := p.missSince + 1 }
  if s.quiet64 p.missAt then
    (s.setPair k c { p with missSince := 0, missAt := some s.now }).raise
      { code := 0x4801, sev := 2, unit := srcRoom k, room := some k,
        args := leBytes 1 c ++ leBytes 1 kind ++ leBytes 4 served ++ leBytes 4 p.missSince }
  else s.setPair k c p

/-- One pair's effective floor put in force, with what R126 says of a change where it is to be announced. -/
def State.putFloor (s : State) (cause : Nat) (announce : Nat → Nat → Bool) (x : Floor × Nat × Bool) : State :=
  let (f, eff, byCellar) := x
  let p := s.pair f.room f.cls
  let old := p.effFloor
  let s := s.setPair f.room f.cls { p with effFloor := eff }
  if !announce f.room f.cls then s
  else if eff < old then
    let why := if byCellar then 6 else cause
    let s := s.raise { code := 0x4802, sev := 2, unit := srcRoom f.room, room := some f.room,
                       args := leBytes 1 f.cls ++ leBytes 1 why ++ leBytes 4 f.bytes ++ leBytes 4 eff }
    s.missSaid f.room f.cls 2 p.last
  else if old < eff then
    s.raise { code := 0x4803, sev := 1, unit := srcRoom f.room,
              args := leBytes 1 f.cls ++ leBytes 4 f.bytes ++ leBytes 4 eff }
  else s

/-- Effective floors settled (R125, R126), C0 first; a pair whose floor is no longer configured has none. -/
def State.settleFloors (s : State) (cause : Nat) (announce : Nat → Nat → Bool) : State :=
  let l := s.effectiveFloors
  let clear (i : Nat) (p : Pair) : Pair := if l.any fun x => decide (8 * x.1.room + x.1.cls = i) then p else { p with effFloor := 0 }
  let s := s.setAdm { s.adm with pairs := Tbl.each s.adm.pairs clear }
  (sortBy (fun a b => decide (a.1.cls < b.1.cls)) l).foldl (fun s x => s.putFloor cause announce x) s

/-- The budget recomputed at a boundary (R119, R125, R126): BUDGET_CHANGE when d changes, and the floors settled when an input
has. -/
def State.settleBudget (s : State) : State :=
  let percent := s.val .admitPercent 0 0
  let store := s.storeTerm s.throttledRegions
  let link := s.linkSum
  let d := min store link - s.power.cut.getD 0
  let cellar := s.cellarLimitAt percent
  let inputs := s.budgetInputs cellar
  let old := s.adm
  let cause := budgetCause old.inputs inputs
  let s := s.setAdm { old with store := store, link := link, cellarLimit := cellar, d := d, limit := admitAt d percent,
                               inputs := inputs }
  let s := if d = old.d then s
    else s.raise { code := 0x4804, sev := 1, unit := srcAdmission, args := leBytes 4 old.d ++ leBytes 4 d ++ leBytes 1 cause }
  if inputs = old.inputs then s else s.settleFloors cause fun _ _ => true

/- ## The regulator (R121 to R124) -/

/-- The past course of a pair judged (R123), and its counts begun again. -/
def State.closePair (s : State) (k c : Nat) : State :=
  let p := s.pair k c
  let demand := p.admitted + p.queued
  let floorMiss := decide (demand ≠ 0) && decide (p.effFloor ≤ demand) && decide (p.served < p.effFloor)
  let lateMiss := decide (demand ≠ 0) && decide (max 1 (p.reads / 256) < p.late)
  let s := if floorMiss then s.missSaid k c 0 p.served else s
  let s := if lateMiss then s.missSaid k c 1 p.served else s
  s.updPair k c fun p => { p with last := p.served, served := 0, reads := 0, late := 0 }

/-- Bytes queued for a pair (R121, R122): the requests that wait for its share. -/
def State.queuedFor (s : State) (k c : Nat) : Nat :=
  64 * (s.reqs.opened.filter fun r => decide (r.why = Wait.share) && decide (r.room = k)
    && decide (s.pageClass (linePage (lineKey r.room r.line)) = c)).length

/-- What is left over in a class shared pro rata to demand (R121 step 2): the pairs with what each still wants, and their
parts. -/
def proRata (left : Nat) (wants : List (Nat × Nat)) : List (Nat × Nat) :=
  let sum := (wants.map (·.2)).sum
  wants.map fun w => (w.1, if sum ≤ left then w.2 else left * w.2 / sum)

/-- The shares of R121 beyond the floors, class by class; `l` holds key, demand within the ceiling, and share so far. -/
def divide (l : List (Nat × Nat × Nat)) : Nat → Nat → List (Nat × Nat × Nat)
  | 0, _ => l
  | n + 1, left =>
    let c := 7 - n
    let extra := proRata left ((l.filter fun x => x.1 % 8 = c).map fun x => (x.1, x.2.1 - x.2.2))
    let add (k : Nat) : Nat := ((extra.find? fun e => e.1 = k).map (·.2)).getD 0
    let l' := l.map fun x => (x.1, x.2.1, x.2.2 + add x.1)
    divide l' n (left - (extra.map (·.2)).sum)

/-- The past course of every pair judged (R123). -/
def State.closePairs (s : State) : State := s.adm.pairs.foldl (fun s e => s.closePair (e.1 / 8) (e.1 % 8)) s

/-- Every pair's counts begun for the course, and the demand that its division uses: the bytes queued now and those admitted in the course just
ended (R121). -/
def State.openPairs (s : State) : State :=
  s.setAdm { s.adm with pairs := Tbl.each s.adm.pairs fun i p =>
    let queued := s.queuedFor (i / 8) (i % 8)
    { p with want := p.admitted + queued, used := 0, admitted := 0, queued := queued } }

/-- The shares of R121: floors given, the rest by class; the remainder left for first come, less what pairs have taken of it. -/
def State.shareOut (s : State) : State :=
  let ceil (i : Nat) : Nat := let v := s.val .classCeiling (i / 8) (i % 8); if v = 0xFFFFFFFF then 2 ^ 62 else v
  let l := s.adm.pairs.map fun e =>
    let want := min (ceil e.1) e.2.want
    (e.1, want, min want e.2.effFloor)
  let got := (l.map fun x => x.2.2).sum
  let l := divide l 8 (s.adm.d - got)
  let share (i : Nat) : Nat := ((l.find? fun x => x.1 = i).map fun x => x.2.2).getD 0
  let pairs := Tbl.each s.adm.pairs fun i p => { p with share := share i }
  let kept := Tbl.total pairs fun _ p => max (p.share + (p.effFloor - p.share)) p.used
  s.setAdm { s.adm with pairs := pairs, remainder := s.adm.d - kept }

/-- The division of a course (R121). -/
def State.regulate (s : State) : State := s.openPairs.shareOut

/- ## Store quotas in force (R42, R116) -/

/-- Dead slots of the Store. -/
def State.deadSlots (s : State) : Nat := sumTo 4 fun r => ((upTo 62).filter fun i => s.slotRank r i = 254).length

/-- The Store user capacity in service (R42). -/
def State.storeCapacity (s : State) : Nat := 1700000000000 - 7500000000 * s.deadSlots

/-- Effective Store quotas settled (R116): scaled when they do not fit, QUOTA_DERATE for each that changes; `was` is the state with the quotas
configured before. DESIGN CHOICE: a commit's change from one quota that is not scaled to another is no derate and writes none. -/
def State.settleQuotas (s was : State) : State :=
  let sum := sumTo 64 fun r => s.val .roomStoreQuota r 0
  let cap := s.storeCapacity
  (upTo 64).foldl (fun s r =>
    let q := s.val .roomStoreQuota r 0
    let eff := if sum ≤ cap then q else q * cap / sum / 4096 * 4096
    let x := s.room r
    if x.effStore = eff then s
    else
      let s := s.setRoom r { x with effStore := eff }
      if q = 0 ∨ (eff = q ∧ x.effStore = was.val .roomStoreQuota r 0) then s
      else s.raise { code := 0x4013, sev := 2, unit := srcRoom r, args := leBytes 8 eff }) s

/- ## The staging copy (R117, R118) -/

/-- A staged write (R117): BUSY while a commit is PENDING; a value the entry can never take is refused. -/
def actStage (e : Ent) (i j : Nat) (payload : List Byte) : Act := fun s =>
  let v := ofLe payload
  let bad := match e with
    | .roomSize => decide (v % 4096 ≠ 0)
    | .roomLoftQuota => decide (v % 4096 ≠ 0)
    | .roomStoreQuota => decide (v % 4096 ≠ 0)
    | .roomCellarQuota => decide (v % 4096 ≠ 0)
    | .overdraftReserve => decide (v % 4096 ≠ 0)
    | .windowAttr => decide (bitsOf v 31 29 ≠ 0) || decide (bitsOf v 14 0 ≠ 0)
    | .windowTables => decide (s.val .roomTableMode i 0 = 1)
    | _ => false
  if s.adm.commitAt.isSome then (rNo stBusy, s)
  else if bad then (rNo stRefused, s)
  else (rOk, s.setAdm { s.adm with staging := Tbl.put s.adm.staging (e.row.key i j) v })

/-- The values in force once the staging copy is. -/
def State.staged (s : State) : State :=
  s.setOd { s.od with vals := s.adm.staging.foldl (fun t e => Tbl.put t e.1 e.2) s.od.vals }

/-- What a failed check reports: status, room, class, window, 255 where a field does not apply. -/
abbrev Failure := Nat × Nat × Nat × Nat

/-- The windows of a room in use. -/
def State.windows (s : State) (k : Nat) : List Nat := (upTo 16).filter fun w => decide (s.val .windowSize k w ≠ 0)

/-- A window's range. -/
def State.windowRange (s : State) (k w : Nat) : Nat × Nat := (s.val .windowBase k w, s.val .windowSize k w)

/-- Check 2 of R118 on a room: overlap and alignment. -/
def State.check2 (s : State) (k : Nat) : Option Failure :=
  ((s.windows k).find? fun w =>
    let r := s.windowRange k w
    decide (r.1 % 4096 ≠ 0) || decide (r.2 % 4096 ≠ 0)
      || (s.windows k).any fun v => decide (v < w) && rangesMeet r (s.windowRange k v)).map fun w => (2, k, 255, w)

/-- Check 3: windows within the room, the room within 64 TB, powers of ten (R8). -/
def State.check3 (s : State) (k : Nat) : Option Failure :=
  if 64000000000000 < s.val .roomSize k 0 then some (3, k, 255, 255)
  else ((s.windows k).find? fun w => s.val .roomSize k 0 < (s.windowRange k w).1 + (s.windowRange k w).2).map
    fun w => (3, k, 255, w)

/-- A role that may own rooms. -/
def ownerRole (r : Nat) : Bool := r = 1 || r = 2

/-- The code of a port role (R104). -/
def roleCode : PortRole → Nat
  | .off => 0 | .companion => 1 | .host => 2 | .peer => 3

/-- The role of a port as PORT_ROLE or the straps have it (R74). -/
def State.wantedRole (s : State) (p : Nat) : PortRole :=
  if s.written .portRole p 0 then
    match s.val .portRole p 0 with | 0 => .off | 1 => .companion | 2 => .host | _ => .peer
  else
    let hosts := match s.board.straps with | 0 => 24 | 1 => 32 | 2 => 16 | _ => 2
    if p < 2 then .companion else if p < hosts then .host else if s.board.straps = 3 then .off else .peer

/-- Check 4: owner ports, by the role in force and the role written. -/
def State.check4 (s : State) (k : Nat) : Option Failure :=
  if (portsOf (s.owners k)).all fun p => ownerRole (roleCode (s.roleOf p)) && ownerRole (roleCode (s.wantedRole p)) then none
  else some (4, k, 255, 255)

/-- Check 5: what R111 and R201 lock while a room is not Off; `old` is the state in force. -/
def State.check5 (s old : State) (k : Nat) : Option Failure :=
  let off := if h : k < 64 then decide ((old.fn (.room ⟨k, h⟩)).state = Fn.off) else true
  if off then none
  else if s.val .roomTableMode k 0 ≠ old.val .roomTableMode k 0 then some (5, k, 255, 255)
  else ((old.windows k).find? fun w =>
    let a := old.windowRange k w
    let b := s.windowRange k w
    let locked (v : Nat) : Bool × Bool × Bool × Bool := (attrDurable v, attrSealed v, attrPublisher v, attrVolFlush v)
    decide (a.1 < b.1) || decide (b.1 + b.2 < a.1 + a.2) || decide (locked (s.attr k w) ≠ locked (old.attr k w))).map
      fun w => (5, k, 255, w)

/-- Check 6: ceilings and latency targets. -/
def State.check6 (s : State) (k : Nat) : Option Failure :=
  ((upTo 8).find? fun c =>
    let t := s.val .classLatencyTarget k c
    decide (s.val .classCeiling k c < s.val .classFloor k c) || (decide (1 ≤ t) && decide (t ≤ 99))).map fun c => (6, k, c, 255)

/-- Check 7: a class with a floor mixes Cellar-only windows with others; the first window of the class is named. -/
def State.check7 (s : State) (k : Nat) : Option Failure :=
  let ofClass (c : Nat) : List Nat := (s.windows k).filter fun w => attrClass (s.attr k w) = c
  let cellar (w : Nat) : Bool := attrPlacement (s.attr k w) = 3
  ((upTo 8).find? fun c => decide (s.val .classFloor k c ≠ 0) && (ofClass c).any cellar && !(ofClass c).all cellar).map
    fun c => (7, k, c, (ofClass c).headD 255)

/-- A check over every room: the first failure. -/
def eachRoom (f : Nat → Option Failure) : Option Failure := (upTo 64).findSome? f

/-- All checks of R118 in order, on the state with the staging copy in force; none when they pass. -/
def State.commitCheck (old : State) : Option Failure :=
  let s := old.staged
  let sum (e : Ent) : Nat := sumTo 64 fun k => s.val e k 0
  let floors := s.floors
  let percent := s.val .admitPercent 0 0
  let whole (n : Nat) (bad : Bool) : Option Failure := if bad then some (n, 255, 255, 255) else none
  let ports (k : Nat) : Option Failure :=
    if s.portBudget (s.owners k) < floorSum (floors.filter fun f => f.room = k) then some (11, k, 255, 255) else none
  let cellar := floorSum (floors.filter fun f => s.cellarOnlyPair f.room f.cls)
  [eachRoom s.check2, eachRoom s.check3, eachRoom s.check4, eachRoom (s.check5 old), eachRoom s.check6, eachRoom s.check7,
   whole 8 (s.hotCapacity < sum .roomLoftQuota), whole 9 (s.storeCapacity < sum .roomStoreQuota),
   whole 10 (52000000000000 < sum .roomCellarQuota + s.val .overdraftReserve 0 0), eachRoom ports,
   whole 12 (s.cellarLimitAt percent < cellar), whole 13 (admitAt s.adm.d percent < floorSum floors)].findSome? id

/-- The rooms that the staging copy changes, a bit each: those whose entries it holds (R131). -/
def State.stagedRooms (s : State) : Nat :=
  ((upTo 64).filter fun k => s.adm.staging.any fun e =>
    let ix := e.1 / 256
    decide (ix / 4096 = 4 ∧ (if ix < 0x4400 then ix % 4096 / 16 = k else ix < 0x4840 ∧ ix % 256 = k))).foldl
      (fun m k => m + 2 ^ k) 0

/-- CONFIG_COMMIT (R47, R117): PENDING until its boundary. -/
def actCommit (v : Nat) : Act := fun s =>
  if v ≠ 1 then (rNo stRefused, s)
  else if s.adm.commitAt.isSome then (rNo stBusy, s)
  else
    let n := if s.time.pos ≤ 3968 then s.time.course + 1 else s.time.course + 2
    (rOk, s.setAdm { s.adm with commitAt := some (n * 4096), status := 1 })

/-- CONFIG_COMMIT as a command. -/
def execConfigCommit (rq : Rq) (payload : List Byte) (s : State) : Host.Outcome State Fault Refusal :=
  .next (s.odWrite rq .configCommit 0 0 payload noCalls (actCommit (ofLe payload)))

/-- CONFIG_DISCARD (R117). -/
def actDiscard (v : Nat) : Act := fun s =>
  if v ≠ 1 then (rNo stRefused, s)
  else if s.adm.commitAt.isSome then (rNo stBusy, s)
  else (rOk, s.setAdm { s.adm with staging := [] })

/-- CONFIG_DISCARD as a command. -/
def execConfigDiscard (rq : Rq) (payload : List Byte) (s : State) : Host.Outcome State Fault Refusal :=
  .next (s.odWrite rq .configDiscard 0 0 payload noCalls (actDiscard (ofLe payload)))

/-- The pages of a room that lay in a window's old range and lie outside its new one (R111). -/
def State.leftOut (old s : State) (k w : Nat) : List Nat :=
  let a := old.windowRange k w
  let b := s.windowRange k w
  let inside (r : Nat × Nat) (n : Nat) : Bool := decide (r.1 ≤ 4096 * n) && decide (4096 * n < r.1 + r.2)
  (old.pages.filter fun e => decide (e.1 < 2 ^ 40) && decide (pageRoom e.1 = k) && inside a (pageNo e.1)
    && !inside b (pageNo e.1)).map (·.1)

/-- The pages of a window made Loft-pinned that are in the Store already: they are queued for promotion (R144). -/
def State.pinWindow (s : State) (k w : Nat) : State :=
  let l := (s.pages.filter fun e => decide (e.1 < 2 ^ 40) && decide (pageRoom e.1 = k) && decide (s.windowOf e.1 = some w) && e.2.inStore
    && e.2.loft.isNone && !s.tier.promo.contains e.1).map (·.1)
  s.setTier { s.tier with promo := s.tier.promo ++ l }

/-- A commit's change in force, with what follows for windows: pages left out discarded (R111), those of a window made Loft-pinned promoted (R144), views of changed windows unbound
(R246), the samples of windows created or removed begun again (R203). -/
def State.applyWindows (s old : State) (k w : Nat) : State :=
  let a := old.windowRange k w
  let b := s.windowRange k w
  let s := if attrPlacement (s.attr k w) = 1 ∧ attrPlacement (old.attr k w) ≠ 1 then s.pinWindow k w else s
  if a = b then s
  else
    let s := (old.leftOut s k w).foldl (fun s p => s.dropLive p) s
    let s := s.unbindView k w
    if a.2 = 0 ∨ b.2 = 0 then
      s.setCodec { s.codec with samples := Tbl.del s.codec.samples (16 * k + w), usable := Tbl.del s.codec.usable (16 * k + w),
                                queue := s.codec.queue.filter fun q => q.2 ≠ 16 * k + w }
    else s

/-- The staged configuration put in force whole (R117, R118): the windows, the quotas, the admission limits, the floors and the course's shares
follow it. Floors that the commit does not configure are announced as R126 says; what a room no longer borrows is returned, and a commit
borrows nothing (R116; DESIGN CHOICE for a Cellar quota lowered below U_C). -/
def State.applied (s : State) : State :=
  let rooms := s.stagedRooms
  let new := s.staged
  let new := new.setAdm { new.adm with staging := [], commitAt := none, status := 0, detail := 0xFFFFFF00, commitNo := s.adm.commitNo + 1 }
  let new := (upTo 64).foldl (fun x k =>
    if bitOf rooms k then (upTo 16).foldl (fun x w => x.applyWindows s k w) x else x) new
  let new := new.settleQuotas s
  let d := new.adm
  let new := new.setAdm { d with limit := admitAt d.d (new.val .admitPercent 0 0),
                                 cellarLimit := new.cellarLimitAt (new.val .admitPercent 0 0) }
  let new := new.settleFloors 3 fun k c => decide (new.val .classFloor k c = s.val .classFloor k c)
  let new := ((upTo 64).foldl (fun x k => if bitOf rooms k then x.returnOverdraft k else x) new).settleReserve
  new.shareOut

/-- The boundary of a commit (R48, R117, R118): all checks run, and the change takes effect whole or is refused. -/
def execConfigApply (s : State) : Host.Outcome State Fault Refusal :=
  match s.adm.commitAt with
  | none => .next s
  | some t =>
    if s.now < t ∨ s.time.pos ≠ 0 then .next s
    else match s.commitCheck with
      | some (st, k, c, w) =>
        let s := s.setAdm { s.adm with commitAt := none, status := st, detail := k * 2 ^ 24 + c * 2 ^ 16 + w * 2 ^ 8 + st }
        .next (s.raise { code := 0x4002, sev := 2, unit := srcAdmission,
                         args := leBytes 1 st ++ leBytes 1 k ++ leBytes 1 c ++ leBytes 1 w })
      | none =>
        .next ((s.applied.raise { code := 0x4001, sev := 1, unit := srcAdmission,
                                  args := leBytes 4 (s.adm.commitNo + 1) ++ leBytes 8 s.stagedRooms }).retryAll)

/- ## ROOM_ERASE (R108, R209, R240) -/

/-- Everything of a room discarded: shelves with their versions, published regions, pages, bindings, samples, loads; its usage
and borrowing return to zero, and its key is gone (R108). -/
def State.eraseRoom (s : State) (k : Nat) : State :=
  let shelves := (s.shelves.filter fun e => e.2.room = k).map (·.1)
  let s := shelves.foldl (fun s n => s.dropShelf n) s
  let regions := (upTo 256).filter fun g => s.val .pubRoom g 0 = k
  let s := regions.foldl (fun s g =>
    ((s.viewsOf g).foldl (fun s i => s.unbindView (i / 16) (i % 16)) s).deleteRegion g) s
  let s := (s.dir.entries.filter fun e => lineRoom e.1 = k).foldl (fun s e =>
    (s.recallPorts e.1 true (portsOf e.2.ports)).2) s
  let s := s.setEntries (Tbl.keep s.dir.entries fun l e => !(decide (lineRoom l = k) && decide (e.st = DirMode.lost)))
  let pages := (s.pages.filter fun e => pageRoom e.1 = k).map (·.1)
  let s := pages.foldl (fun s p => s.dropLive p) s
  let s := s.setTier { s.tier with promo := s.tier.promo.filter fun p => pageRoom p ≠ k }
  let keep {α : Type} (n : Nat) (t : Tbl α) : Tbl α := Tbl.keep t fun i _ => decide (i / n ≠ k)
  let c := s.codec
  let s := (c.binds.filter fun e => e.1 / 32 = k).foldl (fun s e => s.unbind e.1) s
  let s := s.setCodec { s.codec with samples := keep 16 s.codec.samples, usable := keep 16 s.codec.usable,
                                     queue := s.codec.queue.filter (fun q => q.2 / 16 ≠ k), loads := Tbl.del s.codec.loads k,
                                     waiting := s.codec.waiting.filter fun q => q.2.1 / 32 ≠ k }
  let s := s.setSec { s.sec with keys := Tbl.del s.sec.keys k, stored := Tbl.del s.sec.stored k }
  s.setRoom k { s.room k with borrowed := 0 }

/-- ROOM_ERASE (R108, R402): refused in any state but Off; a room held Off for a lost flush list is held no longer. -/
def actRoomErase (k v : Nat) : Act := fun s =>
  let off := if h : k < 64 then decide ((s.fn (.room ⟨k, h⟩)).state = Fn.off) else false
  if v ≠ 1 then (rNo stRefused, s)
  else if !off then (rNo stState, s)
  else
    let s := s.eraseRoom k
    (rOk, if h : k < 64 then
        let f := s.fn (.room ⟨k, h⟩)
        if f.cause = 8 then s.setFn (.room ⟨k, h⟩) { f with held := false } else s
      else s)

/-- ROOM_ERASE as a command. -/
def execRoomErase (rq : Rq) (room : Fin 64) (payload : List Byte) (s : State) : Host.Outcome State Fault Refusal :=
  .next (s.odWrite rq .roomErase room 0 payload noCalls (actRoomErase room (ofLe payload)))

end Sys2Proof.Machine
end

