-- ==== Sys2Proof/Machine/Streams.lean ====
section
/-!
DEFINITION. Sys2Proof/Machine/Streams.lean: the stream contexts of the cores: what moves and what stops them (R259 to R262,
R304 to R306).
-/

namespace Sys2Proof.Machine

/-- The codes of STATUS (R305). -/
def ssIdle : Nat := 0
/-- RUN. -/
def ssRun : Nat := 1
/-- END. -/
def ssEnd : Nat := 2
/-- ABSENT. -/
def ssAbsent : Nat := 3
/-- HELD. -/
def ssHeld : Nat := 4
/-- POISON. -/
def ssPoison : Nat := 5
/-- DENIED. -/
def ssDenied : Nat := 6

/-- The room address of byte `n` of a stream (R259). -/
def Stream.addrAt (t : Stream) (n : Nat) : Nat :=
  if t.stride = 0 then t.base + n else t.base + n / t.row * t.stride + n % t.row

/-- The status word (R305). -/
def Stream.word (t : Stream) : Nat := t.status * 2 ^ 60 + t.addrAt t.moved % 2 ^ 46

/-- A stream of a core. -/
def Core.stream (c : Core) (x : Nat) : Stream := c.st.getD x Stream.init
/-- The core with a stream replaced. -/
def Core.setStream (c : Core) (x : Nat) (t : Stream) : Core := { c with st := c.st.set x t }
/-- A wide register. -/
def Core.wide (c : Core) (r : Nat) : Wide := Tbl.get c.w r 0
/-- The core with a wide register written. -/
def Core.setWide (c : Core) (r : Nat) (v : Wide) : Core := { c with w := Tbl.put c.w r v }

/-- `n` bytes of a 512-byte value put in from byte `at_`, the others kept. -/
def putBits (old at_ n new : Nat) : Nat :=
  old % 2 ^ (8 * at_) + new % 2 ^ (8 * n) * 2 ^ (8 * at_) + old / 2 ^ (8 * (at_ + n)) * 2 ^ (8 * (at_ + n))

/-- What a line or brick of a stream comes to: moved; it waits for what has been set going; it stops. -/
inductive Move where
  | moved (data : List Byte)
  | wait
  | stop (status : Nat) (why : Option Wait) (ready : Nat)
  deriving Repr

/-- The reason of a wait as a stop of R262, unless the stream is not to stop for it again (R96). -/
def lateMove (t : Stream) (why : Wait) (ready : Nat) : Move :=
  if t.skip = some why then .wait
  else if why = .fetch ∨ why = .far then .stop ssAbsent (some why) ready
  else .stop ssHeld (some why) ready

/-- A core is retired (R18). -/
def State.coreGone (s : State) (core : Nat) : Bool := s.isRetired (core / 8) (0x0A0 + core % 8)

/-- The request that a core makes of a line for a call: core n stands as port 32 + n, with the CALL_ID in place of a TAG. -/
def coreReq (s : State) (core id : Nat) (op : LineOp) (room line : Nat) (d : BitVec 512) : OpenReq :=
  ⟨32 + core, id, op, room, line, d, -1, false, s.now, .recall, 0, none, true, false, false⟩

/-- The request of the line at which a stream of a call stands. -/
def State.standsAt (s : State) (core : Nat) (cl : Call) (t : Stream) : OpenReq :=
  coreReq s core cl.id (if t.write then .wr else .rd) cl.room (t.addrAt t.moved / 64) 0

/-- A stop of a call's stream at a line is kept as a Hold is (R96, R262). -/
def OpenReq.isHeld (r : OpenReq) (h : HeldReq) : Bool :=
  decide (h.port = r.holder) && decide (h.op = r.op) && decide (h.room = r.room) && decide (h.line = r.line)

/-- The stream with the reason for which it does not stop again where it stands (R96): that of a stop there whose ready stamp has come and whose pin
has not lapsed, in this step or an earlier one. -/
def State.mayNotStop (s : State) (r : OpenReq) (t : Stream) : Stream :=
  match s.reqs.held.find? fun h => r.isHeld h && decide (h.ready ≤ s.now) && decide (s.now ≤ h.ready + 64 * 4096) with
  | some h => { t with skip := some h.why }
  | none => t

/-- What a stream's stop keeps (R96, R262): the pin, and for a write the reservations. -/
def State.keepStop (s : State) (r : OpenReq) (why : Wait) (ready : Nat) : State :=
  let h : HeldReq := ⟨r.holder, r.op, r.room, r.line, why, ready⟩
  (s.setHeld ((s.reqs.held.filter fun h => !r.isHeld h) ++ [h])).pin r why ready

/-- What a stream's stop kept ends once its line has moved. -/
def State.endStop (s : State) (r : OpenReq) : State :=
  if s.reqs.held.any r.isHeld then (s.setHeld (s.reqs.held.filter fun h => !r.isHeld h)).dropOwn r.holder r.room r.line else s

/-- What the stops of streams kept lapses 64 courses after the ready stamp (R96). -/
def State.lapseStops (s : State) : State :=
  let s := if s.reqs.held.any fun h => decide (256 ≤ h.port) then
      s.setHeld (s.reqs.held.filter fun h => !(decide (256 ≤ h.port) && decide (h.ready + 64 * 4096 ≤ s.now))) else s
  if s.tier.reservations.any fun x => decide (256 ≤ x.port) then
    s.setTier { s.tier with reservations := s.tier.reservations.filter fun x => !(decide (256 ≤ x.port) && decide (x.until_ ≤ s.now)) }
  else s

/-- A verdict of serving a line, as the stream sees it: a lost far page is poison (R499); a write that a quota refuses is denied
(DESIGN CHOICE). -/
def moveOf (t : Stream) : Verdict → Move
  | .done 0 d => .moved (match d with | some x => lineBytes x | none => [])
  | .done 3 _ => .stop ssDenied none 0
  | .done 4 _ => .stop ssDenied none 0
  | .done _ _ => .stop ssPoison none 0
  | .late why ready => lateMove t why ready
  | .wait _ => .wait

/-- The line of a page as a stream reads it (R260): from the Loft, the landing or, expanded, the Store. -/
def State.streamRead (s : State) (t : Stream) (k bk j : Nat) : Move × State :=
  let p := s.page k
  if p.mode = .new then (.moved (List.replicate 64 0), s)
  else if p.mode = .cellar ∨ p.mode = .demoted then
    let (v, s) := s.bring k (pageRoom k)
    (moveOf t v, s)
  else
    match s.baseOf bk with
    | .ready d pm => (moveOf t (answerRead d pm j), s)
    | .filling => (.wait, s)
    | .fill =>
      match s.plainOf bk with
      | .ok d => (moveOf t (answerRead d (recMask (p.brick (bk % 16)).record) j), s)
      | .error _ => (.stop ssPoison none 0, s)

/-- The directory's part of a stream's line (R231, R232, R236, R238): it recalls an owner, for a write every holder, and installs
no entry. None when the line may move. -/
def State.streamDir (s : State) (t : Stream) (write : Bool) (l : Nat) : Option Move × State :=
  match s.scanHold l with
  | some r => (some (lateMove t .scan r), s)
  | none =>
    if s.dirBusy l then (some .wait, s)
    else
      match s.dirEntry l with
      | none => (none, s)
      | some e =>
        match e.st with
        | .lost => (if write then none else some (.stop ssPoison none 0), s)
        | .shared => if write then (some .wait, (s.recallPorts l false (portsOf e.ports)).2) else (none, s)
        | .owned => (some .wait, (s.recallPorts l false (portsOf e.ports)).2)

/-- An engine feed takes a brick through an expander lane: not from the Loft, nor from the landing (R190). -/
def State.noteLane (s : State) (core : Nat) (t : Stream) (k bk : Nat) : State :=
  if t.target = 0 ∧ (s.page k).inStore ∧ (s.page k).loft.isNone ∧ (s.slotOf bk).isNone then s.updCore core fun c => { c with expanded := true }
  else s

/-- One line of a read stream of a core and call (R260, R262). -/
def State.readLine (s : State) (core : Nat) (cl : Call) (t : Stream) : Move × State :=
  let addr := t.addrAt t.moved
  let line := addr / 64
  match s.charge cl.room cl.cls with
  | none => (.wait, s)
  | some _ =>
    match s.target cl.room line with
    | .closed => (.stop ssDenied none 0, s)
    | .zero => (.moved (List.replicate 64 0), s)
    | .view k =>
      let bk := s.brickOf cl.room line
      ((s.noteLane core t k bk).touch k (portRegion core)).streamRead t k bk (line % 4)
    | .live k =>
      let l := lineKey cl.room line
      if s.isFar k then
        let (v, s) := s.serveFar k
        (match v with | .wait .far => lateMove t .far (2 ^ 64 - 1) | v => moveOf t v, s)
      else
        match s.streamDir t false l with
        | (some m, s) => (m, s)
        | (none, s) => ((s.noteLane core t k (lineBrick l)).touch k (portRegion core)).streamRead t k (lineBrick l) (line % 4)

/-- Lines that a write stream's next brick holds of it: up to the brick's end, the row's end and the stream's end. -/
def Stream.brickLines (t : Stream) : Nat :=
  let a := t.addrAt t.moved
  let row := if t.stride = 0 then t.length - t.moved else t.row - t.moved % t.row
  min (4 - a / 64 % 4) (min row (t.length - t.moved) / 64)

/-- The lines of a brick recalled from their holders, or what they wait for (R232). -/
def State.bricksDir (s : State) (t : Stream) (l : Nat) : Nat → Option Move × State
  | 0 => (none, s)
  | n + 1 =>
    match s.streamDir t true (l + n) with
    | (some m, s) => (some m, s)
    | (none, s) => s.bricksDir t l n

/-- The lines of a brick written in address order, the first having been accepted or not (R261). -/
def State.writeLines (s : State) (core : Nat) (cl : Call) (media : Media) (line : Nat) : List (BitVec 512) → Verdict × State
  | [] => (.done 0 none, s)
  | d :: ds =>
    let k := linePage (lineKey cl.room line)
    match s.serveWrite (coreReq s core cl.id .wr cl.room line d) k (lineBrick (lineKey cl.room line)) media with
    | (.done 0 _, s) =>
      let l := lineKey cl.room line
      let open_ := s.crashOpen l
      let s := s.putEntry l none
      (if open_ then s.crashCleared l else s).writeLines core cl none (line + 1) ds
    | r => r

/-- Some pieces of 64 bytes as lines. -/
def linesOf (bs : List Byte) : Nat → List (BitVec 512)
  | 0 => []
  | n + 1 => BitVec.ofNat 512 (ofLe (bs.take 64)) :: linesOf (bs.drop 64) n

/-- One brick of a write stream of a core and call, accepted or refused as a whole (R261, R262). -/
def State.writeBrick (s : State) (core : Nat) (cl : Call) (c : Core) (t : Stream) : Move × State :=
  let n := t.brickLines
  let line := t.addrAt t.moved / 64
  let l := lineKey cl.room line
  let data := c.ts.readBytes (t.off + t.moved) (64 * n)
  match s.chargeN cl n with
  | none => (.wait, s)
  | some _ =>
    match s.target cl.room line with
    | .live k =>
      if s.isFar k then
        let (v, s) := s.serveFar k
        (match v with | .wait .far => lateMove t .far (2 ^ 64 - 1) | v => moveOf t v, s)
      else if (Tbl.find s.vault.leaving k).isSome then (.stop ssAbsent (some .far) (boundaryAfter s.now), s)
      else
        match s.bricksDir t l n with
        | (some m, s) => (m, s)
        | (none, s) =>
          let media : Media := if n = 4 then some (lineBrick l, List.replicate 256 0) else none
          let (v, s) := s.writeLines core cl media line (linesOf data n)
          (match v with | .done 0 _ => .moved data | v => moveOf t v, s)
    | _ => (.stop ssDenied none 0, s)

/-- Bytes delivered to a read stream's target (R259, R306). -/
def Core.deliver (c : Core) (x : Nat) (t : Stream) (data : List Byte) : Core :=
  let n := data.length
  match t.target with
  | 0 => c.setStream x { t with feed := t.feed ++ data }
  | 1 =>
    let r := t.off + t.moved / 512
    c.setWide r (BitVec.ofNat 4096 (putBits (c.wide r).toNat (t.moved % 512) n (ofLe data)))
  | _ => { c with ts := c.ts.writeBytes (t.off + t.moved) data }

/-- The region that a line's data lie in: the Loft's that holds its page, or its frame's (R12). -/
def State.dataRegion (s : State) (k : Nat) : Nat :=
  let p := s.page k
  if p.loft.isSome then loftRegion p else match p.frame with | some f => f / framesPerRegion | none => 0

/-- Stream bytes of a call counted by region for the choice of its cores (R270). -/
def State.flowed (s : State) (id k n : Nat) : State :=
  let r := s.dataRegion k
  s.updCall id fun cl => { cl with flow := cl.flow.set r (cl.flow.getD r 0 + n) }

/-- One piece of a running stream: a line of a read, a brick of a write. Answers whether more may follow. -/
def State.streamPiece (s : State) (core x : Nat) : Bool × State :=
  let c := s.core core
  match c.call.bind s.call with
  | none => (false, s)
  | some cl =>
    let r := s.standsAt core cl (c.stream x)
    let t := s.mayNotStop r (c.stream x)
    if t.status ≠ ssRun then (false, s)
    else if t.length ≤ t.moved then (false, s.setCore core (c.setStream x { t with status := ssEnd }))
    else
      let (m, s) := if t.write then s.writeBrick core cl c t else s.readLine core cl t
      match m with
      | .wait => (false, s)
      | .stop st why ready =>
        let s := match why with
          | some w =>
            let s := s.keepStop r w ready
            if w = Wait.fetch then s.holdLate (s.aimOf r.room r.line) ready else s
          | none => s
        (false, s.updCore core fun c => c.setStream x { t with status := st, why := why, ready := ready })
      | .moved data =>
        let s := s.endStop r
        let s := (s.chargeN cl (data.length / 64)).getD s
        let s := match s.target cl.room (t.addrAt t.moved / 64) with
          | .live k => s.flowed cl.id k data.length
          | .view k => s.flowed cl.id k data.length
          | _ => s
        let c := s.core core
        let c := if t.write then c else c.deliver x t data
        let t' : Stream := { c.stream x with moved := t.moved + data.length }
        let t' := if t'.length ≤ t'.moved then { t' with status := ssEnd } else t'
        (decide (t'.status = ssRun), s.setCore core { c.setStream x t' with bytes := c.bytes + data.length })

/-- A stream moves until `goal` bytes have moved, or it can not go on; `fuel` counts pieces. -/
def State.runStream (s : State) (core x goal : Nat) : Nat → State
  | 0 => s
  | fuel + 1 =>
    if goal ≤ ((s.core core).stream x).moved then s
    else
      let (more, s) := s.streamPiece core x
      if more then s.runStream core x goal fuel else s

/-- A stream moves until so many bytes have moved (R304). -/
def State.streamTo (s : State) (core x goal : Nat) : State :=
  let t := (s.core core).stream x
  s.runStream core x goal ((min goal t.length - t.moved) / 64 + 1)

/-- The bytes that a core's stream queue of 64 bricks still takes of a stream (R190). -/
def Core.queueRoom (c : Core) (t : Stream) : Nat :=
  let held := (c.st.map fun t => ceilDiv t.feed.length 256).sum
  256 * (64 - held) + (256 - t.feed.length % 256) % 256

/-- A stream moves to its end, or until it can not go on (R262); an engine feed no further than the stream queue takes it (R190). -/
def State.streamOut (s : State) (core x : Nat) : State :=
  let t := (s.core core).stream x
  s.streamTo core x (if t.write ∨ t.target ≠ 0 then 2 ^ 41 else t.moved + (s.core core).queueRoom t)

/-- The contexts of a mask move to their ends. -/
def State.streamsOut (s : State) (core : Nat) : List Nat → State
  | [] => s
  | x :: xs => (s.streamOut core x).streamsOut core xs

/-- A context is in RUN. -/
def Core.runs (c : Core) (x : Nat) : Bool := decide ((c.stream x).status = ssRun)

/-- A running stream stopped where it stands (R266, R307, R309). -/
def Stream.halt (t : Stream) : Stream := if t.status = ssRun then { t with status := ssIdle, feed := [] } else t

/- ## The end of a step (R264, R265, R307) -/

/-- s26 to s31, the step's result words (R265). -/
def Core.result (c : Core) : List Byte := (c.s.drop 26).flatMap fun w => leBytes 8 w.toNat

/-- EXPAND_STALL of the room of a step whose engines took bricks through the expander lanes (R190). The cycles that an engine stalled are the
lanes' timing, so how many there were is a free value, of at most four engines' 2,400 cycles each. -/
def State.stallCounted (s : State) (core : Nat) : State :=
  let c := s.core core
  match c.call.bind s.call with
  | some cl =>
    if !c.expanded then s
    else
      let (n, s) := s.draw
      (s.updRoom cl.room fun r => { r with stall := r.stall + Config.expandStall n % 9601 }).updCore core fun c => { c with expanded := false }
  | none => s

/-- A running step is over: its streams stop, and its stream bytes count towards the call's last eight (R266, R271). -/
def State.stepOver (s : State) (core : Nat) : State :=
  let s := s.stallCounted core
  let c := s.core core
  let s := match c.call with
    | some id => s.updCall id fun cl => { cl with bytes := (cl.bytes ++ [c.bytes]).drop (cl.bytes.length - 7) }
    | none => s
  s.setCore core { c with running := false, ending := none, st := c.st.map Stream.halt, holds := c.room }

/-- Steps of a call that are running. -/
def State.stepsRunning (s : State) (id : Nat) : Nat :=
  (s.cores.cores.filter fun e => e.2.running && decide (e.2.call = some id)).length

/-- What the steps of a course make of a call when no step of it runs any more (R264): its budget is spent, which the step on the lowest core
decides, or it parks. -/
def State.settleCall (s : State) (id : Nat) : State :=
  match s.call id with
  | none => s
  | some cl =>
    if cl.mode ≠ .ready ∨ s.callRuns id then s
    else if cl.budget ≤ cl.steps then
      let low := ((upTo 32).find? fun n => (s.core n).call = some id).getD 32
      s.endCall id ⟨5, low, s.time.course, 0, 1, 0, (s.core low).result⟩
    else if cl.moreAfter ∧ !cl.more then s.updCall id fun cl => { cl with mode := .parked }
    else s

/-- A step ends by STEPEND with a status and a stamp (R265, R307). -/
def State.stepEnds (s : State) (core status stamp : Nat) : State :=
  let c := s.core core
  match c.call with
  | none => s.stepOver core
  | some id =>
    let s := s.stepOver core
    let s := match status with
      | 0 => s.updCall id fun cl => { cl with more := true }
      | 1 => s.updCall id fun cl => { cl with moreAfter := true, kept := max cl.kept (boundaryAt stamp) }
      | _ => s.endCall id ⟨4, core, s.time.course, 0, 0, 0, c.result⟩
    s.settleCall id

/-- A step whose STEPEND waits ends once no write stream is in RUN (R307); on a core retired meanwhile it does not (R264). -/
def State.tryEnd (s : State) (core : Nat) : State :=
  let c := s.core core
  match c.ending with
  | none => s
  | some (status, stamp) => if s.coreGone core then s else if c.st.any fun t => t.write && decide (t.status = ssRun) then s else s.stepEnds core status stamp

/-- A stream reaches its LENGTH (R262): all that is left of it moves. A stream that would stop on the way has not reached it. -/
def execStreamEnd (core : Fin 32) (ctx : Fin 8) (s : State) : Host.Outcome State Fault Refusal :=
  let c := s.core core
  if !c.running ∨ !c.runs ctx ∨ s.coreGone core then .next s
  else
    let s' := s.streamOut core ctx
    .next (if ((s'.core core).stream ctx).status = ssEnd then s'.tryEnd core else s)

/-- A stream that cannot go on stops (R262): what lies before the stop moves. A stream that nothing stops goes on. -/
def execStreamStop (core : Fin 32) (ctx : Fin 8) (s : State) : Host.Outcome State Fault Refusal :=
  let c := s.core core
  if !c.running ∨ !c.runs ctx ∨ s.coreGone core then .next s
  else
    let s' := s.streamOut core ctx
    .next (if 3 ≤ ((s'.core core).stream ctx).status then s'.tryEnd core else s)

end Sys2Proof.Machine
end

