-- ==== Sys2Proof/Machine/Gopepen.lean ====
section
/-!
DEFINITION. Sys2Proof/Machine/Gopepen.lean: the issue of an instruction and its faults (R279, R280, R308, R309), and the control,
scalar and tile-store instructions (R289 to R291, R307).
-/

namespace Sys2Proof.Machine

/-- What an instruction does to its core: a fault; it waits, for a stream; it completes, with a jump or without. -/
inductive Did where
  | fault (code : Nat)
  | wait
  | done (c : Core)
  | jump (c : Core) (dest : Nat)
  deriving Repr

/-- ILLEGAL. -/
def fIllegal : Nat := 1
/-- OPERAND_RANGE. -/
def fRange : Nat := 2
/-- TILE_STORE_RANGE. -/
def fTile : Nat := 3
/-- CODE_RANGE. -/
def fCode : Nat := 4
/-- STREAM_BUSY. -/
def fBusy : Nat := 5
/-- STREAM_DESCRIPTOR. -/
def fStream : Nat := 6
/-- FORMAT. -/
def fFormat : Nat := 7
/-- TOPK_RECORD. -/
def fTopk : Nat := 8
/-- FEED. -/
def fFeed : Nat := 9

/-- A scalar register; s0 reads as zero (R254). -/
def Core.sreg (c : Core) (r : Nat) : Word := if r = 0 then 0 else c.s.getD r 0
/-- The core with a scalar register written; a write of s0 is discarded (R254). -/
def Core.setS (c : Core) (r : Nat) (v : Word) : Core := if r = 0 then c else { c with s := c.s.set r v }

/-- Cycles of a core in a course (R27, R38, R46, R272): the core clock, in steps of 0.1 GHz from 1.2 down to 0.6 GHz. -/
def State.cyclesOf (s : State) (core : Nat) : Nat :=
  200 * (12 - min 6 (s.power.core + Tbl.get s.power.regionSteps (core / 8) 0))

/-- A step ends with a fault (R309): s31 names the word, every stream stops, and the call ends FATAL. -/
def State.faultStep (s : State) (core code : Nat) : State :=
  let c := s.core core
  match c.call with
  | none => s
  | some id =>
    let c := c.setS 31 (BitVec.ofNat 64 c.pc)
    let s := (s.setCore core c).stepOver core
    let room := c.room.getD 0
    let s := s.endCall id ⟨3, core, s.time.course, 8, 2, code, c.result⟩
    s.raise { code := 0x8002, sev := 2, unit := srcRoom room,
              args := leBytes 4 id ++ leBytes 1 core ++ leBytes 2 code ++ leBytes 4 c.index }

/-- An instruction's outcome settled (R281, R309): the next word, a fault, or nothing yet. Running on from the last word is a
fault of the word that is not there. -/
def State.settle (s : State) (core : Nat) (d : Did) : State :=
  match d with
  | .fault code => s.faultStep core code
  | .wait => s
  | .done c =>
    let s := s.setCore core { c with pc := c.pc + 1 }
    if c.pc + 1 < c.words then s else s.faultStep core fCode
  | .jump c dest =>
    if dest < c.words then s.setCore core { c with pc := dest } else s.faultStep core fCode

/-- A core issues instructions: it stands, and a step runs there that has not come to its STEPEND. -/
def State.issues (s : State) (core : Nat) : Bool :=
  (s.core core).running && (s.core core).ending.isNone && !s.coreGone core

/-- Wide registers that running streams still owe to an instruction (R306): context and byte count to reach. -/
def Core.owed (c : Core) (regs : List Nat) : List (Nat × Nat) :=
  (upTo 8).flatMap fun x =>
    let t := c.stream x
    if t.status = ssRun ∧ t.target = 1 ∧ !t.write then
      regs.filterMap fun r =>
        if t.off ≤ r ∧ r < t.off + t.length / 512 ∧ t.moved < 512 * (r - t.off + 1) then some (x, 512 * (r - t.off + 1)) else none
    else []

/-- Streams moved until what they owe is there, or they can not go on. -/
def State.payOwed (s : State) (core : Nat) : List (Nat × Nat) → State
  | [] => s
  | (x, goal) :: l => (s.streamTo core x goal).payOwed core l

/-- An instruction issued (R286, R306): its check, which may fault; the wide registers it names, waited for; its effect on the
core. -/
def State.issue (s : State) (core : Fin 32) (check : Option Nat) (regs : List Nat) (body : Core → Did) :
    Host.Outcome State Fault Refusal :=
  if !s.issues core then .next s
  else
    match check with
    | some code => .next (s.faultStep core code)
    | none =>
      let s := s.payOwed core ((s.core core).owed regs)
      let c := s.core core
      .next (if (c.owed regs).isEmpty then s.settle core (body c) else s)

/- ## Field checks (R279, R280) -/

/-- The fields of a word that an instruction uses, the others to be zero; of MOD, X and IMM the bits it uses. -/
structure Uses where
  mod : Nat := 0
  d : Bool := false
  a : Bool := false
  b : Bool := false
  c : Bool := false
  x : Nat := 0
  imm : Nat := 0
  deriving DecidableEq, Repr

/-- All bits of IMM. -/
def allImm : Nat := 2 ^ 64 - 1

/-- A value has no bit outside a mask. -/
def within (v mask : Nat) : Bool := decide (v &&& mask = v)

/-- Unused fields are zero (R279). -/
def zeroElse (f : Fields) (u : Uses) : Bool :=
  within f.mod.toNat u.mod && (u.d || decide (f.d = 0)) && (u.a || decide (f.a = 0)) && (u.b || decide (f.b = 0))
    && (u.c || decide (f.c = 0)) && within f.x.toNat u.x && within f.imm.toNat u.imm

/-- A check that nothing fails but ILLEGAL and OPERAND_RANGE (R308): unused fields, further conditions for a legal word, and the
scalar fields. -/
def fieldCheck (f : Fields) (u : Uses) (scalars : List (BitVec 6)) (legal : Bool := true) : Option Nat :=
  if !(zeroElse f u && legal) then some fIllegal
  else if scalars.any fun r => decide (31 < r.toNat) then some fRange
  else none

/- ## Control (R289) -/

/-- NOP. -/
def execNop (core : Fin 32) (f : Fields) (s : State) : Host.Outcome State Fault Refusal :=
  s.issue core (fieldCheck f {} []) [] fun c => .done c

/-- The word that IMM [31:0] names. -/
def jumpTo (f : Fields) : Nat := f.imm.toNat % 2 ^ 32

/-- J: jump to IMM [31:0]. -/
def execJ (core : Fin 32) (f : Fields) (s : State) : Host.Outcome State Fault Refusal :=
  s.issue core (fieldCheck f { imm := 2 ^ 32 - 1 } []) [] fun c => .jump c (jumpTo f)

/-- JAL: s[D] takes the offset of the next word. -/
def execJal (core : Fin 32) (f : Fields) (s : State) : Host.Outcome State Fault Refusal :=
  s.issue core (fieldCheck f { d := true, imm := 2 ^ 32 - 1 } [f.d]) [] fun c =>
    .jump (c.setS f.d.toNat (BitVec.ofNat 64 (c.pc + 1))) (jumpTo f)

/-- JR: jump to s[A]; bits [63:32] must be zero. -/
def execJr (core : Fin 32) (f : Fields) (s : State) : Host.Outcome State Fault Refusal :=
  s.issue core (fieldCheck f { a := true } [f.a]) [] fun c =>
    let v := (c.sreg f.a.toNat).toNat
    if 2 ^ 32 ≤ v then .fault fCode else .jump c v

/-- The comparisons of BR by COND: EQ, NE, LT, GE, LTU, GEU. -/
def condHolds (cond : Nat) (a b : Word) : Bool :=
  match cond with
  | 0 => decide (a = b) | 1 => decide (a ≠ b)
  | 2 => a.slt b | 3 => !a.slt b
  | 4 => a.ult b | _ => !a.ult b

/-- BR: jump when s[A] COND s[B]. -/
def execBr (core : Fin 32) (f : Fields) (s : State) : Host.Outcome State Fault Refusal :=
  let cond := f.mod.toNat / 16
  s.issue core (fieldCheck f { mod := 0xF0, a := true, b := true, imm := 2 ^ 32 - 1 } [f.a, f.b] (decide (cond ≤ 5))) [] fun c =>
    if condHolds cond (c.sreg f.a.toNat) (c.sreg f.b.toNat) then .jump c (jumpTo f) else .done c

/-- FENCE: the engines of the mask have nothing unfinished here; the contexts of X [71:64] are waited for. -/
def execFence (core : Fin 32) (f : Fields) (s : State) : Host.Outcome State Fault Refusal :=
  let mask := f.x.toNat % 256
  let ctxs := (upTo 8).filter fun x => bitOf mask x
  let ck := fieldCheck f { mod := 0xF0, x := 0xFF } []
  let s' := if s.issues core && ck.isNone then s.streamsOut core ctxs else s
  s'.issue core ck [] fun c => if ctxs.any c.runs then .wait else .done c

/-- STEPEND (R307): read streams stop, write streams are waited for, and the step ends; STATUS 3 is illegal. -/
def execStepend (core : Fin 32) (f : Fields) (s : State) : Host.Outcome State Fault Refusal :=
  let c := s.core core
  let status := f.mod.toNat % 4
  if !s.issues core then .next s
  else
    match fieldCheck f { mod := 3, a := true } [f.a] (decide (status ≠ 3)) with
    | some code => .next (s.faultStep core code)
    | none =>
      let stopReads (t : Stream) : Stream := if t.write then t else t.halt
      let c := { c with st := c.st.map stopReads, ending := some (status, (c.sreg f.a.toNat).toNat) }
      .next (((s.setCore core c).streamsOut core ((upTo 8).filter fun x => (c.stream x).write)).tryEnd core)

/-- CYC: cycles since the program started in this step. -/
def execCyc (core : Fin 32) (f : Fields) (s : State) : Host.Outcome State Fault Refusal :=
  let n := s.time.pos * s.cyclesOf core / 4096
  s.issue core (fieldCheck f { d := true } [f.d]) [] fun c => .done (c.setS f.d.toNat (BitVec.ofNat 64 (n - c.setup)))

/-- STAMP: the current stamp. -/
def execStamp (core : Fin 32) (f : Fields) (s : State) : Host.Outcome State Fault Refusal :=
  s.issue core (fieldCheck f { d := true } [f.d]) [] fun c => .done (c.setS f.d.toNat (BitVec.ofNat 64 (s.shown s.now)))

/- ## Scalar (R289, R290) -/

/-- A scalar operation of s[A] and s[B], or of s[A] and IMM where IMM_SRC is 1. -/
def State.alu (s : State) (core : Fin 32) (f : Fields) (op : Word → Word → Word) : Host.Outcome State Fault Refusal :=
  let imm := bitOf f.mod.toNat 0
  let u : Uses := { mod := 1, d := true, a := true, b := !imm, imm := if imm then allImm else 0 }
  s.issue core (fieldCheck f u [f.d, f.a, f.b]) [] fun c =>
    .done (c.setS f.d.toNat (op (c.sreg f.a.toNat) (if imm then f.imm else c.sreg f.b.toNat)))

/-- Signed division towards zero; by zero all ones; the most negative by −1 itself (R290). -/
def divS (a b : Word) : Word := if b = 0 then -1 else a.sdiv b
/-- Unsigned division; by zero all ones (R290). -/
def divU (a b : Word) : Word := if b = 0 then -1 else a / b
/-- Signed remainder; by zero the dividend (R290). -/
def remS (a b : Word) : Word := if b = 0 then a else a.srem b
/-- Unsigned remainder; by zero the dividend (R290). -/
def remU (a b : Word) : Word := if b = 0 then a else a % b
/-- The high 64 bits of the signed product. -/
def mulhS (a b : Word) : Word := BitVec.ofInt 64 (a.toInt * b.toInt / 2 ^ 64)
/-- The high 64 bits of the unsigned product. -/
def mulhU (a b : Word) : Word := BitVec.ofNat 64 (a.toNat * b.toNat / 2 ^ 64)
/-- A truth value as a word. -/
def flagWord (b : Bool) : Word := if b then 1 else 0
/-- A shift amount: bits [5:0]. -/
def amount (b : Word) : Nat := b.toNat % 64

/-- ADD, wrapping. -/
def execAdd (core : Fin 32) (f : Fields) (s : State) : Host.Outcome State Fault Refusal := s.alu core f (· + ·)
/-- SUB, wrapping. -/
def execSub (core : Fin 32) (f : Fields) (s : State) : Host.Outcome State Fault Refusal := s.alu core f (· - ·)
/-- MUL, wrapping. -/
def execMul (core : Fin 32) (f : Fields) (s : State) : Host.Outcome State Fault Refusal := s.alu core f (· * ·)
/-- MULH. -/
def execMulh (core : Fin 32) (f : Fields) (s : State) : Host.Outcome State Fault Refusal := s.alu core f mulhS
/-- MULHU. -/
def execMulhu (core : Fin 32) (f : Fields) (s : State) : Host.Outcome State Fault Refusal := s.alu core f mulhU
/-- DIV (R290). -/
def execDiv (core : Fin 32) (f : Fields) (s : State) : Host.Outcome State Fault Refusal := s.alu core f divS
/-- DIVU (R290). -/
def execDivu (core : Fin 32) (f : Fields) (s : State) : Host.Outcome State Fault Refusal := s.alu core f divU
/-- REM (R290). -/
def execRem (core : Fin 32) (f : Fields) (s : State) : Host.Outcome State Fault Refusal := s.alu core f remS
/-- REMU (R290). -/
def execRemu (core : Fin 32) (f : Fields) (s : State) : Host.Outcome State Fault Refusal := s.alu core f remU
/-- AND. -/
def execAnd (core : Fin 32) (f : Fields) (s : State) : Host.Outcome State Fault Refusal := s.alu core f (· &&& ·)
/-- OR. -/
def execOr (core : Fin 32) (f : Fields) (s : State) : Host.Outcome State Fault Refusal := s.alu core f (· ||| ·)
/-- XOR. -/
def execXor (core : Fin 32) (f : Fields) (s : State) : Host.Outcome State Fault Refusal := s.alu core f (· ^^^ ·)
/-- SHL. -/
def execShl (core : Fin 32) (f : Fields) (s : State) : Host.Outcome State Fault Refusal := s.alu core f fun a b => a <<< amount b
/-- SHR. -/
def execShr (core : Fin 32) (f : Fields) (s : State) : Host.Outcome State Fault Refusal := s.alu core f fun a b => a >>> amount b
/-- SAR. -/
def execSar (core : Fin 32) (f : Fields) (s : State) : Host.Outcome State Fault Refusal :=
  s.alu core f fun a b => a.sshiftRight (amount b)
/-- SLT. -/
def execSlt (core : Fin 32) (f : Fields) (s : State) : Host.Outcome State Fault Refusal := s.alu core f fun a b => flagWord (a.slt b)
/-- SLTU. -/
def execSltu (core : Fin 32) (f : Fields) (s : State) : Host.Outcome State Fault Refusal := s.alu core f fun a b => flagWord (a.ult b)
/-- MIN, signed. -/
def execMin (core : Fin 32) (f : Fields) (s : State) : Host.Outcome State Fault Refusal :=
  s.alu core f fun a b => if b.slt a then b else a
/-- MAX, signed. -/
def execMax (core : Fin 32) (f : Fields) (s : State) : Host.Outcome State Fault Refusal :=
  s.alu core f fun a b => if a.slt b then b else a

/-- LI. -/
def execLi (core : Fin 32) (f : Fields) (s : State) : Host.Outcome State Fault Refusal :=
  s.issue core (fieldCheck f { d := true, imm := allImm } [f.d]) [] fun c => .done (c.setS f.d.toNat f.imm)

/-- An FP32 operation on bits [31:0], rounded to nearest even; bits [63:32] of the result are zero (R289). -/
def State.fpu (s : State) (core : Fin 32) (f : Fields) (op : Val → Val → Val) : Host.Outcome State Fault Refusal :=
  s.issue core (fieldCheck f { d := true, a := true, b := true } [f.d, f.a, f.b]) [] fun c =>
    let x := ofFp32 ((c.sreg f.a.toNat).toNat % 2 ^ 32)
    let y := ofFp32 ((c.sreg f.b.toNat).toNat % 2 ^ 32)
    .done (c.setS f.d.toNat (BitVec.ofNat 64 (fp32 (op x y))))

/-- FADD. -/
def execFadd (core : Fin 32) (f : Fields) (s : State) : Host.Outcome State Fault Refusal := s.fpu core f (addVal 0)
/-- FMUL. -/
def execFmul (core : Fin 32) (f : Fields) (s : State) : Host.Outcome State Fault Refusal := s.fpu core f mulVal
/-- FMAX (R292). -/
def execFmax (core : Fin 32) (f : Fields) (s : State) : Host.Outcome State Fault Refusal := s.fpu core f maxVal

/- ## The tile store and wide registers (R291) -/

/-- Bytes of the tile store. -/
def tileBytes : Nat := 2097152

/-- The tile-store address s[r] + IMM. -/
def Core.addr (c : Core) (r : Nat) (imm : Word) : Nat := (c.sreg r + imm).toNat

/-- A tile-store range is good: within the store and aligned (R291). -/
def tileOk (a n align : Nat) : Bool := decide (a + n ≤ tileBytes) && decide (a % align = 0)

/-- The value of `n` tile-store bytes. -/
def Core.load (c : Core) (a n : Nat) : Nat := ofLe (c.ts.readBytes a n)
/-- The core with `n` tile-store bytes written. -/
def Core.store (c : Core) (a n v : Nat) : Core := { c with ts := c.ts.writeBytes a (leBytes n v) }

/-- LDS: 8 bytes, 8-byte aligned. -/
def execLds (core : Fin 32) (f : Fields) (s : State) : Host.Outcome State Fault Refusal :=
  s.issue core (fieldCheck f { d := true, a := true, imm := allImm } [f.d, f.a]) [] fun c =>
    let a := c.addr f.a.toNat f.imm
    if tileOk a 8 8 then .done (c.setS f.d.toNat (BitVec.ofNat 64 (c.load a 8))) else .fault fTile

/-- STS: 8 bytes, 8-byte aligned. -/
def execSts (core : Fin 32) (f : Fields) (s : State) : Host.Outcome State Fault Refusal :=
  s.issue core (fieldCheck f { b := true, a := true, imm := allImm } [f.b, f.a]) [] fun c =>
    let a := c.addr f.a.toNat f.imm
    if tileOk a 8 8 then .done (c.store a 8 (c.sreg f.b.toNat).toNat) else .fault fTile

/-- LDW: 512 bytes, 64-byte aligned. -/
def execLdw (core : Fin 32) (f : Fields) (s : State) : Host.Outcome State Fault Refusal :=
  s.issue core (fieldCheck f { d := true, a := true, imm := allImm } [f.a]) [f.d.toNat] fun c =>
    let a := c.addr f.a.toNat f.imm
    if tileOk a 512 64 then .done (c.setWide f.d.toNat (BitVec.ofNat 4096 (c.load a 512))) else .fault fTile

/-- STW: 512 bytes, 64-byte aligned. -/
def execStw (core : Fin 32) (f : Fields) (s : State) : Host.Outcome State Fault Refusal :=
  s.issue core (fieldCheck f { b := true, a := true, imm := allImm } [f.a]) [f.b.toNat] fun c =>
    let a := c.addr f.a.toNat f.imm
    if tileOk a 512 64 then .done (c.store a 512 (c.wide f.b.toNat).toNat) else .fault fTile

/-- MVW: a wide register copied. -/
def execMvw (core : Fin 32) (f : Fields) (s : State) : Host.Outcome State Fault Refusal :=
  s.issue core (fieldCheck f { d := true, a := true } []) [f.d.toNat, f.a.toNat] fun c =>
    .done (c.setWide f.d.toNat (c.wide f.a.toNat))

/-- WINS: 8-byte lane IMM [5:0] of w[D] takes s[B]. -/
def execWins (core : Fin 32) (f : Fields) (s : State) : Host.Outcome State Fault Refusal :=
  s.issue core (fieldCheck f { d := true, b := true, imm := 63 } [f.b]) [f.d.toNat] fun c =>
    let v := putBits (c.wide f.d.toNat).toNat (8 * f.imm.toNat) 8 (c.sreg f.b.toNat).toNat
    .done (c.setWide f.d.toNat (BitVec.ofNat 4096 v))

/-- WEXT: s[D] takes 8-byte lane IMM [5:0] of w[A]. -/
def execWext (core : Fin 32) (f : Fields) (s : State) : Host.Outcome State Fault Refusal :=
  s.issue core (fieldCheck f { d := true, a := true, imm := 63 } [f.d]) [f.a.toNat] fun c =>
    .done (c.setS f.d.toNat (BitVec.ofNat 64 ((c.wide f.a.toNat).toNat / 2 ^ (64 * f.imm.toNat))))

end Sys2Proof.Machine
end

