-- ==== Sys2Proof/Machine/Wide.lean ====
section
/-!
DEFINITION. Sys2Proof/Machine/Wide.lean: elementwise arithmetic, conversion, reductions, MX quantisation and splitting (R291 to
R293, R299, R300).
-/

namespace Sys2Proof.Machine

/-- ETYPE of MOD (R280). -/
def Fields.etype (f : Fields) : Nat := f.mod.toNat / 16
/-- RM of MOD. -/
def Fields.rm (f : Fields) : Nat := f.mod.toNat / 4 % 4
/-- SAT of MOD. -/
def Fields.sat (f : Fields) : Bool := bitOf f.mod.toNat 1
/-- The format code in X [87:84]. -/
def Fields.fmt (f : Fields) : Nat := f.x.toNat / 2 ^ 20

/-- A failing check replaced by a format fault where the formats are not allowed (R308). -/
def orFormat (ck : Option Nat) (ok : Bool) : Option Nat := match ck with | some e => some e | none => if ok then none else some fFormat

/-- The first `n` elements of a register written, the rest of its bits kept. -/
def putElems (old w : Nat) (l : List Nat) : Nat := packElems w l + old / 2 ^ (w * l.length) * 2 ^ (w * l.length)

/-- An elementwise instruction: w[D] from w[A], w[B] and its own old elements, in ETYPE (R292). -/
def State.elementwise (s : State) (core : Fin 32) (f : Fields) (op : Val → Val → Val → Val) : Host.Outcome State Fault Refusal :=
  let ty := Fields.etype f
  let ck := fieldCheck f { mod := 0xFE, d := true, a := true, b := true } []
  s.issue core (orFormat ck (!isMx ty)) [f.d.toNat, f.a.toNat, f.b.toNat] fun c =>
    let x := (c.wide f.a.toNat).toNat
    let y := (c.wide f.b.toNat).toNat
    let z := (c.wide f.d.toNat).toNat
    let one (i : Nat) : Nat :=
      encodeVal ty (Fields.rm f) (Fields.sat f) (op (valOf ty (element ty x i)) (valOf ty (element ty y i)) (valOf ty (element ty z i)))
    .done (c.setWide f.d.toNat (BitVec.ofNat 4096 (putElems z (widthOf ty) ((upTo (countOf ty)).map one))))

/-- VADD. -/
def execVadd (core : Fin 32) (f : Fields) (s : State) : Host.Outcome State Fault Refusal :=
  s.elementwise core f fun x y _ => addVal (Fields.rm f) x y
/-- VSUB. -/
def execVsub (core : Fin 32) (f : Fields) (s : State) : Host.Outcome State Fault Refusal :=
  s.elementwise core f fun x y _ => addVal (Fields.rm f) x (negVal y)
/-- VMUL. -/
def execVmul (core : Fin 32) (f : Fields) (s : State) : Host.Outcome State Fault Refusal :=
  s.elementwise core f fun x y _ => mulVal x y
/-- VFMA: w[A] times w[B] plus w[D], rounded once. -/
def execVfma (core : Fin 32) (f : Fields) (s : State) : Host.Outcome State Fault Refusal :=
  s.elementwise core f fun x y z => addVal (Fields.rm f) (mulVal x y) z
/-- VMAX (R292). -/
def execVmax (core : Fin 32) (f : Fields) (s : State) : Host.Outcome State Fault Refusal :=
  s.elementwise core f fun x y _ => maxVal x y
/-- VMIN (R292). -/
def execVmin (core : Fin 32) (f : Fields) (s : State) : Host.Outcome State Fault Refusal :=
  s.elementwise core f fun x y _ => minVal x y

/-- VBCAST: every element takes the low bits of s[A]. -/
def execVbcast (core : Fin 32) (f : Fields) (s : State) : Host.Outcome State Fault Refusal :=
  let ty := Fields.etype f
  let ck := fieldCheck f { mod := 0xF0, d := true, a := true } [f.a]
  s.issue core (orFormat ck (!isMx ty)) [f.d.toNat] fun c =>
    let z := (c.wide f.d.toNat).toNat
    .done (c.setWide f.d.toNat (BitVec.ofNat 4096
      (putElems z (widthOf ty) (List.replicate (countOf ty) (c.sreg f.a.toNat).toNat))))

/-- Elements that VCVT converts (R293). -/
def cvtCount (src dst : Nat) : Nat :=
  let w := max (widthOf src) (widthOf dst)
  if w = 6 then 680 else 4096 / w

/-- A byte offset is a whole element or 6-bit group from byte 0 (R293). -/
def cvtPlace (c off : Nat) : Bool :=
  match widthOf c with | 32 => decide (off % 4 = 0) | 16 => decide (off % 2 = 0) | 6 => decide (off % 3 = 0) | _ => true

/-- VCVT: N elements converted between formats (R293). -/
def execVcvt (core : Fin 32) (f : Fields) (s : State) : Host.Outcome State Fault Refusal :=
  let src := Fields.etype f
  let dst := Fields.fmt f
  let n := cvtCount src dst
  let from_ := f.imm.toNat % 512
  let dest := f.imm.toNat / 65536
  let ck := orFormat (fieldCheck f { mod := 0xFE, d := true, a := true, x := 0xF00000, imm := 0x1FF01FF } []) (!isMx src && !isMx dst)
  let fits := cvtPlace src from_ && cvtPlace dst dest && decide (8 * from_ + n * widthOf src ≤ 4096)
    && decide (8 * dest + n * widthOf dst ≤ 4096)
  s.issue core (match ck with | some e => some e | none => if fits then none else some fRange) [f.d.toNat, f.a.toNat] fun c =>
    let v := (c.wide f.a.toNat).toNat / 2 ^ (8 * from_)
    let one (i : Nat) : Nat := encodeVal dst (Fields.rm f) (Fields.sat f) (valOf src (element src v i))
    let new := packElems (widthOf dst) ((upTo n).map one)
    .done (c.setWide f.d.toNat (BitVec.ofNat 4096 (putBits (c.wide f.d.toNat).toNat dest (n * widthOf dst / 8) new)))

/-- FP32 values added in an order that free values choose (R292): two of those left, at the places drawn, are replaced by their
rounded sum. -/
def sumAll (add : Val → Val → Val) (pick : Nat → Nat) : Nat → List Val → Val
  | 0, l => l.headD (.fin false 0 0)
  | fuel + 1, l =>
    match l with
    | [] => .fin false 0 0
    | [x] => x
    | l =>
      let i := pick (2 * fuel) % l.length
      let rest := l.eraseIdx i
      let j := pick (2 * fuel + 1) % rest.length
      sumAll add pick fuel (add (l.getD i .nan) (rest.getD j .nan) :: rest.eraseIdx j)

/-- VRSUM: the sum of all elements (R291, R292); a free value is drawn for the order. -/
def execVrsum (core : Fin 32) (f : Fields) (s : State) : Host.Outcome State Fault Refusal :=
  let ty := Fields.etype f
  let ck := orFormat (fieldCheck f { mod := 0xFE, d := true, a := true } [f.d]) (!isMx ty)
  let (n, s) := if s.issues core && ck.isNone then s.draw else (0, s)
  s.issue core ck [f.a.toNat] fun c =>
    let v := (c.wide f.a.toNat).toNat
    let l := (upTo (countOf ty)).map fun i => element ty v i
    let r : Nat :=
      if isInt ty then unsign 64 (l.map fun x => signed (widthOf ty) x).sum
      else
        let add (x y : Val) : Val := ofFp32 (encodeVal 0 (Fields.rm f) (Fields.sat f) (addVal (Fields.rm f) x y))
        fp32 (sumAll add (Config.sumOrder n) l.length (l.map (valOf ty)))
    .done (c.setS f.d.toNat (BitVec.ofNat 64 r))

/-- VRMAX: the maximum of all elements (R291, R292). -/
def execVrmax (core : Fin 32) (f : Fields) (s : State) : Host.Outcome State Fault Refusal :=
  let ty := Fields.etype f
  let ck := orFormat (fieldCheck f { mod := 0xF0, d := true, a := true } [f.d]) (!isMx ty)
  s.issue core ck [f.a.toNat] fun c =>
    let v := (c.wide f.a.toNat).toNat
    let l := (upTo (countOf ty)).map fun i => valOf ty (element ty v i)
    let m := l.foldl maxVal .nan
    let r : Nat := if isInt ty then (match m with | .fin neg k _ => unsign 64 (if neg then -(k : Int) else k) | _ => 0) else fp32 m
    .done (c.setS f.d.toNat (BitVec.ofNat 64 r))

/-- The largest exponent of an element format (R299). -/
def emaxOf (c : Nat) : Int := match elemCode c with | 3 => 8 | 4 => 15 | 5 => 4 | 6 => 2 | _ => 2

/-- floor(log2) of a finite value that is not zero. -/
def floorLog (m : Nat) (e : Int) : Int := (log2f m : Int) + e

/-- The largest magnitude of a block as its exponent; none for an all-zero block. -/
def blockExp : List Val → Option Int
  | [] => none
  | .fin _ m e :: l =>
    if m = 0 then blockExp l
    else match blockExp l with | none => some (floorLog m e) | some x => some (max x (floorLog m e))
  | _ :: l => blockExp l

/-- A value is finite. -/
def Val.finite : Val → Bool
  | .fin _ _ _ => true | _ => false

/-- One block quantised (R299): its scale and its elements. -/
def quantBlock (c : Nat) (l : List Val) : Nat × List Nat :=
  if !l.all Val.finite then (255, l.map fun _ => 0)
  else
    let x : Int := match blockExp l with | none => 0 | some e => max 0 (min 254 (e - emaxOf c + 127))
    (x.toNat, l.map fun v => encodeVal (elemCode c) 0 true (scaleVal (127 - x) v))

/-- VQMX: w[A] quantised into an MX format, elements to w[D] and scales to w[B] (R299). -/
def execVqmx (core : Fin 32) (f : Fields) (s : State) : Host.Outcome State Fault Refusal :=
  let src := Fields.etype f
  let dst := Fields.fmt f
  let n := if src = 0 then 4 else 8
  let elemAt := f.imm.toNat % 512
  let scaleAt := f.imm.toNat / 65536
  let blockBytes := 4 * widthOf dst
  let ck := orFormat (fieldCheck f { mod := 0xFE, d := true, a := true, b := true, x := 0xF00000, imm := 0x1FF01FF } [])
    ((decide (src = 0) || decide (src = 2)) && isMx dst)
  let fits := decide (elemAt + n * blockBytes ≤ 512) && decide (scaleAt + n ≤ 512)
  s.issue core (match ck with | some e => some e | none => if fits then none else some fRange)
      [f.d.toNat, f.a.toNat, f.b.toNat] fun c =>
    let v := (c.wide f.a.toNat).toNat
    let blocks := (upTo n).map fun j => quantBlock dst ((upTo 32).map fun i => valOf src (element src v (32 * j + i)))
    let elems := packElems (widthOf dst) (blocks.flatMap (·.2))
    let c := c.setWide f.d.toNat (BitVec.ofNat 4096 (putBits (c.wide f.d.toNat).toNat elemAt (n * blockBytes) elems))
    .done (c.setWide f.b.toNat (BitVec.ofNat 4096 (putBits (c.wide f.b.toNat).toNat scaleAt n (packElems 8 (blocks.map (·.1))))))

/-- MXSPLIT: stored MX blocks of a page split into elements and scales (R300). -/
def execMxsplit (core : Fin 32) (f : Fields) (s : State) : Host.Outcome State Fault Refusal :=
  let ty := Fields.fmt f
  let n := f.x.toNat % 256
  let body := if ty = 8 then 32 else 16
  let scaleAt := f.imm.toNat / 2 ^ 55
  let ck := orFormat (fieldCheck f { d := true, a := true, b := true, x := 0xF000FF, imm := 0xFF800000001FFFFF } [f.a])
    (decide (ty = 8) || decide (ty = 12))
  let fits := decide (n * body ≤ 512) && decide (scaleAt + n ≤ 512)
  s.issue core (match ck with | some e => some e | none => if fits then none else some fRange) [f.d.toNat, f.b.toNat] fun c =>
    let a := (c.sreg f.a.toNat + BitVec.ofNat 64 (f.imm.toNat % 2 ^ 21)).toNat
    if !tileOk a (n * (body + 1)) 1 then .fault fTile
    else
      let bytes := c.ts.readBytes a (n * (body + 1))
      let block (j : Nat) : List Byte := (bytes.drop (j * (body + 1))).take (body + 1)
      let elems := (upTo n).flatMap fun j => (block j).drop 1
      let scales := (upTo n).flatMap fun j => (block j).take 1
      let c := c.setWide f.d.toNat (BitVec.ofNat 4096 (putBits (c.wide f.d.toNat).toNat 0 (n * body) (ofLe elems)))
      .done (c.setWide f.b.toNat (BitVec.ofNat 4096 (putBits (c.wide f.b.toNat).toNat scaleAt n (ofLe scales))))

end Sys2Proof.Machine
end

