-- ==== Sys2Proof/Machine/Engine.lean ====
section
/-!
DEFINITION. Sys2Proof/Machine/Engine.lean: the engine instructions: matrix products, tiles, softmax, 2^x and top-k (R256, R257,
R294 to R298, R301 to R303). Where EXP2 and TOPK hold their element format the spec does not say: X [87:84] (DESIGN CHOICE).
-/

namespace Sys2Proof.Machine

/-- The tile an engine instruction names: 4 times ENG plus TILE (R280). -/
def tileOf (f : Fields) : Nat := f.mod.toNat / 16
/-- A tile. -/
def Core.tile (c : Core) (t : Nat) : Tile := Tbl.get c.a t 0
/-- The core with a tile written. -/
def Core.setTile (c : Core) (t : Nat) (v : Nat) : Core := { c with a := Tbl.put c.a t (BitVec.ofNat 32768 v) }
/-- Element (r, c) of a tile's bits. -/
def tileElem (t r k : Nat) : Nat := t / 2 ^ (32 * (32 * r + k)) % 2 ^ 32

/- ## The matrix product (R256, R294 to R296, R298) -/

/-- K of a format's row group (R256). -/
def groupK (c : Nat) : Nat :=
  match elemCode c with | 0 => 2 | 1 => 8 | 2 => 8 | 7 => 32 | 14 => 32 | _ => 16

/-- Bytes of an operand of 32 by K elements (R295). -/
def operandBytes (c k : Nat) : Nat := 4 * k * widthOf c

/-- One operand's source: a register, or the next operand of a context (R294). -/
inductive Src where
  | reg (r : Nat)
  | feed (x : Nat)
  deriving DecidableEq, Repr

/-- The source that a bit of MOD and a register field name. -/
def srcOf (feed : Bool) (r : Nat) : Src := if feed then .feed r else .reg r

/-- A source names no context, or an engine-feed read. -/
def Src.feedOk (c : Core) : Src → Bool
  | .reg _ => true
  | .feed x => let t := c.stream x; t.configured && !t.write && decide (t.target = 0)

/-- The scaled exact sum of K products for one output element: A's row r, B's column k (R296, R298). -/
def dotVal (fa fb k : Nat) (bt : Bool) (a b r col : Nat) : Val :=
  let term (i : Nat) : Val :=
    mulVal (valOf fa (element fa a (r * k + i))) (valOf fb (element fb b (if bt then 32 * i + col else col * k + i)))
  (upTo k).foldl (fun v i => if i = 0 then term 0 else addVal 0 v (term i)) (.fin false 0 0)

/-- The 64 scales of a group: those of A's rows, then those of B's columns (R298). -/
def scaleByte (scales : Nat) (mx : Bool) (i : Nat) : Nat := if mx then scales / 2 ^ (8 * i) % 256 else 127

/-- One element of the tile after MMA: old bits and the block's sum, rounded once (R296, R298). -/
def mmaElem (fa fb k : Nat) (bt : Bool) (a b scales old r col : Nat) : Nat :=
  let v := dotVal fa fb k bt a b r col
  if isInt fa then
    let x : Int := match v with | .fin neg m e => let n : Int := m * 2 ^ e.toNat; if neg then -n else n | _ => 0
    satInt 32 (signed 32 old + x)
  else
    let xa := scaleByte scales (isMx fa) r
    let xb := scaleByte scales (isMx fb) (32 + col)
    if xa = 255 ∨ xb = 255 then fp32 .nan
    else fp32 (addVal 0 (ofFp32 old) (scaleVal ((xa : Int) + xb - 254) v))

/-- The 1,024 elements of a tile, made by row and column. -/
def buildTile (f : Nat → Nat → Nat) : Nat := packElems 32 ((upTo 1024).map fun i => f (i / 32) (i % 32))

/-- The bytes a source supplies and the core that has given them; none where a feed stopped short. -/
def Core.takeOperand (c : Core) (n : Nat) : Src → Option Nat × Core
  | .reg r => (some (c.wide r).toNat, c)
  | .feed x =>
    let t := c.stream x
    if n ≤ t.feed.length then (some (ofLe (t.feed.take n)), c.setStream x { t with feed := t.feed.drop n })
    else (none, c.setStream x { t with feed := [] })

/-- A feed moved until it holds `n` bytes, or can not go on. -/
def State.fillFeed (s : State) (core n : Nat) : Src → State
  | .reg _ => s
  | .feed x =>
    let t := (s.core core).stream x
    if n ≤ t.feed.length then s else s.streamTo core x (t.moved + (n - t.feed.length + 63) / 64 * 64)

/-- A source still owes bytes that may yet come. -/
def Core.owes (c : Core) (n : Nat) : Src → Bool
  | .reg _ => false
  | .feed x => c.runs x && decide ((c.stream x).feed.length < n)

/-- The wide registers that sources name. -/
def srcRegs : List Src → List Nat
  | [] => []
  | .reg r :: l => r :: srcRegs l
  | .feed _ :: l => srcRegs l

/-- MMA (R294): A times B added into the tile. -/
def execMma (core : Fin 32) (f : Fields) (s : State) : Host.Outcome State Fault Refusal :=
  let fa := f.x.toNat / 2 ^ 20
  let fb := f.x.toNat / 2 ^ 16 % 16
  let mx := isMx fa || isMx fb
  let group := f.x.toNat / 2 ^ 13 % 8
  let m := f.mod.toNat
  let sa := srcOf (bitOf m 1) f.a.toNat
  let sb := srcOf (bitOf m 0) f.b.toNat
  let ctxOk (feed : Bool) (r : BitVec 6) : Bool := !feed || decide (r.toNat < 8)
  let u : Uses := { mod := 0xFF, a := true, b := true, c := mx, x := if mx then 0xFFE000 else 0xFF0000 }
  let ck := orFormat (fieldCheck f u [] (ctxOk (bitOf m 1) f.a && ctxOk (bitOf m 0) f.b))
    (decide (fa ≠ 15) && decide (fb ≠ 15) && decide (isInt fa = isInt fb))
  let c := s.core core
  let ck := match ck with | some e => some e | none => if sa.feedOk c && sb.feedOk c then none else some fFeed
  let k := min (groupK fa) (groupK fb)
  let na := operandBytes fa k
  let nb := operandBytes fb k
  let same := decide (sa = sb)
  let s' := if s.issues core && ck.isNone then
      if same then s.fillFeed core (na + nb) sa else (s.fillFeed core na sa).fillFeed core nb sb
    else s
  s'.issue core ck (srcRegs [sa, sb] ++ if mx then [f.c.toNat] else []) fun c =>
    let short := if same then c.owes (na + nb) sa else c.owes na sa || c.owes nb sb
    if short then .wait
    else
      let (a, c) := c.takeOperand na sa
      let (b, c) := c.takeOperand nb sb
      match a, b with
      | some a, some b =>
        let old := if bitOf m 3 then 0 else (c.tile (tileOf f)).toNat
        let scales := (c.wide f.c.toNat).toNat / 2 ^ (512 * group)
        .done (c.setTile (tileOf f) (buildTile fun r col =>
          mmaElem fa fb k (bitOf m 2) a b scales (tileElem old r col) r col))
      | _, _ => .done c

/- ## Tiles (R297) -/

/-- The eight registers from a register on. -/
def eightFrom (r : Nat) : List Nat := (upTo 8).map (r + ·)

/-- A check, then a register group's end (R308). -/
def orRange (ck : Option Nat) (ok : Bool) : Option Nat := match ck with | some e => some e | none => if ok then none else some fRange

/-- MVAW: the tile to w[D] to w[D+7]. -/
def execMvaw (core : Fin 32) (f : Fields) (s : State) : Host.Outcome State Fault Refusal :=
  s.issue core (orRange (fieldCheck f { mod := 0xF0, d := true } []) (decide (f.d.toNat ≤ 56))) (eightFrom f.d.toNat) fun c =>
    let t := (c.tile (tileOf f)).toNat
    .done ((upTo 8).foldl (fun c j => c.setWide (f.d.toNat + j) (BitVec.ofNat 4096 (t / 2 ^ (4096 * j)))) c)

/-- MVWA: the tile from w[A] to w[A+7]. -/
def execMvwa (core : Fin 32) (f : Fields) (s : State) : Host.Outcome State Fault Refusal :=
  s.issue core (orRange (fieldCheck f { mod := 0xF0, a := true } []) (decide (f.a.toNat ≤ 56))) (eightFrom f.a.toNat) fun c =>
    .done (c.setTile (tileOf f) (packElems 4096 ((eightFrom f.a.toNat).map fun r => (c.wide r).toNat)))

/-- MVAT: the tile to 4 KiB of the tile store. -/
def execMvat (core : Fin 32) (f : Fields) (s : State) : Host.Outcome State Fault Refusal :=
  s.issue core (fieldCheck f { mod := 0xF0, a := true, imm := allImm } [f.a]) [] fun c =>
    let a := c.addr f.a.toNat f.imm
    if tileOk a 4096 64 then .done (c.store a 4096 (c.tile (tileOf f)).toNat) else .fault fTile

/-- MVTA: the tile from 4 KiB of the tile store. -/
def execMvta (core : Fin 32) (f : Fields) (s : State) : Host.Outcome State Fault Refusal :=
  s.issue core (fieldCheck f { mod := 0xF0, a := true, imm := allImm } [f.a]) [] fun c =>
    let a := c.addr f.a.toNat f.imm
    if tileOk a 4096 64 then .done (c.setTile (tileOf f) (c.load a 4096)) else .fault fTile

/-- TCLR: the tile cleared. -/
def execTclr (core : Fin 32) (f : Fields) (s : State) : Host.Outcome State Fault Refusal :=
  s.issue core (fieldCheck f { mod := 0xF0 } []) [] fun c => .done (c.setTile (tileOf f) 0)

/-- How many elements of a tile pass. -/
def tileCount (t : Nat) (p : Nat → Bool) : Nat := ((upTo 1024).filter fun i => p (tileElem t (i / 32) (i % 32))).length

/-- TSTAT: NaN and Inf elements read as FP32, and elements at an INT32 limit. -/
def execTstat (core : Fin 32) (f : Fields) (s : State) : Host.Outcome State Fault Refusal :=
  s.issue core (fieldCheck f { mod := 0xF0, d := true } [f.d]) [] fun c =>
    let t := (c.tile (tileOf f)).toNat
    let nans := tileCount t fun b => decide (ofFp32 b = .nan)
    let infs := tileCount t fun b => decide (ofFp32 b = .inf false) || decide (ofFp32 b = .inf true)
    let sats := tileCount t fun b => decide (b = 0x7FFFFFFF) || decide (b = 0x80000000)
    .done (c.setS f.d.toNat (BitVec.ofNat 64 (nans + infs * 2 ^ 16 + sats * 2 ^ 32)))

/- ## Softmax and 2^x (R301, R302) -/

/-- FP32 a − b, rounded to nearest even. -/
def sub32 (a b : Val) : Val := ofFp32 (fp32 (addVal 0 a (negVal b)))

/-- The maximum of values of which one NaN makes the result NaN. -/
def maxNan (a b : Val) : Val := if a = .nan ∨ b = .nan then .nan else maxVal a b

/-- One row of SMX (R301): m and l, the valid scores and what to draw from for 2^x. Answers the new m and l, the factor f, and the
terms of the row. -/
def smxRow (pick : Nat → Nat) (m l : Val) (scores : List Val) : Val × Val × Val × List Val :=
  let top := scores.foldl maxNan m
  let new := if scores.any (· = .inf false) then .nan else top
  let f := if m = new ∧ new = .inf true then .fin false 1 0 else ofFp32 (exp2Fp32 (pick 32) (sub32 m new))
  let terms := scores.zipIdx.map fun x => ofFp32 (exp2Fp32 (pick x.2) (sub32 x.1 new))
  let sum := terms.foldl (addVal 0) (mulVal l f)
  (new, ofFp32 (fp32 sum), f, terms)

/-- SMX (R301): one online-softmax step over the score tile; a free value is drawn for its 2^x. -/
def execSmx (core : Fin 32) (f : Fields) (s : State) : Host.Outcome State Fault Refusal :=
  let pf := Fields.fmt f
  let mask := f.imm.toNat % 65536
  let ncol := f.imm.toNat / 65536
  let regs := if pf = 3 then 2 else 4
  let cols := 32 / regs
  let ck := orFormat (fieldCheck f { mod := 0xF0, a := true, d := true, x := 0xF00000, imm := 0x3FFFFF } [])
    (decide (pf = 3) || decide (pf = 2))
  let ck := orRange ck (!bitOf mask (tileOf f) && decide (1 ≤ ncol) && decide (ncol ≤ 32) && decide (f.d.toNat + regs ≤ 64))
  let (n, s) := if s.issues core && ck.isNone then s.draw else (0, s)
  s.issue core ck (f.a.toNat :: (upTo regs).map (f.d.toNat + ·)) fun c =>
    let t := (c.tile (tileOf f)).toNat
    let ml := (c.wide f.a.toNat).toNat
    let row (r : Nat) : Val × Val × Val × List Val :=
      smxRow (fun i => Config.exp2Pick n (64 * r + i)) (valOf 0 (element 0 ml r)) (valOf 0 (element 0 ml (32 + r)))
        ((upTo ncol).map fun i => ofFp32 (tileElem t r i))
    let rows := (upTo 32).map row
    let ms := rows.map fun x => fp32 x.1
    let ls := rows.map fun x => fp32 x.2.1
    let fs := rows.map fun x => x.2.2.1
    let ps (j : Nat) : List Nat := rows.flatMap fun x =>
      (upTo cols).map fun i => encodeVal pf 0 false (x.2.2.2.getD (j * cols + i) (.fin false 0 0))
    let c := c.setWide f.a.toNat (BitVec.ofNat 4096 (putElems ml 32 (ms ++ ls)))
    let c := (upTo regs).foldl (fun c j => c.setWide (f.d.toNat + j) (BitVec.ofNat 4096 (packElems (widthOf pf) (ps j)))) c
    let scale (c : Core) (t : Nat) : Core :=
      let old := (c.tile t).toNat
      c.setTile t (buildTile fun r k => fp32 (mulVal (ofFp32 (tileElem old r k)) (fs.getD r .nan)))
    .done (((upTo 16).filter (bitOf mask)).foldl scale c)

/-- EXP2: w[D] takes 2^w[A] elementwise (R302); a free value is drawn for FP32. -/
def execExp2 (core : Fin 32) (f : Fields) (s : State) : Host.Outcome State Fault Refusal :=
  let ty := Fields.fmt f
  let ck := orFormat (fieldCheck f { mod := 0xC0, d := true, a := true, x := 0xF00000 } []) (decide (ty = 0) || decide (ty = 2))
  let (n, s) := if s.issues core && ck.isNone then s.draw else (0, s)
  s.issue core ck [f.d.toNat, f.a.toNat] fun c =>
    let v := (c.wide f.a.toNat).toNat
    let one (i : Nat) : Nat :=
      let x := valOf ty (element ty v i)
      if ty = 0 then exp2Fp32 (Config.exp2Pick n i) x else encodeVal 2 0 false (exp2Val x)
    .done (c.setWide f.d.toNat (BitVec.ofNat 4096 (packElems (widthOf ty) ((upTo (countOf ty)).map one))))

/- ## Top-k (R303) -/

/-- TKINIT: an empty record of K = s[B]. -/
def execTkinit (core : Fin 32) (f : Fields) (s : State) : Host.Outcome State Fault Refusal :=
  s.issue core (fieldCheck f { mod := 0xC0, a := true, b := true, imm := allImm } [f.a, f.b]) [] fun c =>
    let a := c.addr f.a.toNat f.imm
    let k := (c.sreg f.b.toNat).toNat
    if !tileOk a 64 64 then .fault fTile
    else if k = 0 ∨ 256 < k then .fault fTopk
    else if !tileOk a (64 + 8 * k) 64 then .fault fTile
    else .done (c.store a 64 k)

/-- An entry of a record comes before another: by value descending, then by index ascending (R303). -/
def topBefore (x y : Nat × Nat) : Bool :=
  let a := ofFp32 x.1
  let b := ofFp32 y.1
  ltVal b a || (!ltVal a b && decide (x.2 < y.2))

/-- An element offered to a record of at most k entries; NaN is skipped (R303). -/
def topOffer (k : Nat) (l : List (Nat × Nat)) (x : Nat × Nat) : List (Nat × Nat) :=
  if ofFp32 x.1 = .nan then l
  else
    let l' := l.takeWhile (fun e => !topBefore x e) ++ x :: l.dropWhile fun e => !topBefore x e
    l'.take k

/-- TOPK: every element of w[A] offered to the record at s[C] + IMM (R303). -/
def execTopk (core : Fin 32) (f : Fields) (s : State) : Host.Outcome State Fault Refusal :=
  let ty := Fields.fmt f
  let u : Uses := { mod := 0xC0, a := true, b := true, c := true, x := 0xF00000, imm := allImm }
  let ck := orFormat (fieldCheck f u [f.b, f.c]) (decide (ty = 0) || decide (ty = 2))
  s.issue core ck [f.a.toNat] fun c =>
    let at_ := c.addr f.c.toNat f.imm
    if !tileOk at_ 64 64 then .fault fTile
    else
      let k := c.load at_ 4
      let n := c.load (at_ + 4) 4
      if k = 0 ∨ 256 < k ∨ k < n then .fault fTopk
      else if !tileOk at_ (64 + 8 * k) 64 then .fault fTile
      else
        let old := (upTo n).map fun i => (c.load (at_ + 64 + 8 * i) 4, c.load (at_ + 68 + 8 * i) 4)
        let v := (c.wide f.a.toNat).toNat
        let base := (c.sreg f.b.toNat).toNat
        let offer (i : Nat) : Nat × Nat := (element ty v i * (if ty = 0 then 1 else 65536), (base + i) % 2 ^ 32)
        let new := ((upTo (countOf ty)).map offer).foldl (topOffer k) old
        let c := c.store (at_ + 4) 4 new.length
        .done (c.store (at_ + 64) (8 * new.length) (packElems 64 (new.map fun e => e.1 + e.2 * 2 ^ 32)))

end Sys2Proof.Machine
end

