-- ==== Sys2Proof/Machine/StreamOps.lean ====
section
/-!
DEFINITION. Sys2Proof/Machine/StreamOps.lean: the stream instructions (R304, R305).
-/

namespace Sys2Proof.Machine

/-- The context a stream instruction names: MOD [119:117]. -/
def ctxOf (f : Fields) : Nat := f.mod.toNat / 32

/-- A descriptor that SCFG accepts (R304). -/
def Stream.valid (t : Stream) : Bool :=
  decide (t.base % 64 = 0) && decide (0 < t.length) && decide (t.length % 64 = 0) && decide (t.length ≤ 2 ^ 40)
    && (decide (t.stride = 0)
      || (decide (0 < t.row) && decide (t.row % 64 = 0) && decide (t.row ≤ t.stride) && decide (t.length % t.row = 0)))
    && (!t.write || decide (t.target = 2))
    && (decide (t.target ≠ 2) || (decide (t.off + t.length ≤ tileBytes) && decide (t.off % 64 = 0)))
    && (decide (t.target ≠ 1) || (decide (t.length % 512 = 0) && decide (t.off + t.length / 512 ≤ 64)))

/-- SCFG: the context's descriptor; it becomes IDLE. -/
def execScfg (core : Fin 32) (f : Fields) (s : State) : Host.Outcome State Fault Refusal :=
  let imm := f.imm.toNat
  let target := imm / 2 ^ 61 % 4
  let used := 0xE000000000000000 + (match target with | 0 => 0 | 1 => 63 | _ => 0x1FFFFF)
  let ck := fieldCheck f { mod := 0xE0, a := true, b := true, c := true, imm := used } [f.a, f.b, f.c] (decide (target ≠ 3))
  s.issue core ck [] fun c =>
    let x := ctxOf f
    let st := (c.sreg f.c.toNat).toNat
    let t : Stream := { Stream.init with
      configured := true, write := bitOf imm 63, base := (c.sreg f.a.toNat).toNat, length := (c.sreg f.b.toNat).toNat,
      stride := st / 2 ^ 32, row := st % 2 ^ 32, target := target, off := imm % 2 ^ 21 }
    if c.runs x then .fault fBusy else if !t.valid then .fault fStream else .done (c.setStream x t)

/-- SGO: a stream starts from BASE, or after ABSENT or HELD goes on from its stop; re-issued at or after its ready stamp, in this step or a later one,
it is not stopped again for the same reason (R96, R262, R305). -/
def execSgo (core : Fin 32) (f : Fields) (s : State) : Host.Outcome State Fault Refusal :=
  s.issue core (fieldCheck f { mod := 0xE0 } []) [] fun c =>
    let x := ctxOf f
    let t := c.stream x
    if !t.configured then .fault fStream
    else if c.runs x then .fault fBusy
    else if t.status = ssAbsent ∨ t.status = ssHeld then
      let skip := if t.ready ≤ s.now then t.why else none
      .done (c.setStream x { t with status := ssRun, ready := 0, why := none, skip := skip })
    else .done (c.setStream x { t with status := ssRun, moved := 0, feed := [], ready := 0, why := none, skip := none })

/-- SWAIT: waits until s[A] bytes have moved or the context is not in RUN; s[D] takes the status word. -/
def execSwait (core : Fin 32) (f : Fields) (s : State) : Host.Outcome State Fault Refusal :=
  let x := ctxOf f
  let ck := fieldCheck f { mod := 0xE0, d := true, a := true } [f.d, f.a]
  let c := s.core core
  let goal := (c.sreg f.a.toNat).toNat
  let s' := if s.issues core && ck.isNone then s.streamTo core x goal else s
  s'.issue core ck [] fun c =>
    let t := c.stream x
    if t.status = ssRun ∧ t.moved < goal then .wait else .done (c.setS f.d.toNat (BitVec.ofNat 64 t.word))

/-- SSTAT: the status word, the bytes moved or READY_STAMP. -/
def execSstat (core : Fin 32) (f : Fields) (s : State) : Host.Outcome State Fault Refusal :=
  let what := f.imm.toNat
  s.issue core (fieldCheck f { mod := 0xE0, d := true, imm := 3 } [f.d] (decide (what ≠ 3))) [] fun c =>
    let t := c.stream (ctxOf f)
    let v := match what with
      | 0 => t.word
      | 1 => t.moved
      | _ => if t.ready < 2 ^ 64 - 1 then s.shown t.ready else t.ready
    .done (c.setS f.d.toNat (BitVec.ofNat 64 v))

/-- SSTOP: the stream stops where it stands; the context becomes IDLE. -/
def execSstop (core : Fin 32) (f : Fields) (s : State) : Host.Outcome State Fault Refusal :=
  s.issue core (fieldCheck f { mod := 0xE0 } []) [] fun c =>
    let t := c.stream (ctxOf f)
    .done (c.setStream (ctxOf f) { t with status := ssIdle, feed := [], ready := 0, why := none })

end Sys2Proof.Machine
end

