-- ==== Sys2Proof/Machine/Leases.lean ====
section
/-!
DEFINITION. Sys2Proof/Machine/Leases.lean: what happens to steps and leases at a course boundary: overruns, leases and the start of
steps (R264 to R266, R270 to R273), and the calls that a Brace ends (R269).
-/

namespace Sys2Proof.Machine

/-- A core that is retired while a step runs there (R264): the call ends FATAL, detail 3. -/
def State.loseStep (s : State) (core : Nat) : State :=
  let c := s.core core
  match c.call with
  | none => s
  | some id => (s.stepOver core).endCall id ⟨1, core, s.time.course - 1, 8, 3, 0, c.result⟩

/-- A step that has not ended by its course boundary (R266). -/
def State.overrun (s : State) (core : Nat) : State :=
  let c := s.core core
  match c.call with
  | none => s
  | some id =>
    let s := (s.stepOver core).updCore core fun c => { c with overruns := c.overruns + 1 }
    let s := s.endCall id ⟨2, core, s.time.course - 1, 6, 0, core, c.result⟩
    s.raise { code := 0x8001, sev := 2, unit := srcRoom (c.room.getD 0),
              args := leBytes 4 id ++ leBytes 1 core ++ leBytes 2 (c.cycles - c.setup) ++ leBytes 4 c.index }

/-- The steps that the boundary finds running (R264, R266): those of retired cores, then the others. -/
def State.endSteps (s : State) : State :=
  let run (s : State) : List Nat := (upTo 32).filter fun n => (s.core n).running
  let s := (run s).foldl (fun s n => if s.coreGone n then s.loseStep n else s) s
  (run s).foldl State.overrun s

/-- A core in service: its function is On and it is not retired. -/
def State.coreIn (s : State) (n : Nat) : Bool :=
  (if h : n < 32 then decide ((s.fn (.core ⟨n, h⟩)).state = Fn.on) else false) && !s.coreGone n

/-- The estimate of a call's bytes a step (R271): the mean of its last eight, or its image's figure; none with neither. -/
def State.stepBytes (s : State) (cl : Call) : Option Nat :=
  if 8 ≤ cl.bytes.length then some (cl.bytes.sum / cl.bytes.length)
  else
    let e := match cl.prog.bind fun p => s.cores.progs.find? fun x => x.serial = p with
      | some p => imageStepBytes p.image | none => 0
    if e = 0 then none else some e

/-- The order in which calls are served (R270): by class, then by admission stamp. -/
def callBefore (a b : Call) : Bool := decide (a.cls < b.cls) || (decide (a.cls = b.cls) && decide (a.accepted < b.accepted))

/-- How good a core is for a call (R270): the same call last course, a warm core of the room, the region of most of its bytes. -/
def State.coreRank (s : State) (cl : Call) (n : Nat) : Nat :=
  let c := s.core n
  let most := cl.flow.foldl max 0
  let region := (upTo 4).find? fun r => cl.flow.getD r 0 = most
  if c.lastCall = some cl.id then 0
  else if c.holds = some cl.room then 1
  else if most ≠ 0 ∧ region = some (n / 8) then 2 else 3

/-- The first `n` cores by rank and number, in ascending number. -/
def State.pickCores (s : State) (cl : Call) (free : List Nat) (n : Nat) : List Nat :=
  let order := (upTo 4).flatMap fun r => free.filter fun c => s.coreRank cl c = r
  let got := order.take n
  (upTo 32).filter fun c => got.contains c

/-- A step starts on a core (R255, R265, R272, R273): `rank` of `n` cores of the call. -/
def State.startStep (s : State) (cl : Call) (core rank n index : Nat) : State :=
  let c := s.core core
  let warm := decide (c.holds = some cl.room)
  let setup := if warm then 64 else 64 + 1024
  let ts := (if warm then c.ts else []).writeBytes 0 (fit 256 cl.args)
  let img := match cl.prog.bind fun p => s.cores.progs.find? fun x => x.serial = p with | some p => p.image | none => []
  let s3 := rank + n * 2 ^ 8 + bit01 warm * 2 ^ 16 + core * 2 ^ 17
  let regs := [0, cl.id, index, s3, s.cyclesOf core - setup, s.shown (stampOf s.time.course 0)] ++ List.replicate 26 0
  s.setCore core { Core.init with
    call := some cl.id, room := some cl.room, holds := some cl.room, lastCall := c.lastCall, running := true, index := index,
    warm := warm, setup := setup, pc := imageEntry img, words := imageWords img, s := regs.map (BitVec.ofNat 64), ts := ts,
    steps := c.steps + 1, overruns := c.overruns, colds := c.colds + bit01 (!warm), cycles := s.cyclesOf core }

/-- Steps started on the cores a call is leased, in ascending core number (R265). -/
def State.startSteps (s : State) (cl : Call) (n : Nat) : Nat → List Nat → State
  | _, [] => s
  | rank, c :: cs => (s.startStep cl c rank n (cl.steps + rank)).startSteps cl n (rank + 1) cs

/-- Leases granted to calls in order from the free cores (R270, R271); `used` is what each (room, class) pair's cores are
estimated to move. -/
def State.leaseTo (s : State) (free : List Nat) (used : Tbl Nat) : List Call → State
  | [] => s
  | cl :: rest =>
    let key := 8 * cl.room + cl.cls
    let first := (Tbl.find used key).isNone
    let spent := Tbl.get used key 0
    let share := (s.pair cl.room cl.cls).share
    let cap := match s.stepBytes cl with
      | none => 1
      | some 0 => 32
      | some e => (share - spent) / e
    let cap := if first then max 1 cap else cap
    let n := min (min cl.cores (cl.budget - cl.steps)) (min cap free.length)
    let used := Tbl.put used key (spent + n * (s.stepBytes cl).getD 0)
    let got := s.pickCores cl free n
    let s := s.updCall cl.id fun c => { c with steps := c.steps + n, more := false, moreAfter := false, kept := 0,
                                               flow := [0, 0, 0, 0] }
    (s.startSteps cl n 0 got).leaseTo (free.filter fun c => !got.contains c) used rest

/-- The leases of a course (R270): the old ones end, then the READY calls are served in order; one accepted too late for this boundary is none of its
inputs (R47). -/
def State.leases (s : State) : State :=
  let clear (s : State) (n : Nat) : State := if (s.core n).call.isSome ∨ (s.core n).lastCall.isSome then
      s.updCore n fun c => { c with lastCall := c.call, call := none, room := none } else s
  let s := (upTo 32).foldl clear s
  let ready := sortBy callBefore (s.cores.calls.filter fun c => decide (c.mode = CallMode.ready) && c.prog.isSome && decide (decisionAt c.accepted ≤ s.now))
  let ran (id : Nat) : Nat := ((upTo 32).filter fun n => (s.core n).lastCall = some id).length
  let s := s.setCalls (s.cores.calls.map fun c => if c.mode = .ended ∧ c.last = 0 then c else { c with last := ran c.id })
  s.leaseTo ((upTo 32).filter s.coreIn) [] ready

/-- Brace ends every call (R264, R269): running steps stop at once, CALL_VOID is written for each call not ENDED, and its
completion line is owed at S13. A line that an earlier Brace left owing stays owed. -/
def State.voidCalls (s : State) : State :=
  let s := (upTo 32).foldl (fun s n => if (s.core n).running then s.stepOver n else s) s
  let open_ := s.cores.calls.filter fun c => decide (c.mode ≠ CallMode.ended) && !s.owes c
  let ev (c : Call) : Ev :=
    { code := 0x8004, sev := 2, unit := srcRoom c.room, args := leBytes 4 c.id ++ leBytes 5 c.line ++ leBytes 3 c.steps }
  let s := s.setCores { s.cores with
    calls := s.cores.calls.map fun c => { c with mode := .ended }
    voids := s.cores.voids ++ open_.map fun c => (c.room, c.line, c.id, c.steps) }
  s.raiseAll (open_.map ev)

end Sys2Proof.Machine
end

