-- ==== Sys2Proof/Machine/Functions.lean ====
section
/-!
DEFINITION. Sys2Proof/Machine/Functions.lean: function states (R457 to R461): the requests that enable and disable, what a boundary
makes of them, and the work of starting and stopping of ports, cores, rooms, stairs, the scrubber and Cellar channels.
-/

namespace Sys2Proof.Machine

/-- The word a function-state entry reads (R457). -/
def FnWord.word (w : FnWord) : Nat :=
  w.cause * 256 + bit01 w.held * 16 + bit01 w.pendDis * 8 + bit01 w.pendEn * 4 + w.state.code

/-- FUNCTION_REFUSED (R463): 1 HELD, 2 prerequisite, 3 last Companion port, 4 stripe set. -/
def State.fnRefused (s : State) (f : FnId) (cause : Nat) : State :=
  s.raise { code := 0x2002, sev := 1, unit := srcKeeper, args := leBytes 1 (fnKind f) ++ leBytes 1 (fnInst f) ++ leBytes 1 cause }

/-- The entry of a function's state, with its instance. -/
def fnEnt : FnId → Ent × Nat × Nat
  | .port p => (.portFunction, 0, p.val)
  | .core c => (.coreFunction, 0, c.val)
  | .room k => (.roomFunction, 0, k.val)
  | .stair t => if t.val < 128 then (.stairFunction, 0, t.val) else (.stairFunctionHi, 0, t.val - 128)
  | .scrubber => (.scrubFunction, 0, 0)
  | .cellar c => (.cellarChannelFunction, 0, c.val)

/- ## Requests (R457 to R459) -/

/-- A disable would leave no Companion port On (R460): no other is On with its request still enable. -/
def State.lastCompanion (s : State) (p : Fin 32) : Bool :=
  decide (s.roleOf p = .companion) && decide ((s.fn (.port p)).state = .on) &&
  !(upTo 32).any fun q => if h : q < 32 then
      decide (q ≠ p.val) && decide (s.roleOf q = .companion) && decide ((s.fn (.port ⟨q, h⟩)).state = .on)
        && (s.fn (.port ⟨q, h⟩)).want
    else false

/-- A write of a function-state entry (R457, R459, R460): 1 enables, 0 disables, another value is refused. -/
def actFunction (f : FnId) (v : Nat) : Act := fun s =>
  let last := match f with | .port p => decide (v = 0) && s.lastCompanion p | _ => false
  if 1 < v then (rNo stRefused, s)
  else if last then (rNo stState, s.fnRefused f 3)
  else
    let on := decide (v = 1)
    let w := { s.fn f with want := on }
    match w.state with
    | .starting => (rOk, s.setFn f { w with pendDis := !on })
    | .stopping => (rOk, s.setFn f { w with pendEn := on })
    | _ => (rOk, s.setFn f { w with latched := some (on, s.decidedAt) })

/-- A function-state entry written. -/
def State.fnWrite (s : State) (rq : Rq) (f : FnId) (v : Nat) : State :=
  let (e, i, j) := fnEnt f
  s.odWrite rq e i j (leBytes 2 v) noCalls (actFunction f v)

/-- FUNCTION_ENABLE as a command. -/
def execFunctionEnable (rq : Rq) (fn : FnId) (s : State) : Host.Outcome State Fault Refusal := .next (s.fnWrite rq fn 1)

/-- FUNCTION_DISABLE as a command. -/
def execFunctionDisable (rq : Rq) (fn : FnId) (s : State) : Host.Outcome State Fault Refusal := .next (s.fnWrite rq fn 0)

/- ## Prerequisites (R108, R151, R460) -/

/-- A room can start (R108, R408): an owner port, a window, a loaded key, and the module is Fielded. A Lock does not bar it: its requests are
answered DENIED (R431). -/
def State.roomReady (s : State) (k : Nat) : Bool :=
  decide (s.owners k ≠ 0) && !(s.windows k).isEmpty && (Tbl.find s.sec.keys k).isSome && decide (s.lifecycle = 2)

/-- A stair can start (R151): it has a room, every step lies in windows of it (which do not overlap), in deadline mode each has a deadline, and k does not
exceed LOOKAHEAD_MAX. -/
def State.stairReady (s : State) (t : Nat) : Bool :=
  let room := s.val .stairRoom t 0
  let steps := s.stairSteps t
  let inWindow (r : Nat × Nat) : Bool := decide (r.1 % 4096 = 0) && decide (r.2 % 4096 = 0) && decide (r.2 ≠ 0) &&
    decide (((s.windows room).map fun w =>
      min (r.1 + r.2) (s.val .windowBase room w + s.val .windowSize room w) - max r.1 (s.val .windowBase room w)).sum = r.2)
  decide (room < 64) && !steps.isEmpty && steps.all (fun l => l.all inWindow)
    && (!s.stairTimed t || (upTo steps.length).all fun m => decide (s.stairDeadline t m ≠ 0))
    && decide (1 ≤ s.val .stairLookahead t 0) && decide (s.val .stairLookahead t 0 ≤ s.stairMax t)

/-- Another channel of a Cellar channel's stripe set is Off or rebuilding (R336, R460). -/
def State.stripeBusy (s : State) (c : Nat) : Bool :=
  (upTo 32).any fun o => if h : o < 32 then
      decide (o ≠ c) && decide (o % 2 = c % 2)
        && (decide ((s.fn (.cellar ⟨o, h⟩)).state = .off) || decide ((s.cchan o).mode = .rebuilding))
    else false

/-- A room that the Steward's enable brings back though the module holds it Off: by the start ledger at S13, or its flush list lost (R402,
R469). -/
def State.releasable (s : State) (f : FnId) : Bool :=
  match f with
  | .room k => decide ((s.fn (.room k)).cause = 3) || decide ((s.fn (.room k)).cause = 8)
  | _ => false

/-- Why a function may not start, coded as FUNCTION_REFUSED has it (R459, R460); 0 when it may. -/
def State.fnBar (s : State) (f : FnId) : Nat :=
  if (s.fn f).held && !s.releasable f then 1
  else match f with
    | .port p => if s.wantedRole p = .off then 2 else 0
    | .core c => if s.coreGone c then 2 else 0
    | .room k => if s.roomReady k then 0 else 2
    | .stair t => if s.stairReady t then 0 else 2
    | .scrubber => 0
    | .cellar c => if s.stripeBusy c then 4 else 0

/- ## Starting and stopping (R77, R108, R156, R460, R461) -/

/-- A function enters Starting, and its work begins: a port takes its role and trains; a core's tile store is zeroed; a stair's first
steps are issued; a Cellar channel is calibrated and trained. -/
def State.fnBegin (s : State) (f : FnId) (cause : Nat) : State :=
  let s := match f with
    | .port p => s.updPort p fun q => { q with role := s.wantedRole p }
    | _ => s
  let s := s.fnTo f { s.fn f with state := .starting, cause := cause, held := false, latched := none, pendDis := false, pendEn := false }
  match f with
  | .port p => if (s.port p).link = .loopback then s else s.updPort p fun q => { q with link := .detect, since := s.now, retry := false }
  | .core c => s.updCore c fun x => { x with ts := [], holds := none }
  | .stair t => (s.setStair t { Stair.init with k := s.val .stairLookahead t 0, passStart := s.now }).issueAhead t
  | .cellar c => s.setCchan c { s.cchan c with mode := .training }
  | _ => s

/-- A function enters Stopping by command (R459). -/
def State.fnStop (s : State) (f : FnId) (cause : Nat) : State :=
  s.fnTo f { s.fn f with state := .stopping, cause := cause, latched := none, pendDis := false, pendEn := false }

/-- A function is enabled at a boundary, or at the step of a start that owns it (R458, R459). -/
def State.fnEnable (s : State) (f : FnId) (cause : Nat) : State :=
  let why := s.fnBar f
  if why = 0 then s.fnBegin f cause else (s.setFn f { s.fn f with latched := none }).fnRefused f why

/-- A latched request acted on at its boundary (R459). -/
def State.fnLatched (s : State) (f : FnId) : State :=
  let w := s.fn f
  match w.latched with
  | none => s
  | some (on, due) =>
    if s.now < due then s
    else match w.state, on with
      | .off, true => s.fnEnable f 0
      | .on, false => s.fnStop f 0
      | .starting, _ => s.setFn f { w with latched := none, pendDis := !on }
      | .stopping, _ => s.setFn f { w with latched := none, pendEn := on }
      | _, _ => s.setFn f { w with latched := none }

/-- Every function, in the order of their kinds. -/
def allFns : List FnId :=
  (List.finRange 32).map FnId.port ++ (List.finRange 32).map FnId.core ++ (List.finRange 64).map FnId.room
    ++ (List.finRange 256).map FnId.stair ++ [FnId.scrubber] ++ (List.finRange 32).map FnId.cellar

/-- A room that has left On takes its stairs and its unshelves with it (R156, R224). -/
def State.followRoom (s : State) (k : Fin 64) : State :=
  if (s.fn (.room k)).state ≠ .stopping then s
  else
    let s := s.voidUnshelve k
    (List.finRange 256).foldl (fun s t =>
      let w := s.fn (.stair t)
      if s.val .stairRoom t 0 ≠ k.val then s
      else match w.state with
        | .on => s.fnStop (.stair t) 0
        | .starting => s.setFn (.stair t) { w with pendDis := true }
        | _ => s) s

/-- The function states at a course boundary. -/
def State.boundaryFns (s : State) : State :=
  (List.finRange 64).foldl State.followRoom (allFns.foldl State.fnLatched s)

/-- The starting work of a function is done: a link is Up; for a core, a room or a stair the next boundary has come. -/
def State.startedNow (s : State) (f : FnId) : Bool :=
  match f with
  | .port p => s.isUp p
  | .scrubber => true
  | .cellar _ => true
  | _ => decide (boundaryAfter (s.fn f).since ≤ s.now)

/-- The completion line owed to a call that Brace ended (R269, R223): OUTCOME and DETAIL, STEPS and the course of the Brace; the 48 bytes of a
shelf command's result and its digest line. -/
def State.owedLine (s : State) (room line id outcome detail steps : Nat) (shelf : Option (List Byte)) : Call :=
  { id := id, handle := 0, room := room, line := line, cls := 0, cores := 0, budget := 0, args := [], accepted := s.now, prog := none,
    mode := .ending, steps := steps, kept := 0, more := false, moreAfter := false, last := 0, flow := [], bytes := [],
    ending := some ⟨6, 32, s.shown s.power.braceStamp / 4096, outcome, detail, 0, shelf.getD []⟩, digest := shelf.map fun _ => [] }

/-- The CALL_VOID of a call is found in the tally (R269): one that the rails took with what was not drained is not. -/
def State.voidFound (s : State) (v : Nat × Nat × Nat × Nat) : Bool :=
  s.tally.entries.any fun e => decide (e.code = 0x8004) && decide (e.unit = srcRoom v.1)
    && decide (e.args.take 12 = leBytes 4 v.2.2.1 ++ leBytes 5 v.2.1 ++ leBytes 3 v.2.2.2)

/-- A room comes online: the completion lines that its calls are owed are due (R269), and stay owed until they are written. -/
def State.roomOnline (s : State) (k : Nat) : State :=
  let due (line id : Nat) : Bool := !s.cores.calls.any fun c => c.prog.isNone && decide (c.mode = CallMode.ending) && decide (c.room = k)
    && decide (c.line = line) && decide (c.id = id)
  let mine := s.cores.voids.filter fun v => decide (v.1 = k) && s.voidFound v && due v.2.1 v.2.2.1
  let shelf := s.flush.shelfCalls.filter fun v => decide (v.1 = k) && due v.2.1 v.2.2.1
  let lines := (mine.map fun v => s.owedLine k v.2.1 v.2.2.1 8 4 v.2.2.2 none)
    ++ shelf.map fun v => s.owedLine k v.2.1 v.2.2.1 8 4 0 (some v.2.2.2)
  s.setCalls (s.cores.calls ++ lines)

/-- A function is On. -/
def State.fnOn (s : State) (f : FnId) : State :=
  let w := s.fn f
  let s := s.fnTo f { w with state := .on }
  match f with
  | .room k => s.roomOnline k
  | .cellar c =>
    let k := c.val % 2
    let q := Tbl.get s.cellar.rebuilds k []
    let mine (r : Rebuild) : Bool := decide (r.channel = c.val) && decide (r.ways = (s.cchan c).dies)
    let rest := q.filter fun r => !mine r
    let s := s.setCellar { s.cellar with rebuilds := Tbl.put s.cellar.rebuilds k rest }
    let m : CchMode := if rest.any fun r => r.channel = c.val then .rebuilding else .serving
    let s := s.setCchan c { s.cchan c with mode := m, trainedAt := s.now }
    match q, rest with
    | a :: _, b :: _ => if mine a then s.rebuildItems k b.todo else s
    | _, _ => s
  | _ => s

/-- FUNCTION_STARTED (R459): one with a disable pending goes to Stopping at its safe point instead. -/
def execFunctionStarted (fn : FnId) (s : State) : Host.Outcome State Fault Refusal :=
  .next (if (s.fn fn).state = .starting ∧ !(s.fn fn).pendDis ∧ s.startedNow fn then (s.fnOn fn).retryAll else s)

/-- FUNCTION_SAFE_POINT (R459, R460). -/
def execFunctionSafePoint (fn : FnId) (s : State) : Host.Outcome State Fault Refusal :=
  .next (if (s.fn fn).state = .starting ∧ (s.fn fn).pendDis then s.fnStop fn 0 else s)

/-- Nothing of a room's work remains open (R108), at a boundary. -/
def State.roomIdle (s : State) (k : Nat) : Bool :=
  decide (s.time.pos = 0) && !(s.reqs.opened.any fun r => decide (r.room = k))
    && !(s.cores.calls.any fun c => decide (c.room = k) && decide (c.mode ≠ CallMode.ended))
    && !(s.pubs.waiting.any fun q => decide (q.room = k))
    && !(s.shelves.any fun e => decide (e.2.room = k) && e.2.job.isSome)

/-- Every response that a port is owed has been sent (R77). -/
def State.answered (s : State) (p : Nat) : Bool :=
  let q := s.port p
  !(s.reqs.opened.any fun r => decide (r.port = p) && !r.gone) && !(s.pubs.waiting.any fun x => decide (x.port = p) && !x.gone)
    && !(s.pubs.opens.any fun o => decide (o.port = p) && !o.gone)
    && !(q.tx.any fun m => m.cost.any fun c => decide (c.1 = 4) || decide (c.1 = 5)) && q.slots.isEmpty

/-- The stopping work of a function is done (R77, R108, R156, R460). -/
def State.stoppedNow (s : State) (f : FnId) : Bool :=
  match f with
  | .port p => !s.isLinked p || s.answered p
      || decide ((s.fn f).since + 500 * 4096 ≤ s.now)
  | .core c => !(s.core c).running && decide (boundaryAfter (s.fn f).since ≤ s.now)
  | .room k => s.roomIdle k
  | .stair t => !(s.tier.fetches.any fun x => (x.step.map (·.1)) = some t.val)
  | _ => true

/-- A function goes Off, cause 7; a pending enable is acted on at the next boundary (R459). -/
def State.fnOff (s : State) (f : FnId) : State :=
  let s := match f with
    | .port p => if s.isLinked p then s.portDown p 0 false else s.updPort p fun q => { q with link := .down, since := s.now }
    | .stair t => s.setStair t { s.stair t with k := s.val .stairLookahead t 0, protectedSteps := [], waiting := [], starved := false }
    | .cellar c =>
      let x := s.cchan c
      if s.isRetired (c.val / 8) (cchanUnit c) then s else (s.setCchan c { x with mode := .off }).startRebuild c x.dies
    | _ => s
  let w := s.fn f
  let again : Option (Bool × Nat) := if w.pendEn ∧ !w.held then some (true, boundaryAfter s.now) else none
  s.fnTo f { w with state := .off, cause := 7, pendEn := false, pendDis := false, latched := again }

/-- FUNCTION_STOPPED (R459). -/
def execFunctionStopped (fn : FnId) (s : State) : Host.Outcome State Fault Refusal :=
  .next (if (s.fn fn).state = .stopping ∧ s.stoppedNow fn then (s.fnOff fn).retryAll else s)

end Sys2Proof.Machine
end

