-- ==== Sys2Proof/Machine/Restart.lean ====
section
/-!
DEFINITION. Sys2Proof/Machine/Restart.lean: what a command that restarts the module does at once; the start itself begins with
START_BEGIN (R464).
-/

namespace Sys2Proof.Machine

/-- Every port Down, its function state as it is (R99, R459). -/
def State.portsQuiet (s : State) : State :=
  let s := (upTo 32).foldl (fun s p => s.movesBack p) s
  let s := s.setPorts (Tbl.each s.ports fun _ q =>
    let q' : Port := { q with link := LinkMode.down, since := s.now, width := 0, hold := false, partner := none, announced := [],
                              spent := [], rx := [], odOpen := [], retry := false }
    q'.unsent)
  s.setOd { s.od with sessions := s.od.sessions.filter fun x => match x.arr with | .port _ => false | .relay _ => false | _ => true }

/-- A start is asked for, by its cause (R464): the module leaves the state it is in, and S01 begins as soon as it can. -/
def State.startAsk (s : State) (cause : Nat) : State :=
  let s := (upTo 32).foldl (fun s n => if (s.core n).running then s.stepOver n else s) s.portsQuiet
  let s := s.setStart { s.start with step := 0, waiting := some cause }
  let p := s.power
  s.setPower { p with mode := .starting, quiet := .none, exitAt := none, exitOwed := false }

end Sys2Proof.Machine
end

