-- ==== Sys2Proof/Machine/Security.lean ====
section
/-!
DEFINITION. Sys2Proof/Machine/Security.lean: the lifecycle (R408 to R410), firmware slots (R414 to R418), room keys (R423 to R425) and
alarms (R428 to R433). Attestation stands in Spdm.lean.
-/

namespace Sys2Proof.Machine

/-- The state of the Keystone replaced. -/
def State.updSec (s : State) (f : Sec → Sec) : State := s.setSec (f s.sec)

/- ## Erase (R432) -/

/-- Every request still open is answered FATAL (R99, R432). -/
def State.failOpen (s : State) : State :=
  let open_ := s.reqs.opened
  let s := open_.foldl (fun s r => (s.dropOwn r.port r.room r.line).answerReq r 8 none) (s.setOpen [])
  let s := s.pubs.opens.foldl (fun s o => s.answerPub o.gone o.port o.tag 8 0) s
  s.pubs.waiting.foldl (fun s q => s.answerPub q.gone q.port q.tag 8 0) (s.setPubs { s.pubs with waiting := [], opens := [] })

/-- A room goes Off for an Erase, cause 6 (R459). -/
def State.roomErased (s : State) (k : Fin 64) : State :=
  s.fnTo (.room k) { s.fn (.room k) with state := .off, cause := 6, latched := none, pendDis := false, pendEn := false }

/-- Steps 1 and 2 of an Erase: keys gone, every open request answered FATAL, rooms Off, steps stopped. `sensor` is the one that tripped,
and `target` the lifecycle state that the Erase leads to. An Erase during Brace or Flush stops them and marks the record (R433). -/
def State.eraseNow (s : State) (sensor target : Nat) : State :=
  let s := s.updSec fun x => { x with keys := [], sealing := [], erasing := some (sensor, target), wipe := true }
  let s := s.failOpen
  let s := (List.finRange 64).foldl (fun s k => if (s.fn (.room k)).state = .off then s else s.roomErased k) s
  let s := (upTo 32).foldl (fun s n => if (s.core n).running then s.stepOver n else s) s
  if s.power.mode = .brace ∨ s.power.mode = .flush then
    (s.setPower { s.power with mode := .sealed }).setFlush { s.flush with isOpen := false, list := [], listDone := false }
  else s

/-- What an Erase leaves to no later start (R432 step 4): rooms, windows, shelves, stairs, published regions, tables, programs and
stored key copies are discarded. -/
def State.discardAll (s : State) : State :=
  let roomly (k : Nat) : Bool :=
    let i := k / 256
    decide (0x3400 ≤ i ∧ i < 0x3600) || decide (0x4000 ≤ i ∧ i < 0x4840) || decide (0x5900 ≤ i ∧ i < 0x5B00)
      || decide (0xB100 ≤ i ∧ i < 0xB200)
  let s := s.setOd { s.od with vals := Tbl.keep s.od.vals fun k _ => !roomly k, blobs := Tbl.keep s.od.blobs fun k _ => !roomly k }
  let s := s.setFuncs (Tbl.keep s.funcs fun k _ => decide (k / 1024 ≠ 3) && decide (k / 1024 ≠ 4))
  let s := (((((s.setRooms []).setShelves []).setPubs Pubs.init).setStairs []).setPages []).setLanding []
  let s := (s.setCodec Codec.init).setCores { s.cores with calls := [], progs := [], status := [], voids := [] }
  let s := s.setAdm { Adm.init with commitNo := s.adm.commitNo }
  s.updSec fun x => { x with stored := [], keys := [] }

/-- ERASE_DONE (R432 steps 3 and 4): SEAL_EPOCH advances, the lifecycle entry is burnt, and the module starts again. With only the
reserved entry left it is Scrapped. -/
def execEraseDone (s : State) : Host.Outcome State Fault Refusal :=
  match s.sec.erasing with
  | none => .next s
  | some (sensor, target) =>
    let old := s.lifecycle
    let new := if 31 ≤ s.sec.log.length then 4 else target
    let epoch := min 32 (s.sec.epoch + 1)
    let s := s.updSec fun x => { x with erasing := none, epoch := epoch, log := x.log ++ [new], lockState := 0, locked := false,
                                        keysOff := false, hard := 0, release := none }
    let s := s.raise { code := 0x9012, sev := 3, unit := srcKeystone, args := leBytes 1 sensor ++ leBytes 1 epoch }
    let s := s.raise { code := 0x1001, sev := 1, unit := srcKeystone,
                       args := leBytes 1 old ++ leBytes 1 new ++ leBytes 1 (if sensor = 255 then 1 else 2) }
    .next (s.startAsk (if sensor = 255 then 4 else 6))

/- ## Lifecycle (R410) -/

/-- A lifecycle state that a Bench transition may lead to (R410). -/
def State.lcAllowed (s : State) (target : Nat) : Bool :=
  let left := 32 - s.sec.log.length
  if target = 4 then decide (s.lifecycle ≠ 4)
  else decide (1 < left) &&
    match s.lifecycle, target with
    | 0, 1 => Config.chainsVerify
    | 1, 2 => decide (s.sec.epoch < 32)
    | 2, 3 => true
    | 1, 3 => true
    | 3, 1 => true
    | _, _ => false

/-- LC_ADVANCE (R410): the entry is burnt and the module starts again; from Fielded to Returned an Erase comes first. -/
def actLcAdvance (target : Nat) : Act := fun s =>
  if !s.lcAllowed target ∨ s.sec.erasing.isSome then (rNo stRefused, s)
  else if s.lifecycle = 2 ∧ target = 3 then (rOk, s.eraseNow 255 3)
  else
    let old := s.lifecycle
    let s := s.updSec fun x => { x with log := x.log ++ [target] }
    (rOk, (s.raise { code := 0x1001, sev := 1, unit := srcKeystone,
                     args := leBytes 1 old ++ leBytes 1 target ++ leBytes 1 1 }).startAsk 4)

/-- LC_ADVANCE as a command. -/
def execLcAdvance (rq : Rq) (payload : List Byte) (s : State) : Host.Outcome State Fault Refusal :=
  .next (s.odWrite rq .lcAdvance 0 0 payload noCalls (actLcAdvance (ofLe payload)))

/- ## Firmware (R414 to R418) -/

/-- The byte of an image at an offset; zero past its end. -/
def imageByte (img : List Byte) (a : Nat) : Byte := img.getD a 0

/-- The bytes of an image from `a` on. -/
def imagePart (img : List Byte) (a n : Nat) : List Byte := fit n ((img.drop a).take n)

/-- All bytes of a part are zero. -/
def zeroPart (img : List Byte) (a n : Nat) : Bool := ((img.drop a).take n).all fun b => b = 0

/-- The first check of R415 that an image fails, 1 to 7; 0 when it is accepted. -/
def fwCheck (counter : Nat) (img : List Byte) : Nat :=
  let head := imagePart img 0 512
  let modulus := imagePart img 64 384
  let key := imagePart img 448 48
  let body := img.drop 20480
  let len := ofLe (imagePart img 8 8)
  if imageByte img 0 ≠ 1 ∨ !zeroPart img 2 2 ∨ !zeroPart img 496 16 ∨ !zeroPart img 17120 3360 then 1
  else if sha384 modulus ≠ Config.fwRsaHash then 2
  else if sha384 key ≠ Config.fwPqHash then 3
  else if (imageByte img 1).toNat < counter ∨ 64 < (imageByte img 1).toNat then 4
  else if !Config.rsaVerifies modulus (imagePart img 512 384) head then 5
  else if !Config.pqVerifies key (imagePart img 896 16224) head then 6
  else if body.length ≠ len ∨ len % 4096 ≠ 0 ∨ 33554432 < len ∨ sha384 body ≠ imagePart img 16 48 then 7
  else 0

/-- A firmware slot. -/
def State.slot (s : State) (i : Nat) : FwSlot := s.sec.slots.getD i ⟨.empty, 0, 0, [], false⟩
/-- The state with a firmware slot replaced. -/
def State.setSlot (s : State) (i : Nat) (x : FwSlot) : State := s.updSec fun y => { y with slots := y.slots.set i x }

/-- A slot passes R415 now: its unchanging checks, and check 4 against the counter (R418). -/
def State.slotPasses (s : State) (i : Nat) : Bool :=
  let x := s.slot i
  x.good && decide (x.mode ≠ .empty) && decide (s.sec.counter ≤ x.svn)

/-- The slot FW_STAGE writes (R416): the one that does not run and is not Committed; in recovery no slot runs. -/
def State.stageSlot (s : State) : Option Nat :=
  let other := 1 - s.sec.running
  if (s.slot other).mode ≠ .committed then some other
  else if s.recovering ∧ (s.slot s.sec.running).mode ≠ .committed then some s.sec.running else none

/-- FW_STAGE (R415, R416): the image is written and checked. -/
def actFwStage (img : List Byte) : Act := fun s =>
  match s.stageSlot with
  | none => (rNo stState, s)
  | some i =>
    let why := fwCheck s.sec.counter img
    let svn := (imageByte img 1).toNat
    let release := ofLe (imagePart img 4 4)
    if why = 0 then
      (rOk, (s.setSlot i ⟨.staged, svn, release, imagePart img 16 48, true⟩).raise
        { code := 0x9001, sev := 0, unit := srcKeystone, args := leBytes 1 i ++ leBytes 1 svn ++ leBytes 4 release })
    else
      (rWhy stRefused why, (s.setSlot i ⟨.empty, 0, 0, List.replicate 48 0, false⟩).raise
        { code := 0x9002, sev := 2, unit := srcKeystone, args := leBytes 1 i ++ leBytes 1 why })

/-- FW_STAGE as a command: the image of a block transfer. -/
def execFwStage (rq : Rq) (image : List Byte) (s : State) : Host.Outcome State Fault Refusal :=
  .next (s.odWhole rq .fwStage 0 0 image noCalls (actFwStage image))

/-- FW_ACTIVATE (R416): the Staged slot becomes Trial. -/
def actFwActivate (v : Nat) : Act := fun s =>
  if v ≠ 1 then (rNo stRefused, s)
  else match (upTo 2).find? fun i => (s.slot i).mode = .staged with
    | none => (rNo stState, s)
    | some i => (rOk, s.setSlot i { s.slot i with mode := .trial })

/-- FW_ACTIVATE as a command. -/
def execFwActivate (rq : Rq) (payload : List Byte) (s : State) : Host.Outcome State Fault Refusal :=
  .next (s.odWrite rq .fwActivate 0 0 payload noCalls (actFwActivate (ofLe payload)))

/-- FW_RESTART (R416): in Quiet alone. -/
def actFwRestart (v : Nat) : Act := fun s =>
  if v ≠ 1 then (rNo stRefused, s) else if s.power.mode ≠ .quiet then (rNo stState, s) else (rOk, s.startAsk 5)

/-- FW_RESTART as a command. -/
def execFwRestart (rq : Rq) (payload : List Byte) (s : State) : Host.Outcome State Fault Refusal :=
  .next (s.odWrite rq .fwRestart 0 0 payload noCalls (actFwRestart (ofLe payload)))

/-- FW_COMMIT (R416, R418): the running Trial slot is Committed and the counter advances; the other slot is Staged if it still
passes, else Empty. -/
def actFwCommit (v : Nat) : Act := fun s =>
  let i := s.sec.running
  if v ≠ 1 then (rNo stRefused, s)
  else if (s.slot i).mode ≠ .trial ∨ s.start.step ≠ 14 then (rNo stState, s)
  else
    let counter := max s.sec.counter (s.slot i).svn
    let s := (s.updSec fun x => { x with counter := counter }).setSlot i { s.slot i with mode := .committed }
    let o := 1 - i
    let s := s.setSlot o (if s.slotPasses o then { s.slot o with mode := .staged } else ⟨.empty, 0, 0, List.replicate 48 0, false⟩)
    (rOk, s.raise { code := 0x9003, sev := 1, unit := srcKeystone,
                    args := leBytes 1 i ++ leBytes 1 (s.slot i).svn ++ leBytes 1 counter })

/-- FW_COMMIT as a command. -/
def execFwCommit (rq : Rq) (payload : List Byte) (s : State) : Host.Outcome State Fault Refusal :=
  .next (s.odWrite rq .fwCommit 0 0 payload noCalls (actFwCommit (ofLe payload)))

/- ## Room keys (R423 to R425) -/

/-- The check value of a key pair (R425): the first four bytes of AES-256 of the zero block under key1, little-endian. key1 is the
first 32 bytes of the pair. -/
def keyCheck (key : BitVec 512) : Nat :=
  let ct := aes256 ((leBytes 32 key.toNat).map (·.toNat)) (List.replicate 16 0)
  ofLe ((ct.take 4).map (BitVec.ofNat 8))

/-- key1 and key2 are equal. -/
def keysEqual (key : BitVec 512) : Bool := decide (key.toNat % 2 ^ 256 = key.toNat / 2 ^ 256)

/-- A pair loaded into its slot, with a copy wrapped under the sealing key (R424). -/
def State.loadKey (s : State) (k : Nat) (key : BitVec 512) (source : Nat) : State :=
  let copy := keyWrap s.sec.sealing (leBytes 64 key.toNat)
  (s.updSec fun x => { x with keys := Tbl.put x.keys k key, stored := Tbl.put x.stored k copy }).raise
    { code := 0x9020, sev := 0, unit := srcRoom k, args := leBytes 1 source ++ leBytes 4 (keyCheck key) }

/-- A key may be generated or imported (R423): the room is Off, its slot Empty and no page of it allocated. -/
def State.keyWanted (s : State) (k : Fin 64) : Bool :=
  decide ((s.fn (.room k)).state = .off) && (Tbl.find s.sec.keys k).isNone
    && !s.pages.any fun e => decide (pageRoom e.1 = k.val) && e.2.allocated

/-- A key that the Keystone draws from its DRBG, drawing again while key1 and key2 are equal (R423): a free value whose halves differ. -/
def State.drawKey (s : State) : BitVec 512 × State :=
  let (n, s) := s.draw
  let key := Config.drbg n
  (if keysEqual key then key ^^^ 1 else key, s)

/-- ROOM_KEY_GENERATE (R423). -/
def actKeyGenerate (k : Fin 64) (v : Nat) : Act := fun s =>
  if v ≠ 1 then (rNo stRefused, s)
  else if !s.keyWanted k then (rNo stState, s)
  else
    let (key, s) := s.drawKey
    (rOk, s.loadKey k key 1)

/-- ROOM_KEY_GENERATE as a command. -/
def execRoomKeyGenerate (rq : Rq) (room : Fin 64) (payload : List Byte) (s : State) : Host.Outcome State Fault Refusal :=
  .next (s.odWrite rq .roomKeyGenerate room 0 payload noCalls (actKeyGenerate room (ofLe payload)))

/-- A secured session is open on an arrival (R420). -/
def State.secured (s : State) (a : Arrival) : Bool := s.sec.spdm.any fun x => decide (x.arr = a) && decide (x.session = 2)

/-- ROOM_KEY_IMPORT (R423): key1 followed by key2, within a secured session alone. -/
def actKeyImport (k : Fin 64) (inside : Bool) (keys : List Byte) : Act := fun s =>
  let key : BitVec 512 := BitVec.ofNat 512 (ofLe keys)
  if !inside then (rNo stRefused, s)
  else if keys.length ≠ 64 then (rNo stLength, s)
  else if !s.keyWanted k then (rNo stState, s)
  else if keysEqual key then (rNo stRefused, s)
  else (rOk, s.loadKey k key 2)

/-- ROOM_KEY_IMPORT as a command: application data of the session of the port it arrives on. -/
def execRoomKeyImport (rq : Rq) (room : Fin 64) (payload : List Byte) (s : State) : Host.Outcome State Fault Refusal :=
  .next (s.odWrite rq .roomKeyImport room 0 payload noCalls (actKeyImport room (s.secured rq.src) payload))

/-- A stored copy unwrapped at S13 (R424): one wrapped under another sealing key fails. -/
def State.unwrapKey (s : State) (k : Nat) : State :=
  match Tbl.find s.sec.stored k with
  | none => s
  | some copy =>
    match keyUnwrap s.sec.sealing copy with
    | some pair =>
      let key : BitVec 512 := BitVec.ofNat 512 (ofLe pair)
      (s.updSec fun x => { x with keys := Tbl.put x.keys k key }).raise
        { code := 0x9020, sev := 0, unit := srcRoom k, args := leBytes 1 3 ++ leBytes 4 (keyCheck key) }
    | none => s.raise { code := 0x9021, sev := 2, unit := srcRoom k, args := leBytes 1 s.sec.epoch }

/-- ROOM_KEY_STATE (R435). -/
def State.keyState (s : State) (k : Nat) : Nat :=
  if (Tbl.find s.sec.keys k).isNone then 0 else if s.sec.keysOff then 2 else 1

/- ## Alarms (R428 to R433) -/

/-- The response of a sensor (R428, R429): as programmed, in Fielded; Note in every other state. -/
def State.alarmSet (s : State) (sensor : Nat) : Nat :=
  if s.written .alarmResponse 0 sensor then s.val .alarmResponse 0 sensor else ([2, 1, 0, 1, 1, 1] : List Nat).getD sensor 0

/-- See `alarmSet`. -/
def State.alarmDoes (s : State) (sensor : Nat) : Nat := if s.lifecycle = 2 then s.alarmSet sensor else 0

/-- Lock (R431): requests to rooms are denied at once, the landing is written out, LOCK_STATE is set. The key slots are disabled at a
boundary. -/
def State.lockNow (s : State) (sensor : Nat) : State :=
  let s := s.queueSlots fun _ l => !l.filling
  s.updSec fun x =>
    let first := decide (x.lockState = 0)
    { x with locked := true, release := none, lockState := if first then sensor + 1 else x.lockState,
             lockedAt := if first then s.time.course else x.lockedAt }

/-- Trips applied (R429, R433): each is written, and the strongest response is carried out. -/
def State.applyTrips (s : State) (sensors : List Nat) (latched : Bool) : State :=
  let bad := sensors.filter fun i => s.alarmDoes i ≠ 0
  let s := s.updSec fun x => { x with hard := bad.foldl (fun m i => setBit m i true) x.hard }
  let erase := sensors.find? fun i => s.alarmDoes i = 2
  let lock := sensors.find? fun i => s.alarmDoes i = 1
  let evs : List Ev := sensors.map fun i =>
    { code := 0x9010, sev := 3, unit := srcKeystone, args := leBytes 1 i ++ leBytes 1 (s.alarmDoes i) ++ leBytes 1 (bit01 latched) }
  let s := match erase, lock with
    | some i, _ => if s.sec.erasing.isSome then s else s.eraseNow i 1
    | none, some i => s.lockNow i
    | none, none => s
  s.raiseAll evs

/-- The sensors of a mask. -/
def sensorsOf (m : Nat) : List Nat := (upTo 6).filter fun i => bitOf m i

/-- Sensors trip together (R428), the lid's by the board's enclosure loop where `lidLoop` says so. While the module is off, the tamper
monitor latches a trip of sensors 0 to 2 once; LID_LOOP is watched only on aux power (R508). Scrapped, no sensor acts. -/
def State.alarmed (s : State) (m : Nat) (lidLoop : Bool) : State :=
  let s := if lidLoop then
      let p := Tbl.get s.board.pins 4 ⟨false, false, false, false, 0, none⟩
      s.setBoard { s.board with pins := Tbl.put s.board.pins 4 { p with taken := true, since := s.now } } else s
  let s := s.updSec fun x => { x with tripped := x.tripped ||| m }
  let seen := if lidLoop ∧ !s.auxIn then (sensorsOf m).filter (· ≠ 0) else sensorsOf m
  if s.lifecycle = 4 then s
  else if s.power.mode = .off then
    let new := seen.filter fun i => decide (i < 3) && !s.sec.latch.contains i
    if s.sec.unwatched then s else s.updSec fun x => { x with latch := x.latch ++ new }
  else s.applyTrips seen false

/-- ALARM (R428). -/
def execAlarm (sensors : BitVec 6) (lidLoop : Bool) (s : State) : Host.Outcome State Fault Refusal :=
  .next (s.alarmed sensors.toNat lidLoop)

/-- The key slots are disabled once the landing is written out, at the latest 500 courses after the trip (R431 step 3); during Brace
and Flush they stay usable until the landing has been written (R433). -/
def State.settleLock (s : State) : State :=
  let idle := !s.landing.any fun e => e.2.queued
  if s.sec.locked ∧ !s.sec.keysOff ∧ (idle ∨ s.sec.lockedAt + 500 ≤ s.time.course) then
    s.updSec fun x => { x with keysOff := true }
  else s

/-- A release takes effect at a boundary (R431): the slots are enabled, requests admitted, LOCK_RELEASED written. -/
def State.settleRelease (s : State) : State :=
  match s.sec.release with
  | none => s
  | some p =>
    let n := s.time.course - s.sec.lockedAt
    (s.updSec fun x => { x with release := none, locked := false, keysOff := false, lockState := 0, hard := 0 }).raise
      { code := 0x9011, sev := 1, unit := srcKeystone, args := leBytes 1 p ++ leBytes 4 n }

/-- LOCK_RELEASE (R431): refused while a sensor that tripped with Lock or Erase is still tripped. -/
def actLockRelease (src : Arrival) (v : Nat) : Act := fun s =>
  let p := match src with | .port p => p.val | _ => 0
  if v ≠ 1 then (rNo stRefused, s)
  else if s.sec.lockState = 0 ∨ s.sec.hard &&& s.sec.tripped ≠ 0 then (rNo stState, s)
  else (rOk, s.updSec fun x => { x with release := some p })

/-- LOCK_RELEASE as a command. -/
def execLockRelease (rq : Rq) (payload : List Byte) (s : State) : Host.Outcome State Fault Refusal :=
  .next (s.odWrite rq .lockRelease 0 0 payload noCalls (actLockRelease rq.src (ofLe payload)))

/-- ALARM_RESPONSE (R429): the Steward may make a response stronger; weaker needs the Bench port. -/
def actAlarmResponse (src : Arrival) (sensor v : Nat) : Act := fun s =>
  let bench := match src with | .uart => true | _ => false
  if v < s.alarmSet sensor ∧ !bench then (rNo stRefused, s) else (rOk, s.setVal .alarmResponse 0 sensor v)

/-- ALARM_RESPONSE as a command. -/
def execAlarmResponse (rq : Rq) (sensor : Fin 6) (payload : List Byte) (s : State) : Host.Outcome State Fault Refusal :=
  .next (s.odWrite rq .alarmResponse 0 sensor payload noCalls (actAlarmResponse rq.src sensor (ofLe payload)))

end Sys2Proof.Machine
end

