-- ==== Sys2Proof/Machine/Cistern.lean ====
section
/-!
DEFINITION. Sys2Proof/Machine/Cistern.lean: the Cistern (R387 to R396): pack energy, the dirty ceiling, write-through, breaches, charging,
capacity checks and pack faults.
-/

namespace Sys2Proof.Machine

/-- The Cistern's state changed. -/
def State.updCistern (s : State) (f : Cistern → Cistern) : State := s.setCistern (f s.cistern)

/-- CISTERN_STATE (R406): 0 Absent, 1 Charging, 2 Ready, 3 Checking, 4 Supplying, 5 Fault. -/
def Cistern.code (c : Cistern) : Nat :=
  match c.fault with
  | some (_, .loopOpen) => 0
  | some _ => 5
  | none =>
    if c.distrusted then 5
    else if c.phase ≠ .none then 3
    else match c.mode with
      | .idle => 0 | .charging => 1 | .ready => 2 | .supplying => 4

/-- Voltages once the pack has been discharged to 41.0 V, each cell by the same charge (R391). -/
def Cistern.voltsAt41 (c : Cistern) : List (Nat × Nat) :=
  let l := c.volts
  let inverse := (l.map fun x => 10 ^ 15 / max 1 x.1).sum
  let q := ((l.map (·.2)).sum - 41000000) * 10 ^ 15 / max 1 inverse
  l.map fun x => (x.1, x.2 - q / max 1 x.1)

/-- What the energy allows now (R393): nothing with a pack fault, an absent pack, or a pack not trusted after S08 failed. -/
def State.byEnergyNow (s : State) : Nat :=
  let c := s.cistern
  if c.fault.isSome ∨ c.distrusted ∨ c.mode = .idle then 0
  else byEnergyOf c.e (s.decided .cisternReserve 0 0) c.j

/-- Write-through begins (R395): durable DIRTY pages are queued at step 1, landing slots of durable pages for compression. -/
def State.enterWriteThrough (s : State) : State :=
  let s := (s.updCistern fun c => { c with writeThrough := true }).raise
    { code := 0x7802, sev := 2, unit := srcCistern, args := leBytes 4 (s.ceiling / 1000000) }
  let l := s.pages.filter fun e => decide (e.2.mode = PageMode.dirty)
  let s := l.foldl (fun s e => s.queueWriteBack e.1 1) s
  s.queueSlots fun b x => !x.filling && s.durableBrick b

/-- A change of the ceiling reported at 5 % and more (R407). -/
def State.sayCeiling (s : State) (cause : Nat) : State :=
  let old := s.cistern.reported
  let new := s.ceiling
  let d := if old ≤ new then new - old else old - new
  if new = old ∨ (old ≠ 0 ∧ 20 * d < old) then s
  else (s.updCistern fun c => { c with reported := new }).raise
    { code := 0x7801, sev := 1, unit := srcCistern,
      args := leBytes 4 (old / 1000000) ++ leBytes 4 (new / 1000000) ++ leBytes 1 cause }

/-- Write-through follows the ceiling (R395). -/
def State.settleThrough (s : State) : State :=
  let low := decide (s.ceiling < 16000000000)
  if low ∧ !s.cistern.writeThrough then s.enterWriteThrough
  else if !low ∧ s.cistern.writeThrough then
    (s.updCistern fun c => { c with writeThrough := false }).raise
      { code := 0x7803, sev := 1, unit := srcCistern, args := leBytes 4 (s.ceiling / 1000000) }
  else s

/-- A ceiling that falls below the dirty total is a breach, but for the lowering of a check, which R396 does not list. -/
def State.settleBreach (s : State) (before : Nat) : State :=
  let dirty := s.dirtyStored
  if dirty ≤ s.ceiling then s.updCistern fun c => { c with breached := false }
  else if s.ceiling < before ∧ !s.cistern.breached ∧ s.cistern.phase = .none then
    (s.updCistern fun c => { c with breached := true }).raise
      { code := 0x7805, sev := 2, unit := srcCistern, args := leBytes 4 ((dirty - s.ceiling) / 1000000) }
  else s

/-- The ceiling recomputed (R393); the first one of a start is no change. -/
def State.recomputeCeiling (s : State) (first : Bool) : State :=
  let by_ := s.byEnergyNow
  let zone := (s.zoneReady - 1000000000) / 1000000 * 1000000
  let free := min by_ zone
  let new := if s.cistern.phase = .none then free else min free s.cistern.low
  let before := s.ceiling
  let cause := match s.cistern.due with | some c => c | none => if new < by_ then 3 else 4
  let s := s.updCistern fun c => { c with byEnergy := by_, ceiling := new, energy := c.e / 10 ^ 17, due := none }
  let s := if first then s.updCistern fun c => { c with reported := new } else s.sayCeiling cause
  (s.settleThrough.settleBreach before).retryAll

/-- Every 1,000 courses, and at the boundary after an event that asks for it (R393). -/
def State.ceilingBoundary (s : State) : State :=
  if s.cistern.mode ≠ .idle ∧ (s.cistern.due.isSome ∨ s.time.course % 1000 = 0) then s.recomputeCeiling false else s

/-- CEILING_RECOMPUTE (R393), at a boundary. -/
def execCeilingRecompute (s : State) : Host.Outcome State Fault Refusal :=
  .next (if s.time.pos = 0 then s.ceilingBoundary else s)

/- ## Charging (R389) -/

/-- CHARGE_COMPLETE (R389): every cell is at 3.78 V. -/
def execChargeComplete (s : State) : Host.Outcome State Fault Refusal :=
  .next (if s.cistern.mode = .charging ∧ s.cistern.full then s.updCistern fun c => { c with mode := .ready } else s)

/-- An ESR in µΩ from a voltage step in µV at a current in mA (R388). -/
def esrOf (step mA : Nat) : Nat := step * 1000 / max 1 mA

/-- A cell's measured ESR kept; the first one is remembered (R387). -/
def Cell.measure (x : Cell) (esr : Nat) : Cell := { x with esr := esr, esr0 := some (x.esr0.getD esr) }

/-- The lists of what is measured put to the cells; a short list leaves the others. -/
def eachCell {α : Type} (f : Cell → α → Cell) : List Cell → List α → List Cell
  | [], _ => []
  | c, [] => c
  | c :: cs, a :: as => f c a :: eachCell f cs as

/-- CHARGE_RESUME (R388, R389): a cell has fallen below 3.76 V; each cell's voltage step gives its ESR. -/
def execChargeResume (steps : List (BitVec 16)) (s : State) : Host.Outcome State Fault Refusal :=
  let c := s.cistern
  let low := c.cells.any fun x => decide (x.mv < 3760)
  if c.mode ≠ .ready ∨ !low ∨ !c.mayCharge ∨ c.phase ≠ .none then .next s
  else
    let mA := if c.packMv < 40000 then 1500 else 60000000 / c.packMv
    .next (s.updCistern fun c => { c with mode := .charging, cells := eachCell (fun x st => x.measure (esrOf st.toNat mA)) c.cells steps })

/- ## Faults (R392) -/

/-- The code of a fault's cause (R407). -/
def faultCode : PackCause → Nat
  | .voltage => 1 | .temperature => 2 | .openTap => 3 | .loopOpen => 4 | .charger => 5

/-- A pack fault (R392): the ceiling falls to 0 at the next boundary. -/
def State.packFault (s : State) (cell : Nat) (cause : PackCause) : State :=
  if s.cistern.fault.isSome then s
  else
    (s.updCistern fun c => { c with fault := some (cell, cause), okRun := 0, phase := .none, asked := false, due := some 2 }).raise
      { code := 0x7808, sev := 3, unit := srcCistern, args := leBytes 1 cell ++ leBytes 1 (faultCode cause) }

/-- CISTERN_FAULT (R392). -/
def execCisternFault (cell : Byte) (cause : PackCause) (s : State) : Host.Outcome State Fault Refusal :=
  .next (if s.cistern.mode = .idle ∨ s.dark then s else s.packFault cell.toNat cause)

/-- A cell within its limits (R392). -/
def Cell.within (x : Cell) : Bool := decide (2000 ≤ x.mv) && decide (x.mv ≤ 3850) && decide (-200 ≤ x.temp) && decide (x.temp ≤ 700)

/-- CISTERN_FAULT_CLEAR (R392, R469): every cell has been within its limits for 1,000 courses; a pack not trusted since S08 is assessed by that,
once S13 has ended. -/
def execCisternFaultClear (s : State) : Host.Outcome State Fault Refusal :=
  .next (if (s.cistern.fault.isSome ∨ (s.cistern.distrusted ∧ s.power.mode ≠ .starting)) ∧ 1000 ≤ s.cistern.okRun then
      s.updCistern fun c => { c with fault := none, distrusted := c.distrusted && decide (s.power.mode = .starting), mode := if c.full then .ready else .charging, due := some 2 } else s)

/- ## The capacity check (R391) -/

/-- A check begins on a full pack that does not charge (R391 step 1), or waits for one. -/
def State.startCheck (s : State) : State :=
  let c := s.cistern
  if c.phase ≠ .none then s
  else if c.mode ≠ .ready ∨ c.fault.isSome ∨ c.distrusted then s.updCistern fun c => { c with asked := true }
  else
    let low := byEnergyOf (packEnergy c.voltsAt41) (s.val .cisternReserve 0 0) c.j
    s.updCistern fun c => { c with asked := false, phase := .waiting (s.time.course + 1000000), low := low, due := some 1 }

/-- CHECK_NOW (R391). -/
def actCheckNow (v : Nat) : Act := fun s => if v ≠ 1 then (rNo stRefused, s) else (rOk, s.startCheck)

/-- CHECK_NOW as a command. -/
def execCheckNow (rq : Rq) (payload : List Byte) (s : State) : Host.Outcome State Fault Refusal :=
  .next (s.odWrite rq .checkNow 0 0 payload noCalls (actCheckNow (ofLe payload)))

/-- CHECK_INTERVAL courses have passed since the last check (R391). -/
def execCheckInterval (s : State) : Host.Outcome State Fault Refusal :=
  .next (if s.cistern.mode ≠ .idle ∧ s.cistern.nextCheck ≤ s.time.course ∧ !s.dark then s.startCheck else s)

/-- CHECK_INTERVAL written (R391, R406): the next check counts from the last. -/
def actCheckEvery (v : Nat) : Act := fun s =>
  (rOk, (s.setVal .checkInterval 0 0 v).updCistern fun c => { c with nextCheck := c.lastCheck / 4096 + v })

/-- The discharge starts (R391 step 2): the ceiling has been lowered, and DIRTY_STORED is within it. -/
def execCheckDischargeStart (s : State) : Host.Outcome State Fault Refusal :=
  match s.cistern.phase with
  | .waiting _ =>
    .next (if s.cistern.due.isNone ∧ s.dirtyStored ≤ s.ceiling then s.updCistern fun c => { c with phase := .discharging } else s)
  | _ => .next s

/-- The check is put off by 24 h (R391 step 2). -/
def execCheckDefer (s : State) : Host.Outcome State Fault Refusal :=
  match s.cistern.phase with
  | .waiting t =>
    .next (if t ≤ s.time.course ∧ s.ceiling < s.dirtyStored then
        s.updCistern fun c => { c with phase := .none, nextCheck := s.time.course + 43200000000, due := some 1 } else s)
  | _ => .next s

/-- CISTERN_EOL, once (R387, R392): a cell below 80 F, or its ESR above twice its first. -/
def State.sayEol (s : State) : State :=
  let bad (x : Cell) : Bool := decide (x.cap < 8000) || (match x.esr0 with | some a => decide (2 * a < x.esr) | none => false)
  match s.cistern.eol, s.cistern.cells.zipIdx.find? fun x => bad x.1 with
  | false, some (x, i) =>
    (s.updCistern fun c => { c with eol := true }).raise
      { code := 0x7807, sev := 2, unit := srcCistern, args := leBytes 1 (i + 1) ++ leBytes 2 x.cap ++ leBytes 2 (min 65535 x.esr) }
  | _, _ => s

/-- CISTERN_CHECK (R391 steps 4 and 5): capacitances are charge by voltage change, ESRs voltage step by 3.0 A. -/
def execCisternCheck (cells : List CellCheck) (s : State) : Host.Outcome State Fault Refusal :=
  if s.cistern.phase ≠ .discharging then .next s
  else
    let one (x : Cell) (m : CellCheck) : Cell :=
      { x.measure (esrOf m.step.toNat 3000) with cap := if m.drop = 0 then x.cap else min 65535 (100 * m.charge.toNat / m.drop.toNat) }
    let s := s.updCistern fun c =>
      { c with cells := eachCell one c.cells cells, phase := .none, mode := .charging, lastCheck := s.now,
               nextCheck := s.time.course + s.val .checkInterval 0 0, due := some 1 }
    let c := s.cistern
    let weakest := c.cells.foldl (fun m x => min m x.cap) 65535
    let worst := c.cells.foldl (fun m x => max m x.esr) 0
    .next ((s.raise { code := 0x7806, sev := 0, unit := srcCistern,
                      args := leBytes 2 weakest ++ leBytes 2 (min 65535 worst) ++ leBytes 4 (c.e / 10 ^ 17) }).sayEol)

/-- CISTERN_RESERVE (R396, R406): a raised reserve counts from the next recomputation. -/
def execCisternReserve (rq : Rq) (payload : List Byte) (s : State) : Host.Outcome State Fault Refusal :=
  .next (s.odWrite rq .cisternReserve 0 0 payload noCalls (actSet .cisternReserve 0 0 payload))

/-- The readings of a boundary (R388): voltages each course, temperatures every 1,000; how long all cells have been within their limits,
and a check that waits for a full pack begins. -/
def State.cisternBoundary (s : State) (env : Env) : State :=
  let s := s.updCistern fun c =>
    let cells := eachCell (fun x (v : BitVec 16) => { x with mv := v.toNat }) c.cells env.cellMv
    let cells := if s.time.course % 1000 = 0 then eachCell (fun x (v : BitVec 16) => { x with temp := v.toInt }) cells env.cellTemps
      else cells
    { c with cells := cells, okRun := if cells.all Cell.within then c.okRun + 1 else 0 }
  let s := if s.cistern.asked ∧ s.cistern.mode = .ready then s.startCheck else s
  s.ceilingBoundary

/-- S08 (R390, R393): the pack is assessed and charging begins. -/
def State.assessPack (s : State) : State :=
  let bad := s.cistern.cells.zipIdx.find? fun x => !x.1.within
  let s := s.updCistern fun c =>
    { c with mode := if c.full then .ready else .charging, fault := none, distrusted := false, phase := .none, okRun := 0,
             due := none, ceiling := 0, writeThrough := false, breached := false }
  let s := match bad with
    | some (x, i) => s.packFault (i + 1) (if x.mv < 2000 ∨ 3850 < x.mv then .voltage else .temperature)
    | none => s
  (s.recomputeCeiling true).sayEol

end Sys2Proof.Machine
end

