-- ==== Sys2Proof/Machine/Ledger.lean ====
section
/-!
DEFINITION. Sys2Proof/Machine/Ledger.lean: the start record that is being written (R465 to R470).
-/

namespace Sys2Proof.Machine

/-- The start sequence changed. -/
def State.updStart (s : State) (f : Start → Start) : State := s.setStart (f s.start)

/-- A step entry not begun (R468). -/
def StepRec.init : StepRec := ⟨0, 0, 0, 0, 0, 0⟩

/-- A start record before any start. -/
def StartRec.init : StartRec := ⟨0, 0, 0, 0, 0, 0, 0, 0, List.replicate 13 StepRec.init, 0⟩

/-- The newest start record (R468). -/
def State.startRec (s : State) : StartRec := s.start.ledger.getLastD StartRec.init

/-- The newest start record changed. -/
def State.updRec (s : State) (f : StartRec → StartRec) : State :=
  s.updStart fun x => { x with ledger := x.ledger.dropLast ++ [f s.startRec] }

/-- A step of the record. -/
def StartRec.step (r : StartRec) (n : Nat) : StepRec := r.steps.getD (n - 1) StepRec.init

/-- A step of the newest record changed. -/
def State.updStep (s : State) (n : Nat) (f : StepRec → StepRec) : State :=
  s.updRec fun r => { r with steps := r.steps.set (n - 1) (f (r.step n)) }

/-- A step's beginning is recorded: begun, no end (R468). -/
def State.stepBegun (s : State) (n : Nat) : State :=
  s.updStep n fun _ => ⟨1, 0, 0, s.now, 0, s.time.base⟩

/-- A step's end is recorded, and START_STEP written (R468, R481). -/
def State.stepEnded (s : State) (n outcome detail items : Nat) : State :=
  let courses := (s.now - (s.startRec.step n).start) / 4096
  (s.updStep n fun x => { x with outcome := outcome, detail := detail, items := min 255 items, courses := courses }).raise
    { code := 0xA002, sev := 0, unit := srcKeeper,
      args := leBytes 1 n ++ leBytes 1 outcome ++ leBytes 1 detail ++ leBytes 1 (min 255 items) ++ leBytes 4 courses }

/-- The record's steps that have begun and not ended end as interrupted (R467); S08 may run beside another. -/
def State.interruptSteps (s : State) : State :=
  let open_ := (upTo 13).filter fun i => (s.startRec.step (i + 1)).outcome = 1
  let s := open_.foldl (fun s i => s.updStep (i + 1) fun x => { x with outcome := 5, courses := (s.now - x.start) / 4096 }) s
  s.updRec fun r => { r with outcome := 3 }

/-- A failure count (R470): kind 1 Store channel, 2 Cellar channel, 3 port. -/
def State.failCount (s : State) (kind inst : Nat) : Nat := Tbl.get s.start.counts (256 * kind + inst) 0

/-- A failure count set. -/
def State.setFailCount (s : State) (kind inst n : Nat) : State :=
  s.updStart fun x => { x with counts := if n = 0 then Tbl.del x.counts (256 * kind + inst) else Tbl.put x.counts (256 * kind + inst) n }

/-- LEDGER_CLEAR_COUNTS (R480): the item's count and HELD are cleared at the next start. -/
def actClearCounts (v : Nat) : Act := fun s =>
  let kind := v / 256
  let inst := v % 256
  let ok := match kind with | 1 => decide (inst < 128) | 2 => decide (inst < 32) | 3 => decide (inst < 32) | _ => false
  if ok then (rOk, s.updStart fun x => { x with clears := x.clears ++ [v] }) else (rNo stRefused, s)

/-- LEDGER_CLEAR_COUNTS as a command. -/
def execLedgerClearCounts (rq : Rq) (payload : List Byte) (s : State) : Host.Outcome State Fault Refusal :=
  .next (s.odWrite rq .ledgerClearCounts 0 0 payload noCalls (actClearCounts (ofLe payload)))

end Sys2Proof.Machine
end

