-- ==== Sys2Proof/Machine/SelfTest.lean ====
section
/-!
DEFINITION. Sys2Proof/Machine/SelfTest.lean: the self-test engine (R473 to R479): slices, the full test, restored units.
-/

namespace Sys2Proof.Machine

/-- The self-test engine changed. -/
def State.updTest (s : State) (f : SelfTest → SelfTest) : State := s.setTest (f s.test)

/-- GOVERNOR_STEP (R41): the deepest step in force. -/
def Power.step (p : Power) : Nat :=
  if p.cut.isSome then 4 else if p.x2 then 3 else if p.store ≠ 0 then 2 else if p.core ≠ 0 then 1 else 0

/-- Courses a slice takes, and half-watts it adds (R474). -/
def sliceCourses (kind : Nat) : Nat := ([1, 1, 1, 250, 50, 500000, 6200, 200, 10, 10] : List Nat).getD (kind - 1) 1
/-- See `sliceCourses`. -/
def slicePower (kind : Nat) : Nat := ([4, 2, 2, 6, 2, 8, 6, 10, 1, 1] : List Nat).getD (kind - 1) 0

/-- The units a region's slices of a kind test (R474), as SOURCE_UNIT and segment. The PLL has no SOURCE_UNIT of its own. -/
def kindUnits (kind : Nat) : List (Nat × Nat) :=
  let many (base n : Nat) : List (Nat × Nat) := (upTo n).map fun i => (base + i, 0)
  match kind with
  | 1 => many 0x080 32
  | 2 => (upTo 8).flatMap fun k => many (0x0C0 + 8 * k) 4
  | 3 => (upTo 8).flatMap fun k => many (0x0C4 + 8 * k) 2
  | 4 => many 0x040 32
  | 5 => [(0x3FF, 0)]
  | 6 => (upTo 64).flatMap fun r => (upTo 8).map fun g => (rankUnit r, g)
  | 7 => many 0x1C0 64
  | 8 => many 0x240 48
  | 9 => [(0x2C0, 0)]
  | _ => []

/-- Every slice in the order of a round (R474): by region, in each by kind, the centre block last. -/
def allSlices : List Slice :=
  ((upTo 4).flatMap fun r => (upTo 9).flatMap fun k => (kindUnits (k + 1)).map fun u => ⟨k + 1, r, u.1, u.2⟩) ++ [⟨10, 0, srcCistern, 0⟩]

/-- The cluster a unit belongs to is retired (R17, R18). -/
def State.clusterGone (s : State) (x : Slice) : Bool :=
  let u := x.unit
  match x.kind with
  | 1 => s.isRetired x.region (0x0A0 + (u - 0x080) / 4)
  | 2 => s.isRetired x.region (0x100 + (u - 0x0C0) / 8)
  | 3 => s.isRetired x.region (0x100 + (u - 0x0C0) / 8)
  | 4 => s.isRetired x.region (0x060 + (u - 0x040) / 4)
  | 6 => s.isRetired x.region (0x1A0 + (u - 0x140) / 8)
  | 7 => s.isRetired x.region (0x200 + (u - 0x1C0) / 8)
  | 8 => s.isRetired x.region (0x280 + (u - 0x240) / 8)
  | _ => false

/-- A slice belongs to the round (R474): its unit stands; a lane's port is not Up, nor on its way there; a rank is a standing spare; a
die is of a channel in service; the pack is present. -/
def State.inRound (s : State) (x : Slice) : Bool :=
  !s.isRetired x.region x.unit && !s.clusterGone x &&
  match x.kind with
  | 4 => decide ((s.port (8 * x.region + (x.unit - 0x040) / 4)).link = LinkMode.down)
  | 6 => decide (s.rankMode x.region (x.unit - 0x140) = RankMode.spare)
  | 7 =>
    let m := (s.cchan (8 * x.region + (x.unit - 0x1C0) / 8)).mode
    decide (m = CchMode.serving) || decide (m = CchMode.rebuilding)
  | 10 => decide (s.cistern.mode ≠ CisternMode.idle) && s.cistern.fault.isNone
  | _ => true

/-- A recovery event of R33 runs in a region: a rank migration, a rebuild of one of its dies or channels, a directory scan, a Keeper
restart. -/
def State.recoveryIn (s : State) (region : Nat) : Bool :=
  (Tbl.find s.store.migrations region).isSome
    || s.cellar.rebuilds.any (fun e => e.2.any fun r => decide (r.channel / 8 = region))
    || !s.dir.scans.isEmpty || s.power.keeperDown

/-- The headroom of R475, for a slice's added power. -/
def State.headroom (s : State) (kind : Nat) : Bool :=
  decide (2 * s.power.input + slicePower kind + 2 * s.decided .sliceMargin 0 0 ≤ 2 * s.power.cap)

/-- The slices of the round still to run, in order. -/
def State.slicesLeft (s : State) : List Slice := allSlices.filter fun x => s.inRound x && !s.test.done.contains x

/-- A round that has run every slice ends, and the next begins (R474, R481). -/
def State.endRound (s : State) : State :=
  if s.test.done.isEmpty ∨ !s.slicesLeft.isEmpty then s
  else
    let n := s.test.rounds + 1
    let t := s.test
    (s.updTest fun t => { t with done := [], fails := 0, since := s.now, rounds := n }).raise
      { code := 0xA012, sev := 0, unit := srcKeeper,
        args := leBytes 4 n ++ leBytes 2 t.done.length ++ leBytes 2 t.fails ++ leBytes 4 ((s.now - t.since) / 4096) }

/-- The Loft pages that a hot-page bank group holds: a region's Loft pages in order, 8,192 of 4 KiB to each of its 48 groups. -/
def State.groupPages (s : State) (region group : Nat) : List Nat :=
  let mine := (s.pages.filter fun e => decide (e.2.loft = some region)).map (·.1)
  (mine.drop (8192 * group)).take 8192

/-- The port of a link lane's slice goes to Loopback, or back to Down and on to Detect where its function wants it (R77, R476). -/
def State.loopPort (s : State) (x : Slice) (begin_ : Bool) : State :=
  if x.kind ≠ 4 then s
  else
    let p := 8 * x.region + (x.unit - 0x040) / 4
    let wanted := if h : p < 32 then decide ((s.fn (.port ⟨p, h⟩)).state = Fn.starting) else false
    if begin_ then s.updPort p fun q => { q with link := .loopback, since := s.now }
    else if (s.port p).link = .loopback then
      s.updPort p fun q => { q with link := if wanted then .detect else .down, since := s.now, retry := false }
    else s

/-- SLICE_START (R475): at a course boundary the next eligible slice begins, and its unit is isolated (R476). -/
def execSliceStart (s : State) : Host.Outcome State Fault Refusal :=
  let t := s.test
  let runs := decide (s.time.pos = 0) && (decide (s.lifecycle = 1) || decide (s.lifecycle = 2))
    && decide (s.decided .selftestEnable 0 0 = 1) && !s.power.keeperDown
    && (decide (s.power.mode = .full) || decide (s.power.mode = .capped))
    && t.running.isNone && decide (s.power.step = 0) && decide (t.last + 4096 * s.decided .sliceInterval 0 0 ≤ s.now)
  if !runs then .next s
  else match s.slicesLeft.find? fun x => s.headroom x.kind && !s.recoveryIn x.region with
    | none => .next s
    | some x =>
      let s := (s.updTest fun t => { t with running := some (x, s.now), last := s.now, aborting := none }).loopPort x true
      .next (if x.kind = 8 then (s.groupPages x.region (x.unit - 0x240)).foldl State.dropLoft s
        else if x.kind = 2 ∨ x.kind = 3 then s.settleLanes else s)

/-- A running slice is aborted (R478): its unit returns to service and the slice is run again later in the round. -/
def State.abortSlice (s : State) (cause : Nat) : State :=
  match s.test.running with
  | none => s
  | some (x, _) =>
    ((s.updTest fun t => { t with running := none, aborting := none }).loopPort x false).raise
      { code := 0xA011, sev := 0, region := x.region, unit := x.unit, args := leBytes 1 x.kind ++ leBytes 1 cause }

/-- Why a running slice must be aborted at a boundary (R478); none while it may go on. -/
def State.sliceCause (s : State) (x : Slice) : Option Nat :=
  if s.power.step ≠ 0 then some 1
  else if !s.headroom 0 then some 2
  else if s.isRetired x.region x.unit ∨ s.clusterGone x then some 4
  else if s.recoveryIn x.region ∧ !s.power.keeperDown then some 5
  else if x.kind = 6 ∧ s.rankMode x.region (x.unit - 0x140) ≠ .spare then some 6
  else none

/-- A unit that fails a self-test or the full test is retired (R17, R477). -/
def State.failUnit (s : State) (kind region unit : Nat) : State :=
  match kind with
  | 6 => s.retireRank region (unit - 0x140) 5
  | 7 => s.retireDie (8 * region + (unit - 0x1C0) / 8) ((unit - 0x1C0) % 8) 1
  | 5 => s
  | 9 => s.updTest fun t => { t with deaf := if t.deaf.contains region then t.deaf else t.deaf ++ [region] }
  | 10 => s.packFault 0xFF .voltage
  | _ => s.retireUnit region unit 1

/-- The self-test engine at a boundary: what a failed slice does (R477), and aborts (R478). -/
def State.settleSlice (s : State) : State :=
  let s := match s.test.failed with
    | none => s
    | some (x, _, _) => (s.updTest fun t => { t with failed := none }).failUnit x.kind x.region x.unit
  match s.test.running with
  | none => s
  | some (x, _) => match s.sliceCause x with | some c => s.abortSlice c | none => s

/-- SLICE_END (R476, R477): a slice has run its courses. What was measured and its limit come with the command. -/
def execSliceEnd (pass : Bool) (measured limit : BitVec 32) (s : State) : Host.Outcome State Fault Refusal :=
  match s.test.running with
  | none => .next s
  | some (x, since) =>
    if s.now < since + 4096 * sliceCourses x.kind then .next s
    else
      let s := s.updTest fun t => { t with running := none, aborting := none, done := t.done ++ [x], fails := t.fails + bit01 (!pass) }
      let s := s.loopPort x false
      let s := if x.kind = 9 ∧ pass then s.updTest fun t => { t with deaf := t.deaf.filter (· ≠ x.region) } else s
      let s := if pass then s
        else (s.updTest fun t => { t with failed := some (x, measured.toNat, limit.toNat) }).raise
          { code := 0xA010, sev := 2, region := x.region, unit := x.unit,
            args := leBytes 1 x.kind ++ leBytes 4 measured.toNat ++ leBytes 4 limit.toNat }
      .next s.endRound

/- ## The full engine (R473) -/

/-- The kind of slice that tests a unit (R474); none of those that no slice tests. -/
def unitKind (unit : Nat) : Option Nat :=
  if 0x040 ≤ unit ∧ unit < 0x060 then some 4
  else if 0x080 ≤ unit ∧ unit < 0x0A0 then some 1
  else if 0x0C0 ≤ unit ∧ unit < 0x100 then
    (if unit % 8 < 4 then some 2 else if unit % 8 < 6 then some 3 else none)
  else if 0x140 ≤ unit ∧ unit < 0x180 then some 6
  else if 0x1C0 ≤ unit ∧ unit < 0x200 then some 7
  else if 0x240 ≤ unit ∧ unit < 0x280 then some 8
  else if unit = 0x2C0 then some 9
  else if unit = srcCistern then some 10
  else none

/-- How many units of a kind a region has (R16, R474). -/
def kindCount (kind : Nat) : Nat := ([128, 128, 64, 128, 4, 256, 256, 256, 4, 1] : List Nat).getD (kind - 1) 0

/-- Units of a kind among those listed, as region and SOURCE_UNIT. -/
def ofKind (kind : Nat) (l : List (BitVec 12)) : Nat := (l.filter fun u => decide (unitKind (u.toNat % 1024) = some kind)).length

/-- The test of every unit, in Foundry and Returned (R473): those that failed are retired, and the report tells of each kind how many were
tested, failed and could not be tested. -/
def actSelftestFull (v : Nat) (failed untested : List (BitVec 12)) : Act := fun s =>
  if v ≠ 1 then (rNo stRefused, s)
  else if (s.lifecycle ≠ 0 ∧ s.lifecycle ≠ 3) ∨ s.start.step ≠ 14 then (rNo stState, s)
  else
    let gone (k : Nat) : Nat := (s.retired.filter fun u => decide (unitKind (u % 1024) = some k)).length
    let row (k : Nat) : List Nat :=
      let un := ofKind k untested
      [kindCount k - gone k - un, ofKind k failed, un, 0]
    let s := s.updTest fun t => { t with report := (upTo 10).flatMap fun k => row (k + 1) }
    (rOk, failed.foldl (fun s u => match unitKind (u.toNat % 1024) with
      | some k => if s.isRetired (u.toNat / 1024) (u.toNat % 1024) then s else s.failUnit k (u.toNat / 1024) (u.toNat % 1024)
      | none => s) s)

/-- SELFTEST_FULL as a command, with what the test found. -/
def execSelftestFull (rq : Rq) (payload : List Byte) (failed untested : List (BitVec 12)) (s : State) : Host.Outcome State Fault Refusal :=
  .next (s.odWrite rq .selftestFull 0 0 payload noCalls (actSelftestFull (ofLe payload) failed untested))

/-- A restored cluster's function may be enabled again, and a channel's or port's failure count returns to zero (R479). -/
def State.unholdCluster (s : State) (region unit : Nat) : State :=
  let free (s : State) (f : FnId) : State := s.setFn f { s.fn f with held := false }
  if h : 0x060 ≤ unit ∧ unit < 0x068 ∧ region < 4 then
    (free s (.port ⟨8 * region + (unit - 0x060), by omega⟩)).setFailCount 3 (8 * region + (unit - 0x060)) 0
  else if h : 0x0A0 ≤ unit ∧ unit < 0x0A8 ∧ region < 4 then free s (.core ⟨8 * region + (unit - 0x0A0), by omega⟩)
  else if 0x180 ≤ unit ∧ unit < 0x1A0 then s.setFailCount 1 (32 * region + (unit - 0x180)) 0
  else if h : 0x200 ≤ unit ∧ unit < 0x208 ∧ region < 4 then
    (free s (.cellar ⟨8 * region + (unit - 0x200), by omega⟩)).setFailCount 2 (8 * region + (unit - 0x200)) 0
  else s

/-- A unit returned to service (R17, R479): a restored rank is a standing spare, a die serves its channel again. -/
def State.restoreUnit (s : State) (region unit : Nat) : State :=
  let s := (s.setRetired (s.retired.filter fun u => u ≠ unitCode region unit)).unholdCluster region unit
  let s := match unitKind unit with
    | some 6 =>
      let i := (upTo 2).find? fun i => s.spare region i = 255
      let spares := match i with | some i => Tbl.put s.store.spares (2 * region + i) (unit - 0x140) | none => s.store.spares
      (s.setStore { s.store with spares := spares }).setRank region (unit - 0x140) .spare
    | some 7 =>
      let c := 8 * region + (unit - 0x1C0) / 8
      s.setCchan c { s.cchan c with dies := setBit (s.cchan c).dies ((unit - 0x1C0) % 8) true }
    | _ => s
  s.raise { code := 0xF001, sev := 1, unit := srcKeeper, args := leBytes 1 region ++ leBytes 2 unit }

/-- BENCH_RESTORE (R479): in Returned, a retired unit that passes its full test returns to service. -/
def actBenchRestore (v : Nat) (pass : Bool) : Act := fun s =>
  let region := v / 4096 % 4
  let unit := v % 1024
  if s.lifecycle ≠ 3 then (rNo stState, s)
  else if !s.isRetired region unit then (rNo stRefused, s)
  else (rOk, if pass then s.restoreUnit region unit else s)

/-- BENCH_RESTORE as a command, with the outcome of the test. -/
def execBenchRestore (rq : Rq) (payload : List Byte) (pass : Bool) (s : State) : Host.Outcome State Fault Refusal :=
  .next (s.odWrite rq .benchRestore 0 0 payload noCalls (actBenchRestore (ofLe payload) pass))

end Sys2Proof.Machine
end

