-- ==== Sys2Proof/Machine/Quiet.lean ====
section
/-!
DEFINITION. Sys2Proof/Machine/Quiet.lean: the way into Quiet and out of it (R36, R37, R327), and the power cap (R41).
-/

namespace Sys2Proof.Machine

/-- Power changed. -/
def State.updPower (s : State) (f : Power → Power) : State := s.setPower (f s.power)

/-- The module serves: it is Full or Capped. -/
def State.serving (s : State) : Bool := decide (s.power.mode = .full) || decide (s.power.mode = .capped)

/-- What a room's volatile pages in the Store would add to its borrowing if they were all demoted (R36, R115); none when its allowance
cannot hold it. -/
def State.demotionNeed (s : State) (room : Nat) : Option Nat :=
  let moving := 4096 * s.countPages room fun p => decide (p.mode = PageMode.volatile) && decide (p.transit = Transit.demoting)
  let excess := s.usedCellar room + (s.usedVolatile room - moving) - s.val .roomCellarQuota room 0
  if s.allowance room < excess then none else some (excess - (s.room room).borrowed)

/-- Every room's volatile pages fit its Cellar quota with its overdraft (R36). -/
def State.quietFits (s : State) : Bool :=
  let l := (upTo 64).map s.demotionNeed
  l.all Option.isSome && decide ((l.map fun x => x.getD 0).sum ≤ s.reserveFree)

/-- QUIET_ENTER (R36): from now on new Calls are answered BUSY. -/
def actQuietEnter (v : Nat) : Act := fun s =>
  if v ≠ 1 then (rNo stRefused, s)
  else if !s.serving ∨ s.power.quiet ≠ .none then (rNo stState, s)
  else if !s.quietFits then (rNo stRefused, s)
  else (rOk, s.updPower fun p => { p with quiet := .calls })

/-- QUIET_ENTER as a command. -/
def execQuietEnter (rq : Rq) (payload : List Byte) (s : State) : Host.Outcome State Fault Refusal :=
  .next (s.odWrite rq .quietEnter 0 0 payload noCalls (actQuietEnter (ofLe payload)))

/-- The pages that keep the module out of Quiet: dirty ones, and volatile ones in the Store. -/
def State.quietPages (s : State) : List (Nat × Page) :=
  s.pages.filter fun e => decide (e.2.mode = PageMode.dirty) || decide (e.2.mode = PageMode.volatile)

/-- QUIET_ENTER's work at a boundary (R36 steps 1, 2 and 4): once every accepted call has ended, dirty pages are queued for write-back and
volatile ones for demotion. -/
def State.quietBoundary (s : State) : State :=
  match s.power.quiet with
  | .none => s
  | .calls => if s.callsOpen = 0 then s.updPower fun p => { p with quiet := .writing } else s
  | _ => s.quietPages.foldl (fun s e => if e.2.mode = .dirty then s.queueWriteBack e.1 4 else s.queueDemotion e.1 4) s

/-- QUIET_FREEZE (R36 step 3): at a boundary where what remains holds 5,000,000 stored bytes or less. -/
def execQuietFreeze (s : State) : Host.Outcome State Fault Refusal :=
  let left := (s.quietPages.map fun e => storedSize e.2.store).sum
  .next (if s.power.quiet = .writing ∧ s.time.pos = 0 ∧ left ≤ 5000000 then s.updPower fun p => { p with quiet := .frozen } else s)

/-- QUIET_ENTERED (R36 step 5, R327 steps 1 to 4): nothing is dirty, nothing volatile is in the Store, no admitted request is open but those
that wait for the exit. Every page leaves the Store and the Loft, every frame and kept run is freed; in self-refresh no row is open. -/
def execQuietEntered (s : State) : Host.Outcome State Fault Refusal :=
  let open_ := s.reqs.opened.any fun r => decide (r.why ≠ .quiet)
  let busy := open_ || !s.quietPages.isEmpty || !s.landing.isEmpty || s.shelves.any fun e => e.2.job.isSome
  if s.power.quiet ≠ .frozen ∨ busy then .next s
  else
    let s := (s.pages.filter fun e => e.2.inStore).foldl (fun s e => s.leaveStore e.1 .cellar) s
    let s := (s.setStore { s.store with frames := [], rows := [] }).setTier { s.tier with fetches := [], promo := [] }
    .next (s.updPower fun p => { p with mode := .quiet, quiet := .none, exitOwed := false })

/-- QUIET_EXIT (R37). -/
def actQuietExit (v : Nat) : Act := fun s =>
  if v ≠ 1 then (rNo stRefused, s) else if s.quieted then (rOk, s.startExit.2) else (rNo stState, s)

/-- QUIET_EXIT as a command. -/
def execQuietExit (rq : Rq) (payload : List Byte) (s : State) : Host.Outcome State Fault Refusal :=
  .next (s.odWrite rq .quietExit 0 0 payload noCalls (actQuietExit (ofLe payload)))

/-- QUIET_EXIT_END (R37, R327): the module is Full, the zeroing fronts start from bay 0, refresh balances from zero; what waited for the
exit goes on. -/
def execQuietExitEnd (s : State) : Host.Outcome State Fault Refusal :=
  if s.power.mode ≠ .quiet ∨ s.power.exitAt.isNone then .next s
  else
    let s := s.updPower fun p => { p with mode := .full, exitAt := none, exitOwed := false, zeroing := true, calmRun := 0 }
    let s := s.setStore { s.store with fronts := (upTo 4).map fun r => (r, 0), refresh := [] }
    .next s.decideOpens.retryAll

/-- The zeroing fronts advance at a boundary (R327): 217 MB a region in 250 courses. -/
def State.advanceFronts (s : State) : State :=
  s.setStore { s.store with fronts := Tbl.each s.store.fronts fun _ f => f + 868000 / 256 }

/-- ZEROING_PASS_END (R327): the fronts go, and the scrubber resumes from bay 0. -/
def execZeroingPassEnd (s : State) : Host.Outcome State Fault Refusal :=
  if !s.power.zeroing then .next s
  else
    let s := (s.updPower fun p => { p with zeroing := false }).setStore { s.store with fronts := [] }
    .next ((s.setInteg { s.integ with scrubFrom := s.now, passCorrected := 0, passUncorrected := 0 }).retryAll)

/-- POWER_CAP (R41): the cap written counts from the next boundary that R47 allows. -/
def actPowerCap (v : Nat) : Act := fun s =>
  if v < 300 ∨ 650 < v then (rNo stRefused, s)
  else (rOk, (s.setVal .powerCap 0 0 v).updPower fun p => { p with capAt := s.decidedAt })

/-- POWER_CAP as a command. -/
def execPowerCap (rq : Rq) (payload : List Byte) (s : State) : Host.Outcome State Fault Refusal :=
  .next (s.odWrite rq .powerCap 0 0 payload noCalls (actPowerCap (ofLe payload)))

/-- CAPPED_RETURN_FULL (R35). -/
def execCappedReturnFull (s : State) : Host.Outcome State Fault Refusal :=
  .next (if s.power.mode = .capped ∧ 1000 ≤ s.power.calmRun ∧ s.power.step = 0 then
      s.updPower fun p => { p with mode := .full } else s)

end Sys2Proof.Machine
end

