-- ==== Sys2Proof/Machine/Timekeeping.lean ====
section
/-!
DEFINITION. Sys2Proof/Machine/Timekeeping.lean: time acquisition, the servo's direction, beacons and the tally writer
(chapter Courses, Stamps and the Tally).
-/

namespace Sys2Proof.Machine

/-- One second in stamp units (R51: 500,000 courses). -/
def oneSecond : Nat := 500000 * 4096

/-- Stamp units in ns, rounded towards zero (R51: 4,096 units are 2,000 ns). -/
def unitsToNs (u : Int) : Int := Int.tdiv (u * 2000) 4096

/-- The code of a time state (R72). -/
def TimeMode.code : TimeMode → Nat
  | .free => 0 | .locked => 1 | .loose => 2 | .holdover => 3 | .adrift => 4

/-- The value TIME_SOURCE reads (R72). -/
def TimeSource.code : TimeSource → Nat
  | .none => 0 | .ptp => 1 | .beacon p => p * 256 + 2

/-- The entry TIME_STATE_CHANGE (R64): old and new state, and an offset. -/
def timeChangeEv (old : Nat) (new : TimeMode) (off : Int) : Ev :=
  { code := 0x1201, sev := if new = .adrift then 2 else 1, unit := srcTime,
    args := leBytes 1 old ++ leBytes 1 new.code ++ leBytes 4 (unsign 32 off) }

/-- A change of time state: the runs start afresh and the entry carries the flag of the state entered (R60, R61). -/
def State.timeTo (s : State) (new : TimeMode) (off : Int) : State :=
  (s.setTime { s.time with mode := new, runNear := 0, runOff := 0, runFar := 0 }).raise
    (timeChangeEv s.time.mode.code new off)

/-- The state a magnitude leads to when time is acquired or resumes: Locked to 250 ns, and with `loose` Loose to 1 µs. -/
def timeByValue (loose : Bool) (a : Nat) : TimeMode :=
  if a ≤ 250 then .locked else if loose && decide (a ≤ 1000) then .loose else .adrift

/-- The state that follows a measurement of magnitude `a`, the runs counting it (R60). -/
def Time.next (t : Time) (a : Nat) : TimeMode :=
  match t.mode with
  | .free => timeByValue false a
  | .holdover => timeByValue true a
  | .locked => if 2 ≤ t.runFar then .adrift else if 4 ≤ t.runOff then .loose else .locked
  | .loose => if 2 ≤ t.runFar then .adrift else if 16 ≤ t.runNear then .locked else .loose
  | .adrift => if 16 ≤ t.runNear then .loose else .adrift

/-- The runs after a measurement of magnitude `a` (R60). `runNear` counts measurements within 250 ns, but in Adrift those
within 1 µs; `runOff` those above 250 ns; `runFar` those above 1 µs. -/
def Time.count (t : Time) (a : Nat) : Time :=
  { t with
    runNear := if a ≤ (if t.mode = .adrift then 1000 else 250) then t.runNear + 1 else 0
    runOff := if 250 < a then t.runOff + 1 else 0
    runFar := if 1000 < a then t.runFar + 1 else 0 }

/-- A measurement takes effect: the last offset and the source, the direction of the servo (R59), the runs and the state
(R60). `off` is what stays of the measured offset after a first acquisition. DESIGN CHOICE: of the slews of at most 100 ppm the servo takes 1 ppm,
against the sign of the offset. -/
def State.measured (s : State) (off : Int) (src : TimeSource) : State :=
  let t := { s.time with offset := off, source := src, lastMeas := s.now, slew := -off.sign, acquired := true }
  let t := t.count off.natAbs
  let new := t.next off.natAbs
  if new = t.mode then s.setTime t else (s.setTime t).timeTo new off

/-- The first acquisition after a start (R56, R58, R60): a module with no epoch fixes it as the acquired TAI instant less
the time since its first start; one that is behind steps its course count forward once. Answers what stays of the offset. -/
def State.acquire (s : State) (off : Int) (tai : Nat) : Int × State :=
  if s.time.mode ≠ .free || s.time.acquired then (off, s)
  else if !s.time.epochFixed then
    let elapsed := (unitsToNs ((s.now : Int) - s.time.startedAt)).toNat
    let e := tai - elapsed
    (0, s.setTime { s.time with epoch := e, epochFixed := true,
                                history := (((e, s.now) :: s.time.history).take 16) })
  else
    let k := if off < 0 then off.natAbs / 2000 else 0
    if k = 0 then (off, s)
    else
      let s' := s.setTime { s.time with course := s.time.course + k }
      (off + 2000 * k, s'.raise { code := 0x1203, sev := 1, unit := srcTime, args := leBytes 8 k })

/-- The module takes no measurement: it is Off or Sealed, or its start has not come to S11 (R60, R465). -/
def State.timeless (s : State) : Bool := s.dark || (decide (s.power.mode = .starting) && (decide (s.start.step < 11) || decide (15 ≤ s.start.step)))

/-- One PTP offset computation (R58, R60), taken in the domain of PTP_DOMAIN. -/
def execPtpMeasurement (domain : Byte) (offset : BitVec 32) (tai : Word) (s : State) : Host.Outcome State Fault Refusal :=
  if s.timeless || decide (domain.toNat ≠ s.val .ptpDomain 0 0) then .next s
  else
    let (off, s') := s.acquire offset.toInt tai.toNat
    .next ((s'.setTime { s'.time with lastPtp := some s'.now, hops := 0 }).measured off .ptp)

/-- PTP measurements arrive (R58). The spec gives no interval after which the module is without PTP; DESIGN CHOICE: one second without a
measurement, the time after which R60 leaves Locked and Loose. -/
def State.ptpActive (s : State) : Bool :=
  match s.time.lastPtp with | some t => decide (s.now - t < oneSecond) | none => false

/-- The delay of a beacon exchange in stamp units, and the offset of this module against the peer in ns (R58). -/
def beaconDelay (b : Beacon) : Int :=
  Int.tdiv (((b.t4.toNat : Int) - b.t1.toNat) - ((b.t3.toNat : Int) - b.t2.toNat)) 2

/-- This module's offset against the peer in ns, positive when ahead. -/
def beaconOffset (b : Beacon) : Int := unitsToNs ((b.t4.toNat : Int) - b.t3.toNat - beaconDelay b)

/-- A TimeBeacon's header and data slot (R84): t1 and t2 in a request, t2 and t3 in a reply. -/
def State.beaconHead (s : State) (b : Beacon) (tag : Nat) : Nat × List Byte :=
  let arg := bit01 b.reply * 2 ^ 62 + b.hops.toNat % 4 * 2 ^ 60 + s.time.mode.code * 2 ^ 57
  (headOf 0x20 0 tag 0 arg, if b.reply then leBytes 8 b.t2.toNat ++ leBytes 8 b.t3.toNat else leBytes 8 b.t1.toNat ++ leBytes 8 b.t2.toNat)

/-- A TimeBeacon message is sent on a port, for one MGT credit (R58, R84, R86). -/
def State.sendBeacon (s : State) (p : Nat) (b : Beacon) : State :=
  if s.creditLeft p 7 = 0 then s
  else
    let tag := (s.port p).odTag
    let x := s.beaconHead b tag
    ((s.queueTx p x.1 x.2 [(7, 1)]).updPort p fun q => { q with odTag := (tag + 1) % 4096 }).send (.beacon p b)

/-- The beacon with this module's own hop count and state. -/
def State.ownBeacon (s : State) (reply : Bool) (t1 t2 t3 : Word) : Beacon :=
  { reply := reply, locked := s.time.mode = .locked, hops := BitVec.ofNat 8 (min 3 s.time.hops), t1 := t1, t2 := t2, t3 := t3,
    t4 := 0 }

/-- A TimeBeacon arrives on a peer port (R58): a request is answered; of a reply the delay and the offset are computed. -/
def execTimeBeacon (port : Fin 32) (b : Beacon) (s : State) : Host.Outcome State Fault Refusal :=
  let now : Word := BitVec.ofNat 64 (s.shown s.now)
  if s.dark || !s.isUp port || decide (s.roleOf port ≠ .peer) then .next s
  else if !b.reply then .next (s.sendBeacon port (s.ownBeacon true b.t1 now now))
  else if s.timeless then .next s
  else
    let s := s.setTime { s.time with linkDelay := Tbl.put s.time.linkDelay port (beaconDelay b) }
    let off := beaconOffset b
    if s.ptpActive then
      if 500 < (off - s.time.offset).natAbs then
        .next (s.raise { code := 0x1202, sev := 2, unit := srcTime,
                         args := leBytes 1 port ++ leBytes 4 (unsign 32 (off - s.time.offset)) })
      else .next s
    else if b.locked && decide (b.hops.toNat ≤ 2) then
      let tai := s.val .vaultEpoch 0 0 + (unitsToNs ((b.t3.toNat : Int) + beaconDelay b)).toNat
      let (off', s') := s.acquire off tai
      .next ((s'.setTime { s'.time with hops := b.hops.toNat + 1 }).measured off' (.beacon port))
    else .next s

/-- A beacon is due on a peer port in state On whose link is Up: 64 courses have passed since the last (R58). -/
def State.beaconDue (s : State) (p : Nat) : Bool :=
  s.isUp p && decide (s.roleOf p = .peer) && decide ((Tbl.get s.funcs (1024 + p) FnWord.init).state = .on)
    && match Tbl.find s.time.beaconSent p with | some t => decide (t + 64 * 4096 ≤ s.now) | none => true

/-- The beacons of one round (R58), on each port where one is due. -/
def State.beaconRound (s : State) : List Nat → State
  | [] => s
  | p :: ps =>
    let s' := if s.beaconDue p then
        (s.setTime { s.time with beaconSent := Tbl.put s.time.beaconSent p s.now }).sendBeacon p
          (s.ownBeacon false (BitVec.ofNat 64 (s.shown s.now)) 0 0)
      else s
    s'.beaconRound ps

/-- Every 64 courses the module sends a TimeBeacon on each peer port in state On (R58). -/
def execBeaconSend (s : State) : Host.Outcome State Fault Refusal :=
  if s.dark then .next s else .next (s.beaconRound (upTo 32))

/-- No measurement for 1 s, judged at a course boundary (R60). -/
def execTimeHoldover (s : State) : Host.Outcome State Fault Refusal :=
  let b := stampOf s.time.course 0
  if (s.time.mode = .locked || s.time.mode = .loose) && decide (s.time.lastMeas + oneSecond ≤ b) && !s.dark && decide (s.time.pos = 0) then
    .next (s.timeTo .holdover s.time.offset)
  else .next s

/-- The offset estimated in Holdover passes 1 µs (R60): 100 ns a second since the last measurement, its sign that of the
last offset. It is judged at a course boundary. -/
def execHoldoverEstimateAdrift (s : State) : Host.Outcome State Fault Refusal :=
  let el := stampOf s.time.course 0 - s.time.lastMeas
  let a := s.time.offset.natAbs
  if s.time.mode = .holdover && decide (1000 * oneSecond < a * oneSecond + 100 * el) && !s.dark && decide (s.time.pos = 0) then
    let est : Int := (a + 100 * el / oneSecond : Nat)
    .next (s.timeTo .adrift (if s.time.offset < 0 then -est else est))
  else .next s

/-- The comparison of two Announce data sets (IEEE 1588-2019, named by R58): true when the first is better. -/
def announceBetter (a b : Announce) : Bool :=
  let ka := [a.priority1.toNat, a.clockClass.toNat, a.accuracy.toNat, a.variance.toNat, a.priority2.toNat,
             a.identity.toNat, a.stepsRemoved.toNat]
  let kb := [b.priority1.toNat, b.clockClass.toNat, b.accuracy.toNat, b.variance.toNat, b.priority2.toNat,
             b.identity.toNat, b.stepsRemoved.toNat]
  decide (ka < kb)

/-- A received Announce message (R58): the better of it and the present master is kept; a message of the present master
renews it, and one that has been silent for the announce timeout gives way. The module is slave-only and never becomes a master. -/
def execPtpAnnounce (domain : Byte) (a : Announce) (s : State) : Host.Outcome State Fault Refusal :=
  if s.timeless || decide (domain.toNat ≠ s.val .ptpDomain 0 0) then .next s
  else
    let take := match s.time.master with
      | none => true
      | some (m, t) => decide (m.identity = a.identity) || announceBetter a m || decide (t + 4096 * Config.announceTimeout ≤ s.now)
    .next (if take then s.setTime { s.time with master := some (a, s.now) } else s)

/-- The stamp of the first entry not yet drained. -/
def Tally.pageStamp (t : Tally) : Option Nat := ((t.entries.drop (t.drained - t.oldest)).head?).map (·.stamp)

/-- A tally page is due: full, or 500 courses old, or in write-through at the first boundary after its first entry
(R66, R395). -/
def State.pageDue (s : State) : Bool :=
  decide (128 ≤ s.tally.undrained) ||
  match s.tally.pageStamp with
  | none => false
  | some st => decide (st + 500 * 4096 ≤ s.now) ||
      (s.cistern.writeThrough && decide (boundaryAfter st ≤ stampOf s.time.course 0))

/-- Saturation at 65,535 (R64). -/
def sat16 (n : Nat) : Nat := min n 65535

/-- Once the ring falls below half, one TALLY_OVERFLOW reports what was not written, and writing resumes (R67). DESIGN CHOICE: with nothing
counted there is nothing to report, and no entry. -/
def State.overflowEnd (s : State) : State :=
  let t := s.tally
  if t.missFirst.isSome && decide (2 * t.undrained < ringSize) then
    (s.setTally { t with infoOff := false, noticeOff := false, missInfo := 0, missNotice := 0, missWarning := 0,
                         missFault := 0, missFirst := none }).raise
      { code := 0x1210, sev := 2, unit := srcTally,
        args := leBytes 2 (sat16 t.missInfo) ++ leBytes 2 (sat16 t.missNotice) ++ leBytes 2 (sat16 t.missWarning)
          ++ leBytes 2 (sat16 t.missFault) ++ leBytes 4 (t.missFirst.getD 0) }
  else if 2 * t.undrained < ringSize then s.setTally { t with infoOff := false, noticeOff := false }
  else s

/-- A tally page that is due is drained to the Cellar (R66); the writer's buffer takes the room that is freed (R67). -/
def execTallyPageDrain (s : State) : Host.Outcome State Fault Refusal :=
  if s.dark || !s.pageDue then .next s
  else
    let n := min 128 s.tally.undrained
    .next ((s.setTally (s.tally.drain n)).overflowEnd.unhold)

end Sys2Proof.Machine
end

