-- ==== Sys2Proof/Machine/PowerLoss.lean ====
section
/-!
DEFINITION. Sys2Proof/Machine/PowerLoss.lean: Brace, Flush and Sealed (R35, R99, R398 to R401), module failure (R25, R27, R31).
-/

namespace Sys2Proof.Machine

/-- FAULT_N asserted until the next start begins (R511). -/
def State.assertFault (s : State) : State := s.setBoard { s.board with faultN := true }

/-- A shelf command that Brace finds running is void (R225): its stair or what it had taken is given up, and what the next start owes to it is
kept. -/
def State.voidShelf (s : State) (n : Nat) : State :=
  let f := s.shelf n
  match f.job with
  | none => s
  | some j =>
    let s := if j.op = 1 then s.abandonShelve n else s.endStair n
    let r := shelfResult n j.op 6 j.version (s.shown j.start) (s.shown s.now) (f.pagesOf j.version) j.bytes j.poisoned
    let s := s.setShelf n { s.shelf n with job := none, result := r }
    let calls : List (Nat × Nat × Nat × List Byte) := match j.src with | .call id room line => [(room, line, id, r)] | .od => []
    let ids := calls.map fun c => c.2.2.1
    let s := s.setCores { s.cores with voids := s.cores.voids.filter fun v => !ids.contains v.2.2.1 }
    s.setFlush { s.flush with shelfVoids := s.flush.shelfVoids ++ [(n, j.version, j.op, f.room)], shelfCalls := s.flush.shelfCalls ++ calls }

/-- The pack carries the module (R397): the input is below 38 V. -/
def State.onPack (s : State) : State :=
  s.updCistern fun c => { c with mode := if c.mode = .idle then .idle else .supplying, phase := .none }

/-- Brace begins (R398) in the cycle of its event: the flush record is opened; calls, shelf commands and versions being sealed are void; a
slice stops at once (R478). -/
def State.startBrace (s : State) (cause : BraceCause) : State :=
  let quiet := decide (s.power.mode = .quiet)
  let s := s.updPower fun p => { p with mode := .brace, quiet := .none, exitAt := none, exitOwed := false, braceStamp := s.now,
                                        braceCause := cause, braceQuiet := quiet }
  let s := s.setFlush { s.flush with seq := s.flush.seq + 1, isOpen := true, sealed := false, stamp := s.now, listDone := false, list := [],
                                     done := 0, volList := [] }
  let s := s.voidCalls
  let s := s.shelves.foldl (fun s e => s.voidShelf e.1) s
  let (void, s) := s.voidVersions
  let s := (s.setFlush { s.flush with pubVoids := s.flush.pubVoids ++ void }).abortSlice 3
  let s := s.updCistern fun c => { c with phase := .none }
  (if cause = .below38 ∨ s.board.vin < 38000 then s.onPack else s).retryAll

/-- An event of R35 before S13 has ended (R467): the step stops at its safe point as interrupted, and the module is Sealed with no flush. -/
def State.sealStart (s : State) (cause : BraceCause) : State :=
  let s := if 1 ≤ s.start.step ∧ s.start.step ≤ 13 then s.interruptSteps else s
  let s := (s.updStart fun x => { x with step := 0, waiting := none }).portsQuiet
  s.updPower fun p => { p with mode := .sealed, sealedAt := s.now, braceCause := cause, quiet := .none, exitAt := none }

/-- The module is up: it has completed S13 and no Brace has begun. -/
def State.isRunning (s : State) : Bool := s.serving || decide (s.power.mode = .quiet)

/-- A power event of R35 in whatever state it finds the module; Brace and Flush are never reversed, and events taken in one cycle start one
Brace whose cause is the first of them (R510). -/
def State.powerLoss (s : State) (cause : BraceCause) : State :=
  if s.isRunning then s.startBrace cause
  else if s.power.mode = .starting then s.sealStart cause
  else if s.power.mode = .brace ∧ s.power.braceStamp = s.now ∧ cause = .pwrfail ∧ s.power.braceCause = .failure then
    s.updPower fun p => { p with braceCause := .pwrfail }
  else if (s.power.mode = .brace ∨ s.power.mode = .flush) ∧ cause = .below38 then s.onPack
  else s

/-- A module failure (R31): FAULT_N, and Brace, Flush and Sealed as on power loss, to stay there until RESET_N or a power cycle. Brace and
Flush under way run on (R35), to a Sealed that the module does not leave; a module that is Off has nothing to fail. -/
def State.moduleFail (s : State) : State :=
  if s.power.mode = .off then s
  else (s.assertFault.powerLoss .failure).updPower fun p => { p with failure := true }

/-- A discrete input (R508). -/
def State.input (s : State) (i : Nat) : Pin := Tbl.get s.board.pins i ⟨false, false, false, false, 0, none⟩
/-- A discrete input replaced. -/
def State.setInput (s : State) (i : Nat) (p : Pin) : State := s.setBoard { s.board with pins := Tbl.put s.board.pins i p }

/-- An input taken asserted now. -/
def State.takeInput (s : State) (i : Nat) : State := s.setInput i { s.input i with taken := true, since := s.now }

/-- PWRFAIL_N_ASSERTED (R35, R508): one declared faulty is ignored (R510). -/
def State.pwrfail (s : State) : State :=
  if (s.input 0).faulty then s.takeInput 0 else (s.takeInput 0).powerLoss .pwrfail

/-- PWRFAIL_N_ASSERTED as an event. -/
def execPwrfailNAsserted (s : State) : Host.Outcome State Fault Refusal := .next s.pwrfail

/-- INPUT_BELOW_38V (R35, R397). -/
def execInputBelow38v (s : State) : Host.Outcome State Fault Refusal := .next (s.powerLoss .below38)

/-- REGION_FAULT (R25): a lost region is a module failure. -/
def execRegionFault (_region : Fin 4) (s : State) : Host.Outcome State Fault Refusal := .next s.moduleFail

/-- DIE_AT_LIMIT (R18, R26, R27): a die at its limit for 50 courses is a failed cluster of its kind: the logic die all of the module, a Loft die
its bond blocks, a package its Store ranks or its two Cellar channels. -/
def execDieAtLimit (die : Fin 53) (s : State) : Host.Outcome State Fault Refusal :=
  let d := die.val
  if Tbl.get s.board.hot d 0 < 50 ∨ s.dark then .next s
  else if d = 0 then .next s.moduleFail
  else if d < 5 then .next ((upTo 8).foldl (fun s b => s.markRetired (d - 1) (0x280 + b) 1 6) s)
  else if d < 37 then
    let r := (d - 5) / 8
    let q := (d - 5) % 8
    let s := s.markRetired r (0x1A0 + q) 1 6
    .next (((upTo 8).foldl (fun s i => s.retireRankAs r (8 * q + i) Config.packageCause 6) s).retryAll)
  else
    let c := 2 * (d - 37)
    let one (s : State) (c : Nat) : State := if s.isRetired (c / 8) (cchanUnit c) then s else s.retireCchan c 6
    .next (one (one s c) (c + 1))

/- ## The Keeper's watchdog (R31, R464) -/

/-- KEEPER_WATCHDOG: a restart of the Keeper wherever it serves, in Brace, Flush, Sealed and a halted start too; a second within 10 minutes is
a module failure; one in S02 to S13 starts the module again. -/
def execKeeperWatchdog (s : State) : Host.Outcome State Fault Refusal :=
  if s.isRunning ∨ s.power.mode = .brace ∨ s.power.mode = .flush ∨ s.power.mode = .sealed ∨ (s.power.mode = .starting ∧ s.start.step = 15) then
    let soon := match s.power.keeperRestart with | some t => decide (s.now < t + 300000000 * 4096) | none => false
    .next (if soon then s.moduleFail
      else s.updPower fun p => { p with keeperDown := true, keeperRestart := some s.now })
  else if s.power.mode = .starting ∧ 2 ≤ s.start.step ∧ s.start.step ≤ 13 then .next (s.startAsk 7)
  else .next s

/-- KEEPER_RESTART_DONE: requests are served again, and the events held enter the tally. -/
def execKeeperRestartDone (s : State) : Host.Outcome State Fault Refusal :=
  .next (if s.power.keeperDown then (s.updPower fun p => { p with keeperDown := false }).unhold else s)

/- ## Flush (R399, R400) -/


/-- The ERASED zone superblocks of a set, in order. -/
def State.zoneErased (s : State) (set : Nat) : List Nat :=
  ((upTo zonePerSet).map fun i => 65536 * set + i).filter fun k => decide ((s.super k).mode = SbMode.erased)

/-- Data bytes of a zone row, its header of 64 B among them (R336, R350, R356), counted as `zoneLoc` counts rows. -/
def State.zoneRowBytes (s : State) (set row : Nat) : Nat :=
  match (s.zoneErased set)[row / rowsPerSb]? with | some k => rowData (s.sbDies k) true | none => 983040

/-- The rows of set 0 that a number of bytes fills. -/
def State.zoneRows (s : State) (bytes : Nat) : Nat := ceilDiv bytes (s.zoneRowBytes 0 0 - 64)

/-- The place of a zone row, counted from the first of a set's ERASED superblocks. -/
def State.zoneLoc (s : State) (set row off : Nat) : Option Loc :=
  ((s.zoneErased set)[row / rowsPerSb]?).map fun k => ⟨sbSet k, k % 65536 / 2543, k % 65536 % 2543, row % rowsPerSb, off, s.sbDies k⟩

/-- The first row from one on that is not among those lost (R356). -/
def rowFrom (lost : List Nat) (r : Nat) : Nat → Nat
  | 0 => r
  | n + 1 => if lost.contains r then rowFrom lost (r + 1) n else r

/-- Images laid one after another in zone rows (R339, R350): per set the row reached and the bytes used in it. A page goes to the set its slot's lowest
bit names. Rows that were lost take none: their images stand in the next row (R356). -/
def State.placeZone (s : State) (lost : Nat → List Nat) : (Nat × Nat) × (Nat × Nat) → List FlushItem → List FlushItem × ((Nat × Nat) × (Nat × Nat))
  | at_, [] => ([], at_)
  | at_, x :: xs =>
    let set := x.slot % 2
    let (r, u) := if set = 0 then at_.1 else at_.2
    let b := (16 + x.bytes + 63) / 64 * 64
    let (r, u) := if u + b ≤ s.zoneRowBytes set r then (r, u) else (r + 1, 64)
    let r' := rowFrom (lost set) r (lost set).length
    let u := if r' = r then u else 64
    let y := { x with loc := s.zoneLoc set r' u }
    let next := if set = 0 then ((r', u + b), at_.2) else (at_.1, (r', u + b))
    let (ys, end_) := s.placeZone lost next xs
    (y :: ys, end_)

/-- A slot for each page of a list in turn (R399 step 3), with an image that is not yet programmed. -/
def State.listPages (s : State) : List (Nat × Page) → List FlushItem × State
  | [] => ([], s)
  | (k, p) :: rest =>
    let slot := s.slotFor p
    let s := match s.image slot with
      | some _ => s
      | none => s.putImage slot (imageOf k p.form none 0)
    let (l, s) := s.listPages rest
    (⟨slot, p.groupSeq, k, p.dirtySince, storedSize p.store, none⟩ :: l, s)

/-- The slots of durable pages are compressed and written to the Store (R399 step 1); the keys of a Lock go after that (R433). -/
def State.flushLanding (s : State) : State :=
  let mine := s.landing.filter fun e => !e.2.filling && s.durableBrick e.1
  let s := if s.sec.keysOff then s else mine.foldl (fun s e => (s.storeSlot e.1 e.2 0).getD s) s
  s.updSec fun x => { x with keysOff := x.keysOff || x.locked }

/-- The ring is programmed, which ends an overflow (R67); what the writer's buffer holds follows, with the Keeper down too; TALLY_SEAL is
written, and the writer stops (R68, R399 step 2). -/
def State.sealTally (s : State) : State :=
  let down := s.power.keeperDown
  let held := s.tally.held
  let s := (s.updPower fun p => { p with keeperDown := false }).setTally { s.tally.drain s.tally.undrained with held := [] }
  let s := s.overflowEnd
  let s := (s.setTally { s.tally with held := held }).unholdN held.length
  let s := s.raise { code := 0x1212, sev := 1, unit := srcTally, args := leBytes 8 s.tally.sinceStart }
  (s.setTally { s.tally.drain s.tally.undrained with sealed := true }).updPower fun p => { p with keeperDown := down }

/-- The DIRTY pages, oldest first (R399 step 3). -/
def State.dirtyPages (s : State) : List (Nat × Page) :=
  sortBy (fun a b => decide (a.2.dirtySince < b.2.dirtySince)) (s.pages.filter fun e => decide (e.2.mode = PageMode.dirty))

/-- Flush begins (R399): the landing, the ring and the list. Rows being filled or programmed are given up; their pages are DIRTY still. A Brace
from Quiet has nothing to write (R36). -/
def State.startFlush (s : State) : State :=
  let s := s.updPower fun p => { p with mode := .flush, flushStamp := s.now }
  let s := s.updCistern fun c => { c with energy := c.e / 10 ^ 17 }
  let s := if s.power.braceQuiet then s else s.flushLanding
  let s := s.sealTally
  let s := s.setCellar { s.cellar with rows := [], programs := [] }
  let (l, s) := s.listPages s.dirtyPages
  s.setFlush { s.flush with list := l }

/-- BRACE_END (R398): no admitted request remains open. -/
def execBraceEnd (s : State) : Host.Outcome State Fault Refusal :=
  .next (if s.power.mode = .brace ∧ s.reqs.opened.isEmpty ∧ s.pubs.waiting.isEmpty ∧ s.pubs.opens.isEmpty then s.startFlush else s)

/-- BRACE_LIMIT (R398). -/
def execBraceLimit (s : State) : Host.Outcome State Fault Refusal :=
  .next (if s.power.mode = .brace ∧ s.power.braceStamp + 4096 * s.val .braceLimit 0 0 ≤ s.now then s.failOpen.startFlush else s)

/-- CAUSE of a manifest (R400). -/
def Power.manifestCause (p : Power) : Nat :=
  if p.braceQuiet then 4 else match p.braceCause with | .pwrfail => 1 | .below38 => 2 | .failure => 3

/-- Superblocks of the zone that a flush has written become SEALED, full ones with all their rows. -/
def State.sealZone (s : State) (set rows : Nat) : State :=
  ((s.zoneErased set).take (ceilDiv rows rowsPerSb)).zipIdx.foldl (fun s x =>
    s.setSuper x.1 { s.super x.1 with mode := .sealed, rows := min rowsPerSb (rows - rowsPerSb * x.2), sealedAt := s.now }) s

/-- The images of the lists programmed in zone rows behind `lead` rows of set 0, some rows being lost. -/
def State.programZone (s : State) (lead : Nat) (lost : Nat → List Nat) (list : List FlushItem) : List FlushItem × Nat × Nat :=
  let (l, at_) := s.placeZone lost ((lead, 64), (0, 64)) list
  let full (x : Nat × Nat) : Nat := if x.2 ≤ 64 then x.1 else x.1 + 1
  (l, full at_.1, full at_.2)

/-- VOLATILE pages of windows with VOLATILE_FLUSH, in order of last write (R399 step 6). -/
def State.volatilePages (s : State) : List (Nat × Page) :=
  sortBy (fun a b => decide (a.2.dirtySince < b.2.dirtySince))
    (s.pages.filter fun e => decide (e.2.mode = PageMode.volatile) && attrVolFlush (s.pageAttr e.1))

/-- The module enters Sealed (R99, R399): ports Down, the pack switch open. -/
def State.enterSealed (s : State) : State :=
  let s := (s.updPower fun p => { p with mode := .sealed, sealedAt := s.now }).portsQuiet
  s.updCistern fun c => { c with mode := .idle }

/-- FLUSH_COMPLETE (R399, R400): the images are programmed and the manifest with them; `drawn` is what the pack gave in J; `zone` holds how
many pages of step 6 its energy allowed and the rows whose program failed, the block of each being retired and replaced (R356). -/
def execFlushComplete (drawn : BitVec 32) (zone : ZoneFlush) (s : State) : Host.Outcome State Fault Refusal :=
  if s.power.mode ≠ .flush then .next s
  else
    let f := s.flush
    let vol := if s.power.braceQuiet then [] else s.volatilePages
    let (volList, s) := s.listPages (vol.take zone.volatile.toNat)
    let rowsLost (set : Nat) : List Nat := (zone.lost.filter fun x => decide (x.fail.channel.val % 2 = set)).map fun x => x.row.toNat
    let (l, r0, r1) := s.programZone (s.zoneRows (8 * f.list.length)) rowsLost (f.list ++ volList)
    let rows := r0 + r1
    let first := s.cellar.rowSeq + 1
    let man (kind : Nat) (items : List FlushItem) : FlushManifest :=
      { kind := kind, cause := s.power.manifestCause, seq := f.seq, brace := s.shown f.stamp, flush := s.shown s.power.flushStamp, fin := s.shown s.now,
        entries := items.length, stored := (items.map (·.bytes)).sum, firstRow := if rows = 0 then 0 else first,
        lastRow := if rows = 0 then 0 else s.cellar.rowSeq + rows, energy := s.cistern.energy, drawn := drawn.toNat }
    let n := f.list.length
    let bad (s : State) (x : Nat × ZoneFail) : State := s.failBlock x.1 x.2.fail 3
    let fails := zone.lost.filterMap fun x => ((s.zoneErased (x.fail.channel.val % 2))[x.row.toNat / rowsPerSb]?).map fun k => (k, x)
    let s := fails.foldl bad ((s.sealZone 0 r0).sealZone 1 r1)
    let s := s.setCellar { s.cellar with rowSeq := s.cellar.rowSeq + rows }
    let s := s.setFlush { s.flush with
      list := l.take n, listDone := true, done := n, durable := some (man 0 (l.take n)), sealed := true,
      volList := l.drop n, volatile := if vol.isEmpty then none else some (man 1 (l.drop n)) }
    .next s.enterSealed

/-- What a module loses with its rails (R66, R449, R452): the tally entries not drained and the counts of the writer, the transport sessions,
the I3C address. -/
def State.railsLost (s : State) : State :=
  let t := s.tally
  let s := s.setTally { t with entries := t.entries.take (t.drained - t.oldest), held := [], infoOff := false, noticeOff := false, missInfo := 0,
                               missNotice := 0, missWarning := 0, missFault := 0, missFirst := none }
  let s := (s.setOd { s.od with sessions := [], i3c := { s.od.i3c with addr := 0, waiting := [] } }).setNotify []
  s.setBoard { s.board with vin := 0, aux := 0 }

/-- The module is Off. -/
def State.goOff (s : State) : State :=
  (s.railsLost.portsQuiet.updCistern fun c => { c with mode := .idle }).updPower fun p => { p with mode := .off, failure := false, keeperDown := false }

/-- RAILS_FALL (R35, R402): in Sealed the module goes Off. Rails that fall in Brace or Flush leave a list that is not complete, or one with the
first `programmed` of its images in programmed rows; in a start they leave its step begun with no end (R469). -/
def execRailsFall (listed : Bool) (programmed : BitVec 40) (s : State) : Host.Outcome State Fault Refusal :=
  match s.power.mode with
  | .sealed => .next s.goOff
  | .off => .next s.goOff
  | .brace => .next (s.setFlush { s.flush with listDone := false, list := [] }).goOff
  | .flush =>
    if !listed then .next (s.setFlush { s.flush with listDone := false, list := [] }).goOff
    else
      let n := programmed.toNat
      let (l, r0, r1) := s.programZone (s.zoneRows (8 * s.flush.list.length)) (fun _ => []) (s.flush.list.take n)
      let s := (s.sealZone 0 r0).sealZone 1 r1
      let s := s.setCellar { s.cellar with rowSeq := s.cellar.rowSeq + r0 + r1 }
      .next (s.setFlush { s.flush with listDone := true, list := l ++ s.flush.list.drop n, done := l.length }).goOff
  | .starting => .next (s.updStart fun x => { x with step := 0, waiting := none }).goOff
  | _ => .next s

/-- POWER_RETURN (R35, R506, R510): in Sealed after a power loss, PWRFAIL_N deasserted, or taken so, the input switch closed and the supplies
back; a RESET_N still asserted holds the module. -/
def State.powerReturns (s : State) : Bool :=
  decide (s.power.mode = .sealed) && !s.power.failure && decide (s.power.braceCause ≠ .failure)
    && (!(s.input 0).taken || (s.input 0).faulty) && !(s.input 2).taken && s.auxIn && !s.board.switchOpen

/-- POWER_RETURN as an event. -/
def execPowerReturn (s : State) : Host.Outcome State Fault Refusal := .next (if s.powerReturns then s.startAsk 3 else s)

end Sys2Proof.Machine
end

