-- ==== Sys2Proof/Machine/Link.lean ====
section
/-!
DEFINITION. Sys2Proof/Machine/Link.lean: the roles, the training and the width of the link ports (R73 to R78, R100), their failures at S10
(R470), and the replay of flits (R81).
-/

namespace Sys2Proof.Machine

/- ## Roles (R74) -/

/-- PORT_ROLE (R74): refused when no Companion port would be left, or when a port that owns a room would be neither Host nor Companion. It
counts from the port's next start. -/
def actPortRole (p v : Nat) : Act := fun s =>
  let others := (upTo 32).any fun q => decide (q ≠ p) && decide (s.wantedRole q = .companion)
  let owner := (upTo 64).any fun k => s.owns p k
  if v ≠ 1 ∧ !others then (rNo stRefused, s)
  else if v ≠ 1 ∧ v ≠ 2 ∧ owner then (rNo stRefused, s)
  else (rOk, s.setVal .portRole p 0 v)

/-- PORT_ROLE as a command. -/
def execPortRole (rq : Rq) (port : Fin 32) (payload : List Byte) (s : State) : Host.Outcome State Fault Refusal :=
  .next (s.odWrite rq .portRole port 0 payload noCalls (actPortRole port (ofLe payload)))

/- ## Widths (R16, R76) -/

/-- The link lanes of a port that are not retired, of those given. -/
def State.goodLanes (s : State) (p lanes : Nat) : Nat :=
  (upTo 4).foldl (fun m l => setBit m l (bitOf lanes l && !s.isRetired (p / 8) (0x040 + 4 * (p % 8) + l))) 0

/-- The width lanes give, and the pair or lane in use at x2 or x1 (R16, R76, R104); at most `most` lanes. -/
def linkWidth (lanes most : Nat) : Nat × Nat :=
  if lanes % 16 = 15 ∧ 4 ≤ most then (4, 0)
  else if lanes % 4 = 3 ∧ 2 ≤ most then (2, 0)
  else if lanes / 4 % 4 = 3 ∧ 2 ≤ most then (2, 1)
  else match (upTo 4).find? fun l => bitOf lanes l with
    | some l => (1, l)
    | none => (0, 0)

/-- The lanes a port may use: the governor holds Host and Peer ports at x2 (R38). -/
def State.mostLanes (s : State) (p : Nat) : Nat :=
  if s.power.x2 ∧ (s.roleOf p = .host ∨ s.roleOf p = .peer) then 2 else 4

/-- A lane's five transmit taps in signed 64ths, c−3 first (R75, R104): each in its range, their magnitudes summing to 1. -/
def laneTapsLegal (t : List Byte) : Bool :=
  let v (i : Nat) : Int := (t.getD i 0).toInt
  let within (i : Nat) (a b : Int) : Bool := decide (a ≤ v i) && decide (v i ≤ b)
  within 0 0 6 && within 1 (-12) 0 && within 2 (-25) 0 && within 3 32 64 && within 4 (-12) 0
    && decide (((upTo 5).map fun i => (v i).natAbs).sum = 64)

/-- The taps of the four lanes. -/
def tapsLegal (b : List Byte) : Bool := (upTo 4).all fun l => laneTapsLegal ((b.drop (5 * l)).take 5)

/- ## Training (R77, R78, R470) -/

/-- A port's function word, none past the last port. -/
def State.portFn (s : State) (p : Nat) : FnWord := if h : p < 32 then s.fn (.port ⟨p, h⟩) else FnWord.init

/-- A failed attempt of a port at S10 (R470): once more, or with a count of 2 disabled for this start and every later one. -/
def State.portFailed (s : State) (p : Nat) : State :=
  if h : p < 32 then
    if s.power.mode ≠ .starting ∨ s.start.step ≠ 10 then s
    else
      let n := s.failCount 3 p + 1
      let s := s.setFailCount 3 p n
      if n < 2 then s.updPort p fun q => { q with link := .detect, since := s.now }
      else
        let s := (s.fnHold (.port ⟨p, h⟩) 3).updStart fun x => { x with items := x.items + 1 }
        s.raise { code := 0xA004, sev := 2, unit := srcKeeper, args := leBytes 1 3 ++ leBytes 1 p ++ leBytes 1 10 }
  else s

/-- A link state entered now. -/
def State.linkTo (s : State) (p : Nat) (m : LinkMode) : State := s.updPort p fun q => { q with link := m, since := s.now }

/-- RECEIVER_DETECTED (R77) within 500 courses: the lanes on which one stands, those retired left out. -/
def execReceiverDetected (port : Fin 32) (lanes : BitVec 4) (s : State) : Host.Outcome State Fault Refusal :=
  let l := s.goodLanes port lanes.toNat
  let q := s.port port
  .next (if q.link = .detect ∧ l ≠ 0 ∧ s.now ≤ q.since + 500 * 4096 then (s.updPort port fun q => { q with lanes := l }).linkTo port .equalise else s)

/-- DETECT_TIMEOUT (R77). -/
def execDetectTimeout (port : Fin 32) (s : State) : Host.Outcome State Fault Refusal :=
  let q := s.port port
  .next (if q.link = .detect ∧ q.since + 500 * 4096 ≤ s.now then s.portDown port 5 false else s)

/-- DETECT_RETRY (R77): a port whose Detect or Configure came to its limit tries again after 5,000 courses in Starting. -/
def execDetectRetry (port : Fin 32) (s : State) : Host.Outcome State Fault Refusal :=
  let q := s.port port
  .next (if q.link = .down ∧ q.retry ∧ (s.fn (.port port)).state = .starting ∧ q.since + 5000 * 4096 ≤ s.now then s.linkTo port .detect else s)

/-- EQUALISE_DONE (R77), within 2,500 courses. -/
def execEqualiseDone (port : Fin 32) (s : State) : Host.Outcome State Fault Refusal :=
  let q := s.port port
  .next (if q.link = .equalise ∧ s.now ≤ q.since + 2500 * 4096 then s.linkTo port .configure else s)

/-- EQUALISE_LIMIT (R77): the port configures with the lanes that agreed; with none it goes Down. -/
def execEqualiseLimit (port : Fin 32) (agreed : BitVec 4) (s : State) : Host.Outcome State Fault Refusal :=
  let q := s.port port
  if q.link ≠ .equalise ∨ s.now < q.since + 2500 * 4096 then .next s
  else
    let l := s.goodLanes port (q.lanes &&& agreed.toNat)
    .next (if l = 0 then (s.portDown port 4 false).portFailed port
      else (s.updPort port fun q => { q with lanes := l }).linkTo port .configure)

/-- The code of a role (R104). -/
def roleNo : PortRole → Nat
  | .off => 0 | .companion => 1 | .host => 2 | .peer => 3

/-- The credits the SX9 grants at Up, by type code (R86). -/
def grants : Tbl Nat := [(0, 512), (1, 256), (2, 1024), (4, 256), (5, 256), (6, 1024), (7, 16)]

/-- A port goes Up (R77, R78, R86): PORT_UP, its function On. -/
def State.portUp (s : State) (p : Fin 32) (partner : Partner) (reversed : Bool) (polarity width at_ : Nat) : State :=
  let q := s.port p
  let hold := decide (q.role = .peer) || (partner.hold && decide (s.val .holdEnable p 0 = 1))
  let map := bit01 reversed * 128 + polarity * 8 + at_
  let s := s.setPort p { q with
    link := .up, since := s.now, width := width, laneMap := map, hold := hold, partner := some partner, fec := [],
    rxSeq := 0, txSeq := 0, acked := 4095, sinceAck := 0, nackSent := 0, nackRun := 0, spent := [], rx := grants, announced := [], odOpen := [], retry := false }.unsent
  let s := s.movesBack p
  let s := s.raise { code := 0x1101, sev := 0, region := p.val / 8, unit := 0x060 + p.val % 8,
                     args := leBytes 1 p ++ leBytes 1 width ++ leBytes 1 map ++ leBytes 1 (roleNo partner.role) }
  let s := if s.power.mode = .starting ∧ s.start.step = 10 then s.setFailCount 3 p 0 else s
  let f := s.fn (.port p)
  if f.state ≠ .starting then s else if f.pendDis then s.fnStop (.port p) 0 else (s.fnOn (.port p)).retryAll

/-- CONFIGURE_EXCHANGE (R77, R78), within 500 courses: a role that does not match takes the port Down; so does a width below the least. -/
def execConfigureExchange (port : Fin 32) (partner : Partner) (reversed : Bool) (polarity : BitVec 4) (s : State) :
    Host.Outcome State Fault Refusal :=
  let q := s.port port
  if q.link ≠ .configure ∨ q.since + 500 * 4096 < s.now then .next s
  else if partner.role ≠ q.role then
    .next ((s.linkTo port .down).raise
      { code := 0x1104, sev := 2, region := port.val / 8, unit := 0x060 + port.val % 8,
        args := leBytes 1 port ++ leBytes 1 (roleNo q.role) ++ leBytes 1 (roleNo partner.role) })
  else
    let (w, at_) := linkWidth (s.goodLanes port q.lanes) (s.mostLanes port)
    .next (if w < s.val .portMinWidth port 0 then s.portDown port 4 false
      else s.portUp port partner reversed polarity.toNat w at_)

/-- CONFIGURE_TIMEOUT (R77). -/
def execConfigureTimeout (port : Fin 32) (s : State) : Host.Outcome State Fault Refusal :=
  let q := s.port port
  .next (if q.link = .configure ∧ q.since + 500 * 4096 ≤ s.now then (s.portDown port 6 false).portFailed port else s)

/- ## Retrain (R77, R100) -/

/-- An Up port goes to Retrain, with a RETRAIN flit where the partner has not sent one (R80); flits, credits and the replay buffer stand. -/
def State.startRetrain (s : State) (p trigger : Nat) : State :=
  if (s.port p).link ≠ .up then s
  else
    let s := if trigger = 4 then s else s.emit p (s.port p) 3 0 0 []
    (s.updPort p fun q => { q with oldWidth := q.width, trigger := trigger, retrains := q.retrains + 1, nackSent := 0, nackRun := 0,
                                   sinceAck := 0 }).linkTo p .retrain

/-- The code of a trigger (R105), in the order of R77's row. -/
def triggerOf : RetrainCause → Nat
  | .replay => 0 | .lane => 1 | .governor => 2 | .steward => 3

/-- RETRAIN (R77). -/
def execRetrain (port : Fin 32) (cause : RetrainCause) (s : State) : Host.Outcome State Fault Refusal :=
  .next (s.startRetrain port (triggerOf cause))

/-- PORT_RETRAIN, which records each Retrain as it ends (R100, R105). -/
def State.retrained (s : State) (p w : Nat) : State :=
  let q := s.port p
  s.raise { code := 0x1103, sev := 1, region := p / 8, unit := 0x060 + p % 8,
            args := leBytes 1 p ++ leBytes 1 q.oldWidth ++ leBytes 1 w ++ leBytes 1 q.trigger }

/-- RETRAIN_DONE (R77), within 250 courses: Up at the same or a narrower width, or with the governor's step undone at the wider one (R38); below the least width
Down. -/
def execRetrainDone (port : Fin 32) (lanes : BitVec 4) (s : State) : Host.Outcome State Fault Refusal :=
  let q := s.port port
  if q.link ≠ .retrain ∨ q.since + 250 * 4096 < s.now then .next s
  else
    let most := if q.trigger = 2 then 4 else q.oldWidth
    let (w, at_) := linkWidth (s.goodLanes port lanes.toNat) (min most (s.mostLanes port))
    let s := s.retrained port w
    .next (if w < max 1 (s.val .portMinWidth port 0) then (s.portDown port 4 false).retryAll
      else (s.updPort port fun q => { q with lanes := lanes.toNat, width := w, laneMap := q.laneMap / 8 * 8 + at_ }).linkTo port .up)

/-- RETRAIN_TIMEOUT (R77): Down. DESIGN CHOICE: PORT_RETRAIN names width 0 for a Retrain that gave none. -/
def execRetrainTimeout (port : Fin 32) (s : State) : Host.Outcome State Fault Refusal :=
  let q := s.port port
  .next (if q.link = .retrain ∧ q.since + 250 * 4096 ≤ s.now then ((s.retrained port 0).portDown port 1 false).retryAll else s)

/- ## Replay and lane errors (R81, R100) -/

/-- A NACK taken (R81): the flits after ACK_SEQ are sent again; the eighth in a row for one flit sends the port to Retrain. -/
def State.nacked (s : State) (p ackSeq : Nat) : State :=
  let q := s.port p
  let run := if q.nackRun ≠ 0 ∧ q.nackSeq = ackSeq then q.nackRun + 1 else 1
  let s := (s.setPort p { q.replayFrom ackSeq with nackSeq := ackSeq, nackRun := run }).send (.replay p ((ackSeq + 1) % 4096))
  if 8 ≤ run then s.startRetrain p 0 else s

/-- NACK (R81). -/
def execNack (port : Fin 32) (ackSeq : BitVec 12) (s : State) : Host.Outcome State Fault Refusal :=
  .next (if s.isUp port then s.nacked port ackSeq.toNat else s)

/-- ACK_TIMEOUT (R81): 512 flits sent and no advance of ACK_SEQ. -/
def execAckTimeout (port : Fin 32) (s : State) : Host.Outcome State Fault Refusal :=
  .next (if 512 ≤ (s.port port).sinceAck then s.startRetrain port 0 else s)

/-- The corrected bytes of a lane in the last 1,000 courses. -/
def laneCount (fec : Tbl Nat) (lane : Nat) : Nat := Tbl.total fec fun k n => if k % 4 = lane then n else 0

/-- LANE_FEC_LIMIT (R100): a lane past the limit in 1,000 courses is retired, and the port retrains without it. -/
def execLaneFecLimit (port : Fin 32) (lane : Fin 4) (s : State) : Host.Outcome State Fault Refusal :=
  let q := s.port port
  if laneCount q.fec lane ≤ s.val .laneFecLimit 0 0 ∨ !s.isLinked port then .next s
  else
    let s := s.retireUnit (port.val / 8) (0x040 + 4 * (port.val % 8) + lane.val) 2
    .next ((s.updPort port fun q => { q with fec := Tbl.keep q.fec fun k _ => decide (k % 4 ≠ lane.val) }).startRetrain port 1)

end Sys2Proof.Machine
end

