-- ==== Sys2Proof/Machine/Records.lean ====
section
/-!
DEFINITION. Sys2Proof/Machine/Records.lean: the Loft scrubber (R367, R368), the blocks read from the tally (R516) and from the rubble lists
(R385), and the entries of the Store controller that are written by commands of their own (R314, R325).
-/

namespace Sys2Proof.Machine

/- ## The Loft scrubber -/

/-- The area code of LOFT_UNCORRECTABLE: the row order of R368. -/
def loftAreaNo : LoftArea → Nat
  | .hotPage .. => 0 | .landing .. => 1 | .directory => 2 | .indexCache => 3 | .footing .. => 4 | .mapCache => 5
  | .heat .. => 6 | .stair .. => 6 | .fetchQueue => 7 | .tallyRing .. => 8

/-- What an uncorrectable Loft word does (R368). Records of the index cache, footing bricks, map slots and fetch queues are read again from
where they have a copy. -/
def State.loftLost (s : State) : LoftArea → State
  | .hotPage room page => s.dropLoft (pageKey room page.toNat)
  | .landing room line =>
    let k := lineKey room line.toNat
    match s.slotOf (lineBrick k) with
    | none => s
    | some l => s.putSlot (lineBrick k) { l with poison := setBit l.poison (k % 4) true }
  | .directory => s.moduleFail
  | .heat room page => s.updPage (pageKey room page.toNat) fun p => { p with heat := 0, lastTouch := 0 }
  | .stair t => if (s.fn (.stair t)).state = .on then s.fnStop (.stair t) 0 else s
  | .tallyRing back =>
    let t := s.tally
    if t.undrained ≤ back.toNat then s else s.setTally { t with damaged := t.damaged ++ [t.written - 1 - back.toNat] }
  | .indexCache => s
  | .footing .. => s
  | .mapCache => s
  | .fetchQueue => s

/-- LOFT_UNCORRECTABLE, and what follows (R368, R386). -/
def State.loftBad (s : State) (b : LoftBad) : State :=
  (s.raise { code := 0x7002, sev := 2, region := b.region, unit := 0x240 + b.group.val,
             args := leBytes 1 (loftAreaNo b.area) ++ leBytes 5 b.word.toNat }).loftLost b.area

/-- A bank group's corrected words in a pass: past the limit the group is retired (R367). -/
def State.loftCount (s : State) (c : LoftCount) : State :=
  let s := s.setInteg { s.integ with loftCorrected := s.integ.loftCorrected + c.words.toNat }
  if s.val .loftCeLimit 0 0 < c.words.toNat then s.retireUnit c.region (0x240 + c.group.val) 2 else s

/-- LOFT_SCRUB_PASS (R367): once in 500,000 courses every Loft word has been read. -/
def execLoftScrubPass (counts : List LoftCount) (bad : List LoftBad) (s : State) : Host.Outcome State Fault Refusal :=
  if s.dark ∨ s.now < s.integ.loftFrom + 500000 * 4096 then .next s
  else
    let s := s.setInteg { s.integ with loftFrom := s.now }
    .next (bad.foldl State.loftBad (counts.foldl State.loftCount s))

/- ## TALLY_BLOCK (R516) -/

/-- The 32 bytes of entry number `n` as they are read: the check of a damaged one fails (R62, R368). -/
def Tally.readEntry (t : Tally) (n : Nat) (e : TallyEntry) : List Byte :=
  if t.damaged.contains n then e.body ++ leBytes 2 (65535 - crc16 e.body) else e.bytes

/-- The rooms that an entry's arguments name, as its chapter marks them: the room of PORT_COMPLETION_TIMEOUT (R105), PARITY_ERROR (R386) and
ROOM_CONFIG_REFUSED, the bits of ROOM_CONFIG_APPLIED (R131) and FLUSH_LIST_LOST (R407). -/
def TallyEntry.rooms (e : TallyEntry) : List Nat :=
  let one (i : Nat) : List Nat := [(e.args.getD i 0).toNat]
  let bits (i : Nat) : List Nat := (upTo 64).filter (bitOf (ofLe ((e.args.drop i).take 8)))
  match e.code with
  | 0x1106 => one 1
  | 0x7001 => one 2
  | 0x4001 => bits 4
  | 0x4002 => one 1
  | 0x780C => bits 0
  | _ => []

/-- An entry names a room of the port (R516): by its SOURCE_UNIT, or by its arguments. -/
def State.namesOwn (s : State) (p : Nat) (e : TallyEntry) : Bool :=
  let owns (k : Nat) : Bool := decide (k < 64) && s.owns p k
  (decide (0x300 ≤ e.unit) && owns (e.unit - 0x300)) ||
  e.rooms.any owns

/-- An entry passes a filter and, on a Tenant port, its ownership. -/
def State.tallyPasses (s : State) (c : Option Cls) (filter : Nat) (e : TallyEntry) : Bool :=
  (decide (filter = 0) || bitOf filter (e.code / 4096)) &&
  match c with | some (.tenant p) => s.namesOwn p e | _ => true

/-- Entries examined in number order from `n`, until 8 pass or the list ends: those that pass with their numbers, and the number after the
last examined. -/
def takePassing (pass : TallyEntry → Bool) : Nat → Nat → List TallyEntry → List (Nat × TallyEntry) × Nat
  | _, n, [] => ([], n)
  | 0, n, _ => ([], n)
  | room + 1, n, e :: es =>
    if pass e then let (l, m) := takePassing pass room (n + 1) es; ((n, e) :: l, m)
    else takePassing pass (room + 1) (n + 1) es

/-- TALLY_CURSOR as it stands: raised to TALLY_OLDEST. -/
def State.tallyCursor (s : State) (a : Arrival) : Nat := max s.tally.oldest (s.sessVal a .tallyCursor)

/-- TALLY_BLOCK (R516): up to 8 entries that pass, from the cursor, which advances past the last entry examined. -/
def getTallyBlock (a : Arrival) (s : State) : List Byte × State :=
  let t := s.tally
  let c := s.tallyCursor a
  let (l, next) := takePassing (s.tallyPasses (s.classOf a) (s.sessVal a .tallyFilter)) 8 c ((t.entries.drop (c - t.oldest)).take 65536)
  (fit 256 (l.flatMap fun x => t.readEntry x.1 x.2), s.setSessVal a .tallyCursor next)

/-- TALLY_BLOCK as a command. -/
def execTallyBlock (rq : Rq) (s : State) : Host.Outcome State Fault Refusal :=
  .next (s.odRead rq .tallyBlock 0 0 noCalls (getTallyBlock rq.src))

/- ## RUBBLE_BLOCK, BANK_MASK, STORE_SET_POINT_MAX -/

/-- RUBBLE_BLOCK (R385): 32 rows of a region's list from the cursor, which advances by 32; zeros past the end. -/
def getRubbleBlock (a : Arrival) (s : State) : List Byte × State :=
  let c := s.sessVal a .rubbleCursor
  (fit 128 (((s.rubble (c / 4096 % 4)).drop (c % 4096)).take 32 |>.flatMap (leBytes 4)),
    s.setSessVal a .rubbleCursor ((c + 32) % 65536))

/-- RUBBLE_BLOCK as a command. -/
def execRubbleBlock (rq : Rq) (s : State) : Host.Outcome State Fault Refusal :=
  .next (s.odRead rq .rubbleBlock 0 0 noCalls (getRubbleBlock rq.src))

/-- The four masks of a BANK_MASK value. -/
def masksOf (payload : List Byte) : List Nat := (upTo 4).map fun i => ofLe ((payload.drop (4 * i)).take 4)

/-- BANK_MASK (R314): masks that keep the decode one to one are kept for the next start. -/
def actBankMask (payload : List Byte) : Act := fun s =>
  if payload.length ≠ 16 then (rNo stLength, s)
  else if masksOk (masksOf payload) then (rOk, s.setBlob .bankMask 0 0 payload) else (rNo stRefused, s)

/-- BANK_MASK as a command. -/
def execBankMask (rq : Rq) (payload : List Byte) (s : State) : Host.Outcome State Fault Refusal :=
  .next (s.odWrite rq .bankMask 0 0 payload noCalls (actBankMask payload))

/-- STORE_SET_POINT_MAX as a command (R325): the highest set point from now on; one in force above it falls at the next boundary. -/
def execStoreSetPointMax (rq : Rq) (payload : List Byte) (s : State) : Host.Outcome State Fault Refusal :=
  .next (s.odWrite rq .storeSetPointMax 0 0 payload noCalls (actSet .storeSetPointMax 0 0 payload))

end Sys2Proof.Machine
end

