-- ==== Sys2Proof/Machine/Board.lean ====
section
/-!
DEFINITION. Sys2Proof/Machine/Board.lean: the discrete inputs, the supplies and the service connector (chapter Board Interface, R427).
-/

namespace Sys2Proof.Machine

/-- An event of the board interface (R515); none is recorded while Off or Sealed (R68). -/
def State.boardEvent (s : State) (code sev : Nat) (args : List Byte) : State :=
  if s.dark then s else s.raise { code := code, sev := sev, unit := srcBoard, args := args }

/-- A start runs, or the module is halted or in boot ROM recovery; a start that still waits before S01 has nothing to stop. -/
def State.inStart (s : State) : Bool := decide (s.power.mode = .starting) && decide (s.start.step ≠ 0)

/-- A board trip (R508, R515): a module failure, in service or in a start; one taken in Brace counts only in the cycle that Brace began
(R510). -/
def State.boardTrip (s : State) (input : Nat) : State :=
  if s.isRunning ∨ s.inStart then (s.boardEvent 0xC007 3 (leBytes 1 input)).moduleFail
  else if s.power.mode = .brace ∧ s.power.braceStamp = s.now then s.moduleFail
  else s

/-- THERM_TRIP_N asserted (R508): one declared faulty is ignored (R510). -/
def State.thermTrip (s : State) : State :=
  let s := s.takeInput 1
  if (s.input 1).faulty then s else s.boardTrip 1

/-- THERM_TRIP_N_ASSERTED as an event. -/
def execThermTripNAsserted (s : State) : Host.Outcome State Fault Refusal := .next s.thermTrip

/-- RESET_N asserted (R508): after S13 a module failure; before it an immediate reset, the step begun with no end; in Off and Sealed it holds
the module, and one stopped at S01 may start again. -/
def State.resetAsserted (s : State) : State :=
  let s := s.takeInput 2
  if s.power.mode = .starting then
    let s := (s.updStart fun x => { x with step := 0, waiting := none }).portsQuiet
    s.updPower fun p => { p with mode := .off, failure := false }
  else if s.power.mode = .off then s.updPower fun p => { p with failure := false }
  else s.boardTrip 2

/-- RESET_N_ASSERTED as an event. -/
def execResetNAsserted (s : State) : Host.Outcome State Fault Refusal := .next s.resetAsserted

/-- RESET_N deasserted (R507, R508): in Off or Sealed a start follows; the IEEE 1149.1 instructions end (R427). -/
def State.resetDeasserted (s : State) : State :=
  let was := (s.input 2).taken
  let s := s.setInput 2 { s.input 2 with taken := false, toggling := false, since := s.now }
  let s := s.setBoard { s.board with jtag := .idle }
  if was ∧ (s.power.mode = .off ∨ s.power.mode = .sealed) then s.startAsk 2 else s

/-- RESET_N_DEASSERTED as an event. -/
def execResetNDeasserted (s : State) : Host.Outcome State Fault Refusal := .next s.resetDeasserted

/-- PRESENT_N deasserted (R508): in service SEAT_LOST, and ALERT_N stands. -/
def State.unseated (s : State) : State :=
  let was := (s.input 3).taken
  let s := s.setInput 3 { s.input 3 with taken := false, toggling := false, since := s.now }
  if was ∧ s.isRunning then
    let s := s.boardEvent 0xC005 2 []
    s.setBoard { s.board with seatLost := true }
  else s

/-- SEAT_LOST as an event. -/
def execSeatLost (s : State) : Host.Outcome State Fault Refusal := .next s.unseated

/-- PRESENT_N_ASSERTED (R508): the connectors are seated; a start that waits may begin. -/
def execPresentNAsserted (s : State) : Host.Outcome State Fault Refusal :=
  let s := s.takeInput 3
  .next (s.setBoard { s.board with seatLost := false })

/-- What an input does when it is taken asserted (R508). -/
def State.inputAsserted (s : State) (i : Nat) : State :=
  match i with
  | 0 => s.pwrfail
  | 1 => s.thermTrip
  | 2 => s.resetAsserted
  | 3 => s.takeInput 3
  | _ => s.alarmed 1 true

/-- INPUT_TOGGLING (R509): more than 8 edges within 1 ms count as asserted, until the pin has been stable for 10 ms. -/
def execInputToggling (input : Fin 5) (edges : BitVec 16) (s : State) : Host.Outcome State Fault Refusal :=
  let p := s.input input
  if edges.toNat ≤ 8 ∨ p.toggling then .next s
  else
    let s := s.setInput input { p with toggling := true }
    let s := s.boardEvent 0xC001 2 (leBytes 1 input ++ leBytes 2 edges.toNat)
    .next (if p.taken then s else s.inputAsserted input)

/-- An input is taken deasserted after its filter (R508, R509, R510). -/
def execInputDeasserted (input : Fin 5) (s : State) : Host.Outcome State Fault Refusal :=
  match input.val with
  | 2 => .next s.resetDeasserted
  | 3 => .next s.unseated
  | i =>
    let p := s.input i
    .next (if p.taken then s.setInput i { p with taken := false, toggling := false, seen := p.seen || p.faulty, since := s.now } else s)

/-- Every die stands at least 20 °C below its limit (R510). -/
def State.diesCool (s : State) : Bool := (upTo 53).all fun d => decide (s.temp d + 200 ≤ dieLimit d)

/-- VIN48 stands within its range (R506). -/
def State.vinIn (s : State) : Bool := decide (40000 ≤ s.board.vin) && decide (s.board.vin ≤ 60000) && !s.board.switchOpen

/-- INPUT_FAULTY (R510): PWRFAIL_N with VIN48 within range, or THERM_TRIP_N with every die cool, asserted for 10 s, is declared faulty and
ignored. -/
def execInputFaulty (input : Fin 2) (s : State) : Host.Outcome State Fault Refusal :=
  let p := s.input input
  let ok := if input.val = 0 then s.vinIn else s.diesCool
  if !p.taken ∨ p.faulty ∨ s.now < p.since + 5000000 * 4096 ∨ !ok then .next s
  else
    let n := (s.now - p.since) / 4096
    .next ((s.setInput input { p with faulty := true, seen := false, owed := if s.dark then some n else none }).boardEvent 0xC002 3
      (leBytes 1 input ++ leBytes 4 n))

/-- One input re-armed (R510): its level counts again, at once. -/
def State.rearm (s : State) (port i : Nat) : State :=
  let p := s.input i
  let s := (s.setInput i { p with faulty := false, seen := false }).boardEvent 0xC003 1 (leBytes 1 i ++ leBytes 1 port)
  if p.taken then s.inputAsserted i else s

/-- INPUT_REARM (R510, R514): each input named must be faulty and seen deasserted since. -/
def actInputRearm (src : Arrival) (v : Nat) : Act := fun s =>
  let port := match src with | .port p => p.val | _ => 0
  let l := (upTo 2).filter fun i => bitOf v i
  if v = 0 ∨ 3 < v then (rNo stRefused, s)
  else if l.all fun i => (s.input i).faulty && (s.input i).seen then (rOk, l.foldl (fun s i => s.rearm port i) s)
  else (rNo stState, s)

/-- INPUT_REARM as a command. -/
def execInputRearm (rq : Rq) (payload : List Byte) (s : State) : Host.Outcome State Fault Refusal :=
  .next (s.odWrite rq .inputRearm 0 0 payload noCalls (actInputRearm rq.src (ofLe payload)))

/- ## Supplies (R506) -/

/-- INPUT_OVERVOLTAGE: above 63 V the switch opens, which the monitor takes as input below 38 V. -/
def execInputOvervoltage (peak : BitVec 16) (s : State) : Host.Outcome State Fault Refusal :=
  if s.board.switchOpen ∨ peak.toNat ≤ 63000 then .next s
  else
    let s := (s.setBoard { s.board with switchOpen := true }).boardEvent 0xC006 2 (leBytes 2 peak.toNat)
    .next (s.powerLoss .below38)

/-- INPUT_SWITCH_CLOSE: VIN48 has been within range for 10 ms. -/
def execInputSwitchClose (s : State) : Host.Outcome State Fault Refusal := .next (s.setBoard { s.board with switchOpen := false })

/-- AUX_LOST: AUX3V3 is out of range; the I3C session ends (R449), and in service the loss is recorded. -/
def execAuxLost (mv : BitVec 16) (s : State) : Host.Outcome State Fault Refusal :=
  let lost := s.board.auxLost
  let s := s.setBoard { s.board with aux := mv.toNat }
  if s.auxIn ∨ lost then .next s
  else
    let s := (s.setBoard { s.board with auxLost := true }).endSess .i3c
    let s := s.setOd { s.od with i3c := { s.od.i3c with addr := 0 } }
    .next (s.boardEvent 0xC004 2 (leBytes 2 mv.toNat))

/- ## The service connector (R427, R449, R504) -/

/-- BENCH_EN_N_ASSERTED: the Bench class exists, and the UART's session begins. -/
def execBenchEnNAsserted (s : State) : Host.Outcome State Fault Refusal :=
  .next ((s.setBoard { s.board with bench := true }).openSess .uart)

/-- BENCH_EN_N_DEASSERTED: the session ends. -/
def execBenchEnNDeasserted (s : State) : Host.Outcome State Fault Refusal :=
  .next ((s.setBoard { s.board with bench := false }).endSess .uart)

/-- The IEEE 1149.1 instructions run only while RESET_N is asserted (R427). -/
def State.jtagRuns (s : State) (ir : JtagIr) (bits : Nat) : State :=
  if s.inReset then (s.setBoard { s.board with jtag := ir }).send (.jtag bits) else s

/-- Debug access to the Keeper over JTAG exists only in Foundry and Returned, with BENCH_EN_N asserted (R427). What a debugger does there
the spec does not say. -/
def State.keeperDebug (s : State) : Bool := s.board.bench && (decide (s.lifecycle = 0) || decide (s.lifecycle = 3))

/-- BYPASS: the bypass register captures zero. -/
def execBypass (s : State) : Host.Outcome State Fault Refusal := .next (s.jtagRuns .bypass 0)

/-- IDCODE. -/
def execIdcode (s : State) : Host.Outcome State Fault Refusal := .next (s.jtagRuns .idcode Config.idcode.toNat)

/-- SAMPLE_PRELOAD: the cells capture the pins, and take what is shifted in. -/
def execSamplePreload (data : BitVec 512) (s : State) : Host.Outcome State Fault Refusal :=
  if !s.inReset then .next s
  else
    let (n, s) := s.draw
    .next ((s.jtagRuns .sample (Config.boundarySample n).toNat).setBoard { s.board with jtag := .sample, scan := data })

/-- EXTEST: the cells drive the pins. -/
def execExtest (s : State) : Host.Outcome State Fault Refusal := .next (s.jtagRuns .extest s.board.scan.toNat)

end Sys2Proof.Machine
end

