-- ==== Sys2Proof/Machine/Vault.lean ====
section
/-!
DEFINITION. Sys2Proof/Machine/Vault.lean: joining a vault, its members and their loss, and the PageMove messages (chapter Vaults of
Modules).
-/

namespace Sys2Proof.Machine

/- ## The configuration digest and the member table (R483 to R485) -/

/-- The value of an entry instance as it is encoded (R438). -/
def State.bytesOf (s : State) (e : Ent) (i j : Nat) : List Byte :=
  match e.row.ty with
  | .octets => s.blob e i j (if e = .poolMembers then List.replicate 512 255 else [])
  | .string => s.blob e i j []
  | t => leBytes t.bytes (s.val e i j)

/-- The entries of the vault subset (R484). -/
def State.vaultSubset (s : State) : List (Ent × Nat × Nat) :=
  let room (k : Nat) : List (Ent × Nat × Nat) :=
    let ws := (upTo 16).filter fun w => bitOf (s.val .poolWindows k 0) w
    [(.poolMembers, k, 0), (.poolStripe, k, 0), (.poolWindows, k, 0)]
      ++ ws.flatMap fun w => [(.windowBase, k, w), (.windowSize, k, w), (.windowAttr, k, w)]
  sortBy (fun a b => decide (a.1.row.key a.2.1 a.2.2 < b.1.row.key b.2.1 b.2.2))
    ([(.vaultEpoch, 0, 0), (.memberTable, 0, 0)] ++ (upTo 64).flatMap room)

/-- VAULT_DIGEST (R484). -/
def State.vaultDigest (s : State) : List Byte :=
  sha384 (s.vaultSubset.flatMap fun (e, i, j) =>
    let v := s.bytesOf e i j
    leBytes 2 (e.row.idx i j) ++ leBytes 1 (e.row.subIdx j) ++ leBytes 2 v.length ++ v)

/-- The members: module index and certificate hash (R483). -/
def State.members (s : State) : List (Nat × List Byte) :=
  let t := s.blob .memberTable 0 0 []
  (upTo (t.length / 64)).map fun i => let x := (t.drop (64 * i)).take 64; (ofLe (x.take 2), x.drop 16)

/-- A member's certificate hash. -/
def State.memberHash (s : State) (m : Nat) : Option (List Byte) := (s.members.find? fun x => x.1 = m).map (·.2)

/-- COMPAT_BAND (R485). -/
def State.compatBand (s : State) : Nat :=
  match s.sec.slots[s.sec.running]? with | some x => x.release / 65536 | none => 0

/- ## Joining (R486 to R488) -/

/-- The first of the checks 1 to 3 that fails; 0 where all pass (R486). -/
def State.selfCheck (s : State) : Nat :=
  if s.vaultDigest ≠ fit 48 (s.blob .digestExpected 0 0 []) then 1
  else if s.memberHash s.ownIndex ≠ some (sha384 Config.rsaCert) then 2
  else if s.time.epochFixed ∧ s.val .vaultEpoch 0 0 < s.time.epoch then 3
  else 0

/-- JOIN_STATUS and JOIN_REFUSED of a module index and cause (R486, R502). -/
def State.joinRefused (s : State) (m cause : Nat) : State :=
  (s.setVault { s.vault with joinStatus := cause * 2 ^ 24 + m }).raise
    { code := 0xB002, sev := 2, unit := srcKeeper, args := leBytes 2 m ++ leBytes 1 cause }

/-- The epoch of the vault comes into force (R57): EPOCH_CHANGE is stamped in the old epoch, later stamps count from the new one. -/
def State.epochChange (s : State) : State :=
  let t := s.time
  let e := s.val .vaultEpoch 0 0
  if t.epochFixed ∧ t.epoch = e then s
  else
    let s := s.raise { code := 0x1204, sev := 1, unit := srcTime, args := leBytes 6 (t.epoch / 1000000000) ++ leBytes 6 (e / 1000000000) }
    let step := if t.epochFixed then (e - t.epoch) / 2000 else 0
    s.setTime { s.time with epoch := e, epochFixed := true, base := min t.course (t.base + step),
                            history := ((e, s.shown s.now) :: t.history).take 16 }

/-- The module checks itself and becomes Joined (R486). -/
def State.joinSelf (s : State) : State :=
  let c := s.selfCheck
  if c ≠ 0 then
    let v := s.vault
    (s.setVault { v with mode := if v.mode = .joining then .standalone else v.mode }).joinRefused s.ownIndex c
  else
    let s := s.epochChange
    let s := s.setVault { s.vault with mode := .joined, joinStatus := 0, triedAt := s.now }
    s.raise { code := 0xB001, sev := 1, unit := srcKeeper,
              args := leBytes 2 s.ownIndex ++ leBytes 6 (s.val .vaultEpoch 0 0 / 1000000000) }

/-- PEER_FENCED (R502): the peer, or this module itself. -/
def State.fencedSaid (s : State) (m side : Nat) : State :=
  s.raise { code := 0xB004, sev := 2, unit := srcKeeper, args := leBytes 2 m ++ leBytes 1 side }

/-- A member presents a newer epoch: this module is Fenced and every peer Unknown (R487, R488, R497). -/
def State.fenceSelf (s : State) (m : Nat) : State :=
  (s.setVault { s.vault with mode := .fenced, joinStatus := 5 * 2 ^ 24 + m,
                             peers := Tbl.each s.vault.peers fun _ p => { p with st := .unknown, again := false } }).fencedSaid m 1

/-- A member presents an older epoch: it is Fenced by this module (R487, R488). -/
def State.fencePeer (s : State) (m : Nat) : State :=
  ((s.setVault { s.vault with joinStatus := 5 * 2 ^ 24 + m }).setPeer m
    { s.peer m with st := .fenced, cause := 5, again := false }).fencedSaid m 0

/-- A peer that fails a check otherwise is Refused (R487). -/
def State.refusePeer (s : State) (m cause : Nat) : State :=
  (s.setPeer m { s.peer m with st := .refused, cause := cause, again := false }).joinRefused m cause

/-- The checks 4 to 8 of a peer (R487). -/
def State.checkPeer (s : State) (v : PeerView) : State :=
  let m := v.member.toNat
  let cert := decide (s.memberHash m = some v.cert)
  if !v.rsa || !v.pq || !cert then
    let failed := (if v.rsa && cert then 0 else 1) + (if v.pq then 0 else 2)
    (s.refusePeer m 4).raise { code := 0x9031, sev := 2, unit := srcKeystone,
                               args := leBytes 1 ((s.movePort m).getD 255) ++ leBytes 1 failed }
  else if v.epoch.toNat < s.val .vaultEpoch 0 0 then s.fencePeer m
  else if s.val .vaultEpoch 0 0 < v.epoch.toNat then s.fenceSelf m
  else if v.digest ≠ s.vaultDigest then s.refusePeer m 6
  else if v.band.toNat ≠ s.compatBand then s.refusePeer m 7
  else if s.isAdrift || v.adrift then s.refusePeer m 8
  else
    let s := s.setPeer m { s.peer m with st := .joined, cause := 0, heard := s.now, again := false }
    s.setVault { s.vault with lossSaid := s.vault.lossSaid.filter fun x => decide (x.2 ≠ m) }

/-- Peers tried, of those that may be (R486, R487): members other than this module, while it is Joined. -/
def State.tryPeers (s : State) (may : State → Nat → Bool) (views : List PeerView) : State :=
  views.foldl (fun s v =>
    let m := v.member.toNat
    if s.vault.mode = .joined ∧ m ≠ s.ownIndex ∧ (s.memberHash m).isSome ∧ may s m then s.checkPeer v else s) s

/-- A peer that is not Joined. -/
def State.notJoined (s : State) (m : Nat) : Bool := decide ((s.peer m).st ≠ .joined)

/-- What a pool window may not be (R490): a PUBLISHER window, a bound view, or under a shelf's range. -/
def State.poolConflict (s : State) : Bool :=
  (upTo 64).any fun k => (upTo 16).any fun w =>
    bitOf (s.val .poolWindows k 0) w && !(s.poolMembers k).isEmpty &&
      (attrPublisher (s.attr k w) || bitOf (s.val .viewRegion k w) 15
        || s.shelves.any fun e => decide (e.2.room = k) &&
            e.2.ranges.any fun r => rangesMeet r (s.val .windowBase k w, s.val .windowSize k w))

/-- VAULT_JOIN (R482, R486, R487, R490). -/
def actVaultJoin (v : Nat) (views : List PeerView) : Act := fun s =>
  if v ≠ 1 then (rNo stRefused, s)
  else if s.poolConflict then (rWhy stRefused 9, s.joinRefused s.ownIndex 9)
  else
    let s := if s.vault.mode = .joined then s else s.joinSelf
    (rOk, (s.tryPeers State.notJoined views).retryAll)

/-- VAULT_JOIN as a command. -/
def execVaultJoin (rq : Rq) (payload : List Byte) (views : List PeerView) (s : State) : Host.Outcome State Fault Refusal :=
  .next (s.odWrite rq .vaultJoin 0 0 payload noCalls (actVaultJoin (ofLe payload) views))

/-- Every 500,000 courses every Refused peer is tried again; a Lost one as it is heard, a Fenced one as it presents the current epoch (R487,
R488). A join that S12 left undone begins again (R466). -/
def execJoinRetry (views : List PeerView) (s : State) : Host.Outcome State Fault Refusal :=
  let due := decide (s.vault.triedAt + 500000 * 4096 ≤ s.now)
  let may (s : State) (m : Nat) : Bool :=
    let p := s.peer m
    (due && (decide (p.st = .unknown) || decide (p.st = .refused))) || (p.again && (decide (p.st = .lost) || decide (p.st = .fenced)))
  let s' := (if due ∧ s.vault.mode = .joining ∧ s.power.mode ≠ .starting then s.joinSelf else s).tryPeers may views
  .next ((if due then s'.setVault { s'.vault with triedAt := s.now } else s').retryAll)

/-- VAULT_LEAVE (R501): refused while a page based here is elsewhere or one based elsewhere is here, on its way or landed. -/
def actVaultLeave (v : Nat) : Act := fun s =>
  let x := s.vault
  let moved := !x.records.isEmpty || !x.here.isEmpty || !x.leaving.isEmpty || x.far.any fun e => decide (e.2 = FarMode.landed)
  if v ≠ 1 then (rNo stRefused, s)
  else if moved then (rNo stState, s)
  else
    let s := x.far.foldl (fun s e => s.dropReserve e.1) s
    (rOk, (s.setVault { x with mode := .standalone, peers := [], far := [], lostPages := [], lossSaid := [], again := [],
                               gather := [] }).retryAll)

/-- VAULT_LEAVE as a command. -/
def execVaultLeave (rq : Rq) (payload : List Byte) (s : State) : Host.Outcome State Fault Refusal :=
  .next (s.odWrite rq .vaultLeave 0 0 payload noCalls (actVaultLeave (ofLe payload)))

/- ## Loss (R498, R499) -/

/-- A Joined member is Lost (R498, R499): the moves in flight that it takes part in are aborted. -/
def State.losePeer (s : State) (m cause : Nat) : State :=
  if (s.peer m).st ≠ .joined then s
  else
    let s := (s.setPeer m { s.peer m with st := .lost, again := false }).raise
      { code := 0xB003, sev := 2, unit := srcKeeper, args := leBytes 2 m ++ leBytes 1 cause }
    let hit := s.vault.records.filter fun e => e.2.target.isSome && (decide (e.2.target = some m) || decide (e.2.home = m))
    (hit.foldl (fun s e => s.abortMove e.1) s).retryAll

/-- PEER_FAILED (R498). -/
def actPeerFailed (m : Nat) : Act := fun s =>
  if (s.peer m).st = .joined then (rOk, s.losePeer m 1) else (rNo stRefused, s)

/-- PEER_FAILED as a command. -/
def execPeerFailed (rq : Rq) (payload : List Byte) (s : State) : Host.Outcome State Fault Refusal :=
  .next (s.odWrite rq .peerFailed 0 0 payload noCalls (actPeerFailed (ofLe payload)))

/-- A Joined member not heard for VAULT_LOSS_COURSES (R498). -/
def execPeerSilence (member : BitVec 12) (s : State) : Host.Outcome State Fault Refusal :=
  let p := s.peer member.toNat
  .next (if p.st = .joined ∧ p.heard + 4096 * s.val .vaultLossCourses 0 0 ≤ s.now then s.losePeer member.toNat 0 else s)

/-- The members that share a pool room with this module (R498). -/
def State.poolPeers (s : State) : List Nat :=
  (s.members.map (·.1)).filter fun m => decide (m ≠ s.ownIndex) &&
    (upTo 64).any fun k => (s.poolMembers k).contains m && (s.poolMembers k).contains s.ownIndex

/-- Alive to every member that shares a pool room and has been sent nothing for 256 courses (R498). -/
def execAliveSend (s : State) : Host.Outcome State Fault Refusal :=
  if s.vault.mode ≠ .joined ∧ s.vault.mode ≠ .fenced then .next s
  else
    .next (s.poolPeers.foldl (fun s m =>
      if (s.peer m).sent + 256 * 4096 ≤ s.now then s.tell m 11 s.ownIndex 0 0 (leBytes 8 (s.val .vaultEpoch 0 0)) else s) s)

/- ## Gathering (R501) and messages sent again (R489) -/

/-- The pages of a POOL_GATHER still homed elsewhere are asked for, those deferred once their stamp has come. -/
def State.settleGather (s : State) : State :=
  if s.vault.mode ≠ .joined then s
  else
    let s := s.setVault { s.vault with gather := s.vault.gather.filter fun k => s.basedHere k && !s.homedHere k && !s.farLost k }
    s.vault.gather.foldl (fun s k => (s.askFar k).2) s

/-- POOL_GATHER (R501): this module, as base, moves every page it bases back to itself. -/
def actPoolGather (room v : Nat) : Act := fun s =>
  if v ≠ 1 then (rNo stRefused, s)
  else if s.vault.mode ≠ .joined then (rNo stState, s)
  else
    let ks := (s.vault.records.map (·.1)).filter fun k => decide (pageRoom k = room) && !s.vault.gather.contains k
    (rOk, ((s.setVault { s.vault with gather := s.vault.gather ++ ks }).settleGather).retryAll)

/-- POOL_GATHER as a command. -/
def execPoolGather (rq : Rq) (room : Fin 64) (payload : List Byte) (s : State) : Host.Outcome State Fault Refusal :=
  .next (s.odWrite rq .poolGather room 0 payload noCalls (actPoolGather room (ofLe payload)))

/-- The PageMove messages whose 64 courses have passed are sent again (R489). -/
def execPageMoveResend (s : State) : Host.Outcome State Fault Refusal :=
  let due := s.vault.again.filter fun e => decide (e.1 ≤ s.now)
  let s := s.setVault { s.vault with again := s.vault.again.filter fun e => !decide (e.1 ≤ s.now) }
  .next (due.foldl (fun s e => s.sendMove e.2) s)

/- ## PageMove messages received (R489) -/

/-- A member is heard (R488, R498). -/
def State.hear (s : State) (m : Nat) : State :=
  if m = s.ownIndex ∨ (s.memberHash m).isNone then s
  else
    let p := s.peer m
    s.setPeer m { p with heard := s.now, again := p.again || decide (p.st = .lost) }

/-- The vault's side of the module can take messages: it is up, or at S12 or S13. -/
def State.vaultLive (s : State) : Bool := s.serving || (decide (s.power.mode = .starting) && decide (12 ≤ s.start.step) && decide (s.start.step ≤ 13))

/-- A kind that may be acted on (R497): a MoveReq always, to be refused where it must; Alive and Relay always; what resolves a move
under way from any member that is not Fenced; the others from Joined members. A module that is not Joined acts as no base. -/
def State.heeds (s : State) (src kind : Nat) : Bool :=
  let any := decide (kind = 1) || decide (kind = 7) || decide (11 ≤ kind)
  if s.vault.mode = .joined then
    any || decide (kind = 6) || decide (kind = 9) || decide (kind = 10) || decide ((s.peer src).st = .joined)
  else any

/-- A PageMove message is answered at link level and acted on (R489, R497): BUSY while the module takes none, in Quiet with the exit begun,
and where it has no place for what the message brings (`takes`; DESIGN CHOICE). -/
def State.moveIn (s : State) (port tag src kind : Nat) (act : State → State) (takes : State → Bool := fun _ => true) : State :=
  if !s.isUp port ∨ s.roleOf port ≠ .peer then s
  else if s.tagOpen port tag then (s.respond port tag 4 none 0).raise (protocolEv port 0x28 tag 1)
  else if s.quieted ∨ s.power.exitAt.isSome then s.startExit.2.respond port tag 7 none 0
  else if !s.vaultLive ∨ !takes ((s.hear src).respond port tag 0 none 0) then s.respond port tag 7 none 0
  else
    let s := (s.hear src).respond port tag 0 none 0
    if (s.peer src).st = .fenced ∧ kind < 11 then s.tell src 9 0 3 0 []
    else if s.heeds src kind then (act s).retryAll else s

/-- A stamp of another member's message in this module's own count. -/
def State.stampIn (s : State) (w : Word) : Nat := s.ofShown w.toNat

/-- MoveReq at the base (R492 step 2, R493). -/
def execMoveReq (port : Fin 32) (tag src : BitVec 12) (room : Fin 64) (page : BitVec 34) (s : State) : Host.Outcome State Fault Refusal :=
  .next (s.moveIn port tag.toNat src.toNat 1 fun s => s.orderMove (pageKey room page.toNat) src.toNat)

/-- MoveOrder at the home (R492 step 3). -/
def execMoveOrder (port : Fin 32) (tag src : BitVec 12) (room : Fin 64) (page : BitVec 34) (target : BitVec 12) (s : State) :
    Host.Outcome State Fault Refusal :=
  let k := pageKey room page.toNat
  .next (s.moveIn port tag.toNat src.toNat 2 fun s =>
    if s.isPool k && s.homedHere k && decide (s.baseModule k = src.toNat) && (Tbl.find s.vault.leaving k).isNone
    then s.freezePage k target.toNat else s)

/-- A far page asked for and not yet landed. -/
def State.awaited (s : State) (k : Nat) : Bool :=
  match Tbl.find s.vault.far k with | some .landed => false | some _ => true | none => false

/-- MoveData at the requester (R492 step 4, R494). -/
def execMoveData (port : Fin 32) (tag src : BitVec 12) (room : Fin 64) (page : BitVec 34) (generation : BitVec 32) (data : List Byte)
    (s : State) : Host.Outcome State Fault Refusal :=
  let k := pageKey room page.toNat
  .next (s.moveIn port tag.toNat src.toNat 3 (fun s => if s.awaited k then s.landPage k generation.toNat (some data) else s)
    fun s => !s.heeds src.toNat 3 || !s.awaited k || s.pageFits k generation.toNat data)

/-- MoveEmpty at the requester (R492 step 4). -/
def execMoveEmpty (port : Fin 32) (tag src : BitVec 12) (room : Fin 64) (page : BitVec 34) (s : State) :
    Host.Outcome State Fault Refusal :=
  let k := pageKey room page.toNat
  .next (s.moveIn port tag.toNat src.toNat 4 fun s => if s.awaited k then s.landPage k 0 none else s)

/-- MoveSoon at the requester (R491). -/
def execMoveSoon (port : Fin 32) (tag src : BitVec 12) (room : Fin 64) (page : BitVec 34) (landing : Word) (s : State) :
    Host.Outcome State Fault Refusal :=
  let k := pageKey room page.toNat
  .next (s.moveIn port tag.toNat src.toNat 5 fun s =>
    if s.awaited k then s.setVault { s.vault with far := Tbl.put s.vault.far k (.soon (s.stampIn landing)) } else s)

/-- MoveAck at the base (R492 step 5). -/
def execMoveAck (port : Fin 32) (tag src : BitVec 12) (room : Fin 64) (page : BitVec 34) (pinEnd : Word) (s : State) :
    Host.Outcome State Fault Refusal :=
  let k := pageKey room page.toNat
  .next (s.moveIn port tag.toNat src.toNat 6 fun s =>
    match Tbl.find s.vault.records k with
    | some f => if f.target = some src.toNat then s.commitMove k (s.stampIn pinEnd) else s
    | none => s)

/-- MoveRelease at the old home and at the requester (R492 step 6, R495). -/
def execMoveRelease (port : Fin 32) (tag src : BitVec 12) (room : Fin 64) (page : BitVec 34) (done : Bool) (s : State) :
    Host.Outcome State Fault Refusal :=
  let k := pageKey room page.toNat
  .next (s.moveIn port tag.toNat src.toNat 7 fun s =>
    if s.baseModule k ≠ src.toNat then s
    else if (Tbl.find s.vault.leaving k).isSome then (if done then s.releaseOld k else s.unfreeze k)
    else if (Tbl.find s.vault.far k).isSome then s.confirm k done else s)

/-- MoveDefer at the requester (R491, R493). -/
def execMoveDefer (port : Fin 32) (tag src : BitVec 12) (room : Fin 64) (page : BitVec 34) (cause : BitVec 8) (retry : Word) (s : State) :
    Host.Outcome State Fault Refusal :=
  let k := pageKey room page.toNat
  .next (s.moveIn port tag.toNat src.toNat 8 fun s =>
    if s.awaited k ∧ s.baseModule k = src.toNat then s.putOff k s.ownIndex cause.toNat (s.stampIn retry) else s)

/-- MoveRefused (R497): at the base, from the target of a move, page not landed (R495); at the requester, its request is over, and with the home
Lost the requests that wait find the page lost (R499). -/
def State.moveRefused (s : State) (k src cause : Nat) : State :=
  if s.basedHere k then
    match Tbl.find s.vault.records k with
    | some f => if f.target = some src ∧ cause = 8 then s.abortMove k else s
    | none => s
  else if s.awaited k ∧ s.baseModule k = src then
    let s := (s.putOff k s.ownIndex cause 0).retryAll
    s.setVault { s.vault with lostPages := s.vault.lostPages.filter fun x => decide (x ≠ k) }
  else s

/-- MoveRefused as a command; nothing is asked again before the next event. -/
def execMoveRefused (port : Fin 32) (tag src : BitVec 12) (room : Fin 64) (page : BitVec 34) (cause : BitVec 8) (s : State) :
    Host.Outcome State Fault Refusal :=
  .next (s.moveIn port tag.toNat src.toNat 9 fun s => s.moveRefused (pageKey room page.toNat) src.toNat cause.toNat)

/-- MoveQuery (R489, R495): a requester that is asked says whether the page has landed; a base, what became of the move. -/
def State.moveQuery (s : State) (k src : Nat) : State :=
  if s.basedHere k then
    match Tbl.find s.vault.records k with
    | some f =>
      if f.target = some src then s.putOff k src 6 (boundaryAfter f.commit)
      else s.tell src 7 0 (if f.home = src then 0 else 1) k []
    | none => s.tell src 7 0 1 k []
  else if Tbl.find s.vault.far k = some .landed ∨ s.vault.here.contains k then
    s.tell src 6 0 0 k (leBytes 8 (s.shown (s.pinEnd k)))
  else s.tell src 9 0 8 k []

/-- MoveQuery as a command. -/
def execMoveQuery (port : Fin 32) (tag src : BitVec 12) (room : Fin 64) (page : BitVec 34) (s : State) :
    Host.Outcome State Fault Refusal :=
  .next (s.moveIn port tag.toNat src.toNat 10 fun s => s.moveQuery (pageKey room page.toNat) src.toNat)

/-- Alive (R488, R497): an older epoch fences its sender, a newer one this module; a Fenced sender with the current epoch may be tried
again. -/
def State.aliveFrom (s : State) (m epoch : Nat) : State :=
  let own := s.val .vaultEpoch 0 0
  if (s.memberHash m).isNone then s
  else if epoch = own then
    (if (s.peer m).st = .fenced then s.setPeer m { s.peer m with again := true } else s)
  else if (s.peer m).st ≠ .joined then s
  else if epoch < own then s.fencePeer m else s.fenceSelf m

/-- Alive as a command. -/
def execAlive (port : Fin 32) (tag src : BitVec 12) (epoch : Word) (s : State) : Host.Outcome State Fault Refusal :=
  .next (s.moveIn port tag.toNat src.toNat 11 fun s => s.aliveFrom src.toNat epoch.toNat)

end Sys2Proof.Machine
end

