-- ==== Sys2Proof/Machine/Spdm.lean ====
section
/-!
DEFINITION. Sys2Proof/Machine/Spdm.lean: attestation and secured sessions as an SPDM 1.3 responder (R420 to R422). The spec names the
standard; the layouts of its messages are taken from it (PRESUMED, log entries 29 and 30). A command
gives a message of a session as it is once its AEAD has been taken off, with the session's identifier; a transfer brings the secured
message itself.
-/

namespace Sys2Proof.Machine

/- ## Connections -/

/-- An arrival's connection. -/
def State.spdmOf (s : State) (a : Arrival) : Spdm :=
  (s.sec.spdm.find? fun x => x.arr = a).getD ⟨a, .none, [], [], none, 0, 0, 0, 0, [], [], [], 0, 0⟩

/-- The state with a connection replaced. -/
def State.putSpdm (s : State) (x : Spdm) : State :=
  s.updSec fun c => { c with spdm := (c.spdm.filter fun y => y.arr ≠ x.arr) ++ [x] }

/-- The place SPDM_SESSION names (R435): the port, or the destination codes of notifications elsewhere. -/
def spdmPlace : Arrival → Nat
  | .port p => p | .i3c => 0x40 | .rack _ => 0x41 | .uart => 0x42 | .relay _ => 0xFF

/-- Mutual authentication is required on Vault ports and not offered on others (R420). -/
def State.isVault (s : State) (a : Arrival) : Bool := decide (s.classOf a = some .vault)

/-- SPDM_SESSION (R435). -/
def State.sessionSaid (s : State) (a : Arrival) (what : Nat) : State :=
  s.raise { code := 0x9030, sev := 0, unit := srcKeystone,
            args := leBytes 1 (spdmPlace a) ++ leBytes 1 what ++ leBytes 1 (bit01 (s.isVault a)) }

/-- A connection without its session, its secrets gone. -/
def Spdm.ended (x : Spdm) : Spdm :=
  { x with session := 0, sid := 0, handshake := [], reqSecret := [], rspSecret := [], reqSeq := 0, rspSeq := 0 }

/-- A connection's session ends. -/
def State.closeSession (s : State) (a : Arrival) : State :=
  let x := s.spdmOf a
  let s' := s.putSpdm x.ended
  if x.session = 2 then s'.sessionSaid a 2 else s'

/-- Connections whose transport session has ended go (R449). -/
def State.sweepSpdm (s : State) : State :=
  let gone := s.sec.spdm.filter fun x => (s.sess x.arr).isNone
  let s := gone.foldl (fun s x => s.closeSession x.arr) s
  s.updSec fun c => { c with spdm := c.spdm.filter fun x => !gone.any fun y => decide (y.arr = x.arr) }

/- ## Messages -/

/-- A header of SPDM 1.3. -/
def spdmHead (code p1 p2 : Nat) : List Byte := leBytes 1 0x13 ++ leBytes 1 code ++ leBytes 1 p1 ++ leBytes 1 p2

/-- ERROR with its code and data. -/
def spdmErr (code data : Nat) : List Byte := spdmHead 0x7F code data
/-- ERROR InvalidRequest. -/
def errInvalid : List Byte := spdmErr 0x01 0
/-- ERROR UnexpectedRequest. -/
def errUnexpected : List Byte := spdmErr 0x04 0
/-- ERROR DecryptError. -/
def errDecrypt : List Byte := spdmErr 0x06 0

/-- A field of a message, by its offset and length. -/
def field (msg : List Byte) (off len : Nat) : Nat := ofLe ((msg.drop off).take len)

/-- The certificate chain of slot 0 as it is read: length, root hash, certificates. -/
def spdmChain : List Byte :=
  leBytes 2 (52 + Config.rsaChain.length) ++ [0, 0] ++ fit 48 Config.rsaRootHash ++ Config.rsaChain

/-- The bytes of a label. -/
def labelBytes (t : String) : List Byte := t.toList.map fun c => BitVec.ofNat 8 c.toNat

/-- What a signature covers: the signing prefix of a context, and the transcript's hash. -/
def spdmSigned (context : String) (transcript : List Byte) : List Byte :=
  let c := labelBytes context
  let v := labelBytes "dmtf-spdm-v1.3.*"
  v ++ v ++ v ++ v ++ List.replicate (36 - c.length) 0 ++ c ++ sha384 transcript

/- ## Secured messages (R11, R420) -/

/-- A secret or key of `n` bytes that SPDM's key schedule derives from a secret (PRESUMED: SPDM 1.3, DSP0274). -/
def spdmDerive (secret : List Byte) (label : String) (context : List Byte) (n : Nat) : List Byte :=
  hkdfExpand secret (leBytes 2 n ++ labelBytes "spdm1.3 " ++ labelBytes label ++ context) n

/-- The number of a secured message within the IV (PRESUMED: DSP0277). -/
def spdmNonce (secret : List Byte) (seq : Nat) : List Byte :=
  List.zipWith (· ^^^ ·) (spdmDerive secret "iv" [] 12) (leBytes 12 seq)

/-- A message as application data of a secured message: session, length, ciphertext and tag (PRESUMED: DSP0277, without a sequence number
in the header and without random data). -/
def spdmSeal (secret : List Byte) (sid seq : Nat) (msg : List Byte) : List Byte :=
  let head := leBytes 4 sid ++ leBytes 2 (msg.length + 18)
  head ++ gcmSeal (spdmDerive secret "key" [] 32) (spdmNonce secret seq) head (leBytes 2 msg.length ++ msg)

/-- The message in a secured message of a session; none where its tag does not hold. -/
def spdmOpen (secret : List Byte) (seq : Nat) (record : List Byte) : Option (List Byte) :=
  (gcmOpen (spdmDerive secret "key" [] 32) (spdmNonce secret seq) (record.take 6) ((record.drop 6).take (field record 4 2))).map fun p =>
    (p.drop 2).take (field p 0 2)

/-- The answer to a request of a session, sealed under the responder's keys: those of before, or after an update of them those of after. -/
def sealAnswer (x x' : Spdm) (rsp : List Byte) : List Byte × Spdm :=
  if x.rspKeys ≠ x'.rspKeys then (spdmSeal x'.rspSecret x'.sid x'.rspSeq rsp, { x' with rspSeq := x'.rspSeq + 1 })
  else (spdmSeal x.rspSecret x.sid x.rspSeq rsp, if x.rspSecret = x'.rspSecret then { x' with rspSeq := x'.rspSeq + 1 } else x')

/-- What a chapter's answer to an SPDM request is: the response, the connection and the state. -/
abbrev SpdmAct := Spdm → State → List Byte × Spdm × State

/-- An SPDM request taken (R420, R448): it comes as a write of SPDM_MESSAGE, of version 1.3 but for GET_VERSION, in the session it names, out of
its secured message; the response, sealed where the request was, waits for BLOCK_READ. -/
def State.spdmTake (rq : Rq) (sid : Option (BitVec 32)) (msg : List Byte) (act : SpdmAct) : Act := fun s =>
  let x := s.spdmOf rq.src
  let mine := match sid with | some i => decide (x.session ≠ 0 ∧ x.sid = i.toNat) | none => false
  let x := if mine then { x with reqSeq := x.reqSeq + 1 } else x
  let outside := match sid with | some i => decide (x.session = 0 ∨ x.sid ≠ i.toNat) | none => false
  let early := sid.isSome && decide (x.session = 1) && decide (field msg 1 1 ≠ 0xE5)
  let r : List Byte × Spdm × State :=
    if field msg 0 1 ≠ (if field msg 1 1 = 0x84 then 0x10 else 0x13) then (spdmErr 0x41 0, x, s)
    else if outside then (errDecrypt, x, s)
    else if early then (errUnexpected, x, s)
    else act x s
  let y := if mine then sealAnswer x r.2.1 r.1 else (r.1, r.2.1)
  let s := r.2.2.putSpdm y.2
  (rOk, s.updSess rq.src fun z => { z with spdm := y.1 })

/-- An SPDM request as a command: a block transfer to SPDM_MESSAGE that has ended. -/
def State.spdmCommand (s : State) (rq : Rq) (sid : Option (BitVec 32)) (msg : List Byte) (act : SpdmAct) : State :=
  s.odWhole rq .spdmMessage 0 0 msg noCalls (State.spdmTake rq sid msg act)

/-- A request that needs negotiated algorithms. A request that extends a transcript ends what GET_PQ_SIGNATURE may name (R421). -/
def negotiated (act : SpdmAct) : SpdmAct := fun x s =>
  if x.phase = .negotiated then act { x with lastSigned := none } s else (errUnexpected, x, s)

/-- The device has its keys and chains (R419): they are made as it leaves Foundry. -/
def State.hasIdentity (s : State) : Bool := decide (s.lifecycle ≠ 0)

/- ## Negotiation -/

/-- GET_VERSION: version 1.3 alone; the connection begins anew. -/
def spdmGetVersion (a : Arrival) (msg : List Byte) : SpdmAct := fun _ s =>
  let r := leBytes 1 0x10 ++ leBytes 1 0x04 ++ [0, 0, 0, 1] ++ leBytes 2 0x1300
  let s := s.closeSession a
  (r, { s.spdmOf a with phase := .version, transcript := msg ++ r, measured := [], lastSigned := none }, s)

/-- The capability flags: certificates, challenge, signed measurements, encryption and MAC, key exchange, heartbeat, key update; on a Vault port mutual
authentication. -/
def State.spdmFlags (s : State) (a : Arrival) : Nat := 0x62D6 + (if s.isVault a then 0x1100 else 0)

/-- GET_CAPABILITIES. -/
def spdmGetCapabilities (a : Arrival) (msg : List Byte) : SpdmAct := fun x s =>
  if x.phase ≠ .version then (errUnexpected, x, s)
  else
    let size := leBytes 4 Config.spdmMessageSize.toNat
    let r := spdmHead 0x61 0 0 ++ [0, Config.spdmCtExponent, 0, 0] ++ leBytes 4 (s.spdmFlags a) ++ size ++ size
    (r, { x with phase := .capabilities, transcript := x.transcript ++ msg ++ r }, s)

/-- NEGOTIATE_ALGORITHMS: RSASSA-PSS 3072, SHA-384, secp384r1, AES-256-GCM, the SPDM key schedule; a request that does not offer the first two is
invalid. -/
def spdmNegotiate (a : Arrival) (msg : List Byte) : SpdmAct := fun x s =>
  if x.phase ≠ .capabilities then (errUnexpected, x, s)
  else if !bitOf (field msg 8 4) 3 ∨ !bitOf (field msg 12 4) 1 then (errInvalid, x, s)
  else
    let alg (t v : Nat) : List Byte := leBytes 1 t ++ leBytes 1 0x20 ++ leBytes 2 v
    let algs := alg 2 0x10 ++ alg 3 2 ++ alg 4 (if s.isVault a then 8 else 0) ++ alg 5 1
    let r := spdmHead 0x63 4 0 ++ leBytes 2 (36 + algs.length) ++ [1, 0] ++ leBytes 4 4 ++ leBytes 4 8 ++ leBytes 4 2
      ++ List.replicate 16 0 ++ algs
    (r, { x with phase := .negotiated, transcript := x.transcript ++ msg ++ r }, s)

/- ## Certificates and signatures -/

/-- GET_DIGESTS: slot 0 alone. -/
def spdmGetDigests : SpdmAct := negotiated fun x s =>
  (if s.hasIdentity then spdmHead 0x01 1 1 ++ sha384 spdmChain else spdmHead 0x01 0 0, x, s)

/-- GET_CERTIFICATE: part of the chain of slot 0. -/
def spdmGetCertificate (msg : List Byte) : SpdmAct := negotiated fun x s =>
  let off := field msg 4 2
  let n := min (field msg 6 2) (spdmChain.length - off)
  if !s.hasIdentity ∨ field msg 2 1 % 16 ≠ 0 ∨ spdmChain.length ≤ off then (errInvalid, x, s)
  else
    (spdmHead 0x02 0 0 ++ leBytes 2 n ++ leBytes 2 (spdmChain.length - off - n) ++ (spdmChain.drop off).take n, x, s)

/-- A nonce of the Keystone's DRBG. -/
def State.nonce (s : State) : List Byte × State :=
  let (n, s) := s.draw
  (leBytes 32 (Config.drbg n).toNat, s)

/-- A response signed with the device's RSA key; what it covers may be signed again with SLH-DSA (R421). -/
def spdmSign (what : Nat) (context : String) (transcript body : List Byte) (x : Spdm) (s : State) : List Byte × Spdm × State :=
  let covered := spdmSigned context (transcript ++ body)
  let (n, s) := s.draw
  (body ++ fit 384 (Config.rsaSign n covered), { x with lastSigned := some (what, covered) }, s)

/-- The measurement blocks of R422: index, raw or digest, value. -/
def State.measurements (s : State) : List (Nat × Bool × List Byte) :=
  let slot := s.sec.slots[s.sec.running]?
  let progs := sortBy (fun (a b : Prog) => decide (a.handle < b.handle)) (s.cores.progs.filter fun p => p.current)
  let state := match slot with
    | some x => (match x.mode with | .empty => 0 | .staged => 1 | .trial => 2 | .committed => 3) | none => 0
  [(1, false, fit 48 Config.romDigest),
   (2, false, match slot with | some x => x.digest | none => List.replicate 48 0),
   (3, true, match slot with
     | some x => leBytes 1 x.svn ++ leBytes 4 x.release ++ leBytes 1 s.sec.running ++ leBytes 1 state | none => List.replicate 7 0),
   (4, true, leBytes 1 s.lifecycle ++ leBytes 1 s.sec.epoch ++ leBytes 1 s.sec.counter ++ leBytes 1 s.sec.lockState),
   (5, false, sha384 (progs.flatMap fun p => sha384 p.image)),
   (6, false, if s.vault.mode = .standalone then List.replicate 48 0 else s.vaultDigest)]

/-- A measurement block as it is reported. -/
def measBlock (m : Nat × Bool × List Byte) : List Byte :=
  let v := m.2.2
  leBytes 1 m.1 ++ [1] ++ leBytes 2 (v.length + 3) ++ leBytes 1 (m.1 - 1 + (if m.2.1 then 0x80 else 0)) ++ leBytes 2 v.length ++ v

/-- The measurement summary a CHALLENGE or KEY_EXCHANGE asks for: none, or over all blocks. -/
def State.summary (s : State) (kind : Nat) : List Byte :=
  if kind = 0 then [] else sha384 (s.measurements.flatMap measBlock)

/-- CHALLENGE. -/
def spdmChallenge (msg : List Byte) : SpdmAct := negotiated fun x s =>
  if !s.hasIdentity ∨ field msg 2 1 ≠ 0 then (errInvalid, x, s)
  else
    let (nonce, s) := s.nonce
    let body := spdmHead 0x03 0 1 ++ sha384 spdmChain ++ nonce ++ s.summary (field msg 3 1) ++ [0, 0] ++ fit 8 (msg.drop 36)
    spdmSign 1 "responder-challenge_auth signing" (x.transcript ++ msg) body x s

/-- GET_MEASUREMENTS (R422): how many there are, one block, or all; signed where the request asks. -/
def spdmGetMeasurements (msg : List Byte) : SpdmAct := negotiated fun x s =>
  let wanted := bitOf (field msg 2 1) 0
  let op := field msg 3 1
  let all := s.measurements
  let blocks := if op = 0 then [] else if op = 255 then all else all.filter fun m => m.1 = op
  if (op ≠ 0 ∧ blocks.isEmpty) ∨ (wanted ∧ (!s.hasIdentity ∨ field msg 36 1 % 16 ≠ 0)) then (errInvalid, x, s)
  else
    let (nonce, s) := s.nonce
    let record := blocks.flatMap measBlock
    let ctx := fit 8 (msg.drop (if wanted then 37 else 4))
    let body := spdmHead 0x60 (if op = 0 then all.length else 0) 0 ++ leBytes 1 blocks.length ++ leBytes 3 record.length ++ record
      ++ nonce ++ [0, 0] ++ ctx
    let log := x.measured ++ msg
    if wanted then
      let r := spdmSign 2 "responder-measurements signing" (x.transcript ++ log) body x s
      (r.1, { r.2.1 with measured := [] }, r.2.2)
    else (body, { x with measured := log ++ body }, s)

/- ## Sessions -/

/-- Sessions begun or open (R420). -/
def State.openSessions (s : State) : Nat := (s.sec.spdm.filter fun x => decide (x.session ≠ 0)).length

/-- The keyed digest of a transcript under a direction's handshake secret. -/
def spdmMac (secret transcript : List Byte) : List Byte := hmac384 (spdmDerive secret "finished" [] 48) (sha384 transcript)

/-- KEY_EXCHANGE (R420): at most four sessions, and one per port. -/
def spdmKeyExchange (a : Arrival) (msg : List Byte) : SpdmAct := negotiated fun x s =>
  if !s.hasIdentity ∨ field msg 3 1 ≠ 0 then (errInvalid, x, s)
  else if x.session ≠ 0 ∨ 4 ≤ s.openSessions then (spdmErr 0x0A 0, x, s)
  else
    let rsp := s.sec.nextSid % 65536
    let s := s.updSec fun c => { c with nextSid := rsp + 1 }
    let (random, s) := s.nonce
    let (n, s) := s.draw
    let hs := hmac384 (List.replicate 48 0) (fit 48 (Config.dheSecret n (msg.drop 40 |>.take 96)))
    let both := bit01 (s.isVault a)
    let body := spdmHead 0x64 Config.spdmHeartbeat.toNat 0 ++ leBytes 2 rsp ++ leBytes 1 both ++ [0] ++ random
      ++ fit 96 (Config.dheShare n) ++ s.summary (field msg 2 1) ++ [0, 0]
    let th := x.transcript ++ sha384 spdmChain ++ msg
    let r := spdmSign 3 "responder-key_exchange_rsp signing" th body x s
    let sid := rsp * 65536 + field msg 4 2
    let th1 := sha384 (th ++ r.1)
    let rspSecret := spdmDerive hs "rsp hs data" th1 48
    let full := r.1 ++ spdmMac rspSecret (th ++ r.1)
    (full, { r.2.1 with session := 1, sid := sid, measured := th ++ full, reqKeys := 0, rspKeys := 0, handshake := hs,
                        reqSecret := spdmDerive hs "req hs data" th1 48, rspSecret := rspSecret, reqSeq := 0, rspSeq := 0 }, r.2.2)

/-- FINISH (R420): the requester's keyed digest of the transcript, on a Vault port its signature as well; SPDM_SESSION. -/
def spdmFinish (a : Arrival) (sid : Option (BitVec 32)) (msg : List Byte) : SpdmAct := negotiated fun x s =>
  if x.session ≠ 1 ∨ sid.isNone then (errUnexpected, x, s)
  else
    let sig := if bitOf (field msg 2 1) 0 then 384 else 0
    let head := msg.take (4 + sig)
    let mac := (msg.drop (4 + sig)).take 48
    let both := !s.isVault a || (decide (sig = 384) && Config.peerSigns (x.measured ++ msg.take 4) ((msg.drop 4).take 384))
    let rsp := spdmHead 0x65 0 0
    let master := hmac384 (spdmDerive x.handshake "derived" [] 48) (List.replicate 48 0)
    let th2 := sha384 (x.measured ++ msg ++ rsp)
    if mac = spdmMac x.reqSecret (x.measured ++ head) ∧ both then
      (rsp, { x with session := 2, measured := [], handshake := [], reqSecret := spdmDerive master "req app data" th2 48,
                     rspSecret := spdmDerive master "rsp app data" th2 48, reqSeq := 0, rspSeq := 0 }, s.sessionSaid a 1)
    else (errDecrypt, { x.ended with measured := [] }, s)

/-- HEARTBEAT. -/
def spdmHeartbeat : SpdmAct := fun x s => if x.session = 2 then (spdmHead 0x68 0 0, x, s) else (errUnexpected, x, s)

/-- KEY_UPDATE: the requester's keys, both directions' keys, or a confirmation of the new ones. -/
def spdmKeyUpdate (msg : List Byte) : SpdmAct := fun x s =>
  let op := field msg 2 1
  let updated (secret : List Byte) : List Byte := spdmDerive secret "traffic upd" [] 48
  if x.session ≠ 2 then (errUnexpected, x, s)
  else if op = 0 ∨ 3 < op then (errInvalid, x, s)
  else
    (spdmHead 0x69 op (field msg 3 1),
     { x with reqKeys := x.reqKeys + bit01 (op < 3), rspKeys := x.rspKeys + bit01 (op = 2),
              reqSecret := if op < 3 then updated x.reqSecret else x.reqSecret, reqSeq := if op < 3 then 0 else x.reqSeq,
              rspSecret := if op = 2 then updated x.rspSecret else x.rspSecret, rspSeq := if op = 2 then 0 else x.rspSeq }, s)

/-- END_SESSION: SPDM_SESSION. -/
def spdmEndSession (a : Arrival) : SpdmAct := fun x s =>
  if x.session ≠ 2 then (errUnexpected, x, s)
  else
    let s := s.closeSession a
    (spdmHead 0x6C 0 0, s.spdmOf a, s)

/- ## The vendor exchange (R421) -/

/-- A vendor-defined response under the IANA identifier. -/
def vendorAnswer (payload : List Byte) : List Byte :=
  spdmHead 0x7E 0 0 ++ leBytes 2 3 ++ [4] ++ leBytes 4 Config.vendorId.toNat ++ leBytes 2 payload.length ++ payload

/-- The payload of a vendor-defined request; none under another identifier. -/
def vendorPayload (msg : List Byte) : Option (List Byte) :=
  if field msg 4 2 = 3 ∧ field msg 6 1 = 4 ∧ field msg 7 4 = Config.vendorId.toNat then some ((msg.drop 13).take (field msg 11 2)) else none

/-- GET_PQ_CHAIN: part of the SLH-DSA chain, from a 4-byte offset, by a 2-byte length. -/
def spdmPqChain (msg : List Byte) : SpdmAct := fun x s =>
  match vendorPayload msg with
  | none => (spdmErr 0x07 0xFE, x, s)
  | some p =>
    if x.phase ≠ .negotiated ∨ !s.hasIdentity then (errUnexpected, x, s)
    else (vendorAnswer ((Config.pqChain.drop (field p 1 4)).take (field p 5 2)), x, s)

/-- GET_PQ_SIGNATURE: of the named response, before any request that extends the transcript. -/
def spdmPqSignature (msg : List Byte) : SpdmAct := fun x s =>
  match vendorPayload msg with
  | none => (spdmErr 0x07 0xFE, x, s)
  | some p =>
    match x.lastSigned with
    | some (what, covered) =>
      if what = field p 1 1 then
        let (n, s) := s.draw
        (vendorAnswer (fit 16224 (Config.pqSign n covered)), x, s)
      else (errUnexpected, x, s)
    | none => (errUnexpected, x, s)

/- ## The commands -/

/-- GET_VERSION (R420). -/
def execGetVersion (rq : Rq) (sid : Option (BitVec 32)) (msg : List Byte) (s : State) : Host.Outcome State Fault Refusal :=
  .next (s.spdmCommand rq sid msg (spdmGetVersion rq.src msg))

/-- GET_CAPABILITIES (R420). -/
def execGetCapabilities (rq : Rq) (sid : Option (BitVec 32)) (msg : List Byte) (s : State) : Host.Outcome State Fault Refusal :=
  .next (s.spdmCommand rq sid msg (spdmGetCapabilities rq.src msg))

/-- NEGOTIATE_ALGORITHMS (R420). -/
def execNegotiateAlgorithms (rq : Rq) (sid : Option (BitVec 32)) (msg : List Byte) (s : State) : Host.Outcome State Fault Refusal :=
  .next (s.spdmCommand rq sid msg (spdmNegotiate rq.src msg))

/-- GET_DIGESTS (R420). -/
def execGetDigests (rq : Rq) (sid : Option (BitVec 32)) (msg : List Byte) (s : State) : Host.Outcome State Fault Refusal :=
  .next (s.spdmCommand rq sid msg spdmGetDigests)

/-- GET_CERTIFICATE (R420). -/
def execGetCertificate (rq : Rq) (sid : Option (BitVec 32)) (msg : List Byte) (s : State) : Host.Outcome State Fault Refusal :=
  .next (s.spdmCommand rq sid msg (spdmGetCertificate msg))

/-- CHALLENGE (R420). -/
def execChallenge (rq : Rq) (sid : Option (BitVec 32)) (msg : List Byte) (s : State) : Host.Outcome State Fault Refusal :=
  .next (s.spdmCommand rq sid msg (spdmChallenge msg))

/-- GET_MEASUREMENTS (R422). -/
def execGetMeasurements (rq : Rq) (sid : Option (BitVec 32)) (msg : List Byte) (s : State) : Host.Outcome State Fault Refusal :=
  .next (s.spdmCommand rq sid msg (spdmGetMeasurements msg))

/-- KEY_EXCHANGE (R420). -/
def execKeyExchange (rq : Rq) (sid : Option (BitVec 32)) (msg : List Byte) (s : State) : Host.Outcome State Fault Refusal :=
  .next (s.spdmCommand rq sid msg (spdmKeyExchange rq.src msg))

/-- FINISH (R420). -/
def execFinish (rq : Rq) (sid : Option (BitVec 32)) (msg : List Byte) (s : State) : Host.Outcome State Fault Refusal :=
  .next (s.spdmCommand rq sid msg (spdmFinish rq.src sid msg))

/-- HEARTBEAT (R420). -/
def execHeartbeat (rq : Rq) (sid : Option (BitVec 32)) (msg : List Byte) (s : State) : Host.Outcome State Fault Refusal :=
  .next (s.spdmCommand rq sid msg spdmHeartbeat)

/-- KEY_UPDATE (R420). -/
def execKeyUpdate (rq : Rq) (sid : Option (BitVec 32)) (msg : List Byte) (s : State) : Host.Outcome State Fault Refusal :=
  .next (s.spdmCommand rq sid msg (spdmKeyUpdate msg))

/-- END_SESSION (R420). -/
def execEndSession (rq : Rq) (sid : Option (BitVec 32)) (msg : List Byte) (s : State) : Host.Outcome State Fault Refusal :=
  .next (s.spdmCommand rq sid msg (spdmEndSession rq.src))

/-- GET_PQ_CHAIN (R421). -/
def execGetPqChain (rq : Rq) (sid : Option (BitVec 32)) (msg : List Byte) (s : State) : Host.Outcome State Fault Refusal :=
  .next (s.spdmCommand rq sid msg (spdmPqChain msg))

/-- GET_PQ_SIGNATURE (R421). -/
def execGetPqSignature (rq : Rq) (sid : Option (BitVec 32)) (msg : List Byte) (s : State) : Host.Outcome State Fault Refusal :=
  .next (s.spdmCommand rq sid msg (spdmPqSignature msg))

/-- A request the module does not support (R420): ERROR UnsupportedRequest with its code. -/
def execSpdmUnsupportedRequest (rq : Rq) (sid : Option (BitVec 32)) (msg : List Byte) (s : State) : Host.Outcome State Fault Refusal :=
  .next (s.spdmCommand rq sid msg fun x s => (spdmErr 0x07 (field msg 1 1), x, s))

/-- What an SPDM message written to SPDM_MESSAGE asks for, by its request code (R420, R421). -/
def spdmDispatch (a : Arrival) (sid : Option (BitVec 32)) (msg : List Byte) : SpdmAct :=
  match field msg 1 1 with
  | 0x84 => spdmGetVersion a msg
  | 0xE1 => spdmGetCapabilities a msg
  | 0xE3 => spdmNegotiate a msg
  | 0x81 => spdmGetDigests
  | 0x82 => spdmGetCertificate msg
  | 0x83 => spdmChallenge msg
  | 0xE0 => spdmGetMeasurements msg
  | 0xE4 => spdmKeyExchange a msg
  | 0xE5 => spdmFinish a sid msg
  | 0xE8 => spdmHeartbeat
  | 0xE9 => spdmKeyUpdate msg
  | 0xEC => spdmEndSession a
  | 0xFE =>
    match (vendorPayload msg).map fun p => field p 0 1 with
    | some 1 => spdmPqChain msg
    | some 2 => spdmPqSignature msg
    | _ => fun x s => (spdmErr 0x07 0xFE, x, s)
  | c => fun x s => (spdmErr 0x07 c, x, s)

/-- A message that SPDM_MESSAGE takes: a secured message where it begins with the identifier of the arrival's session, else an SPDM request.
One whose tag does not hold is answered DecryptError, and the session stays (DESIGN CHOICE). -/
def State.spdmIn (rq : Rq) (msg : List Byte) : Act := fun s =>
  let x := s.spdmOf rq.src
  if x.session ≠ 0 ∧ field msg 0 4 = x.sid then
    match spdmOpen x.reqSecret x.reqSeq msg with
    | some m =>
      let sid := some (BitVec.ofNat 32 x.sid)
      State.spdmTake rq sid m (spdmDispatch rq.src sid m) s
    | none => (rOk, s.updSess rq.src fun y => { y with spdm := errDecrypt })
  else State.spdmTake rq none msg (spdmDispatch rq.src none msg) s

end Sys2Proof.Machine
end

