-- ==== Sys2Proof/Machine/Recovery.lean ====
section
/-!
DEFINITION. Sys2Proof/Machine/Recovery.lean: what S09 makes of the last flush (R68, R401 to R404), and what a start clears.
-/

namespace Sys2Proof.Machine

/- ## Flush recovery (R402 to R404) -/

/-- A page whose image lies in the zone (R350, R402): its slot points there, and it is in the Cellar. -/
def State.recoverItem (s : State) (mode : PageMode) (x : FlushItem) : State :=
  let p := s.page x.page
  let refs := ((s.image x.slot).map (·.refs)).getD 0
  let s := s.putImage x.slot (imageOf x.page p.form x.loc refs)
  let s := s.updPage x.page fun p => { p with slot := some x.slot }
  let s := match p.slot with | some o => if o = x.slot then s else s.releaseSlot o | none => s
  s.leaveStore x.page mode

/-- A torn page (R403): a new slot with the replacement image of R376, the page DIRTY in the Store; TORN_PAGE, replayed. -/
def State.tearPage (s : State) (x : FlushItem) : State :=
  let old := (s.page x.page).slot
  let p := s.page x.page
  let s := s.replaceImage x.page (imageOf x.page p.form none 0)
  let new := s.newSlot
  let s := s.putImage new (imageOf x.page (s.page x.page).form none 0)
  let s := s.updPage x.page fun p => { p with slot := some new }
  let s := match old with | some o => s.releaseSlot o | none => s
  let s := if x.slot = new then s else s.releaseSlot x.slot
  s.raise { code := 0x780A, sev := 2, unit := srcRoom (pageRoom x.page), replayed := true,
            args := leBytes 5 (pageNo x.page) ++ leBytes 4 (s.shown x.since / 4096) }

/-- A room with a durable window. -/
def State.hasDurable (s : State) (k : Nat) : Bool := (s.windows k).any fun w => attrDurable (s.attr k w)

/-- The list is lost (R402): every room with a durable window is held Off, its dirty pages stand as the Cellar holds them. -/
def State.loseList (s : State) : State :=
  let rooms := (List.finRange 64).filter fun (k : Fin 64) => s.hasDurable k.val
  let s := rooms.foldl (fun s k => s.fnHold (.room k) 8) s
  let dirty := s.pages.filter fun e => decide (e.2.mode = PageMode.dirty)
  let s := dirty.foldl (fun s e =>
    let ok := match e.2.slot.bind s.image with | some i => i.loc.isSome | none => false
    if ok then (s.leaveStore e.1 .cellar).updPage e.1 fun p => { p with behind := true } else s.updPage e.1 Page.freed) s
  s.raise { code := 0x780C, sev := 3, unit := srcCistern, replayed := true,
            args := leBytes 8 (rooms.foldl (fun (m : Nat) (k : Fin 64) => setBit m k.val true) 0) }

/-- Volatile pages (R404): one flushed with its manifest, or with a Cellar image, is DEMOTED; another is NEW. VOLATILE_LOST counts by room the
pages of VOLATILE_FLUSH windows that were not flushed. -/
def State.settleVolatile (s : State) : State :=
  let f := s.flush
  let listed := if (f.volatile.map (·.seq)) = some f.seq then f.volList.filter fun x => x.loc.isSome else []
  let s := listed.foldl (fun s x => s.recoverItem .demoted x) s
  let rest := s.pages.filter fun e => decide (e.2.mode = PageMode.volatile)
  let lost := rest.filter fun e => attrVolFlush (s.pageAttr e.1)
  let s := rest.foldl (fun s e =>
    let ok := match e.2.slot.bind s.image with | some i => i.loc.isSome | none => false
    if ok then (s.leaveStore e.1 .demoted).updPage e.1 fun p => { p with behind := true } else s.updPage e.1 Page.freed) s
  (upTo 64).foldl (fun s k =>
    let n := (lost.filter fun e => pageRoom e.1 = k).length
    if n = 0 then s
    else s.raise { code := 0x780B, sev := 1, unit := srcRoom k, replayed := true, args := leBytes 4 n }) s

/-- What the Brace left to be said (R225, R244): SHELVE_END or UNSHELVE_END of each shelf command void, PUB_VOID of each version void. -/
def State.sayVoids (s : State) : State :=
  let s := s.flush.shelfVoids.foldl (fun s v => s.raise (shelfVoid v.1 v.2.1 v.2.2.1 6 v.2.2.2 true)) s
  s.flush.pubVoids.foldl (fun s v =>
    s.raise { code := 0x5813, sev := 2, unit := srcRoom (s.val .pubRoom v.1 0), replayed := true,
              args := leBytes 1 v.1 ++ leBytes 4 v.2 }) s

/-- j as the newest durable manifest of 10 GB and more measures it (R401), in 0.01 J per GB. -/
def State.measureJ (s : State) : State :=
  match s.flush.durable with
  | some m => if 10000000000 ≤ m.stored then s.updCistern fun c => { c with j := 100 * m.drawn * 1000000000 / m.stored } else s
  | none => s

/-- S09 (R402): the flush record acted on, and closed. The zone drain begins with the oldest row (R350). -/
def State.recoverFlush (s : State) : State :=
  let f := s.flush
  if !f.isOpen then s
  else
    let whole := decide ((f.durable.map (·.seq)) = some f.seq) && f.sealed
    let done := f.list.filter fun x => x.loc.isSome
    let torn := f.list.filter fun x => x.loc.isNone
    let s := if whole || f.listDone then torn.foldl State.tearPage (done.foldl (fun s x => s.recoverItem .cellar x) s) else s.loseList
    let s := s.settleVolatile
    let outcome := if whole then 0 else if f.listDone then 1 else 2
    let s := s.raise { code := 0x7809, sev := 1, unit := srcCistern, replayed := true,
                       args := leBytes 4 f.seq ++ leBytes 1 outcome ++ leBytes 4 (if f.listDone then torn.length else 0) }
    let s := (s.sayVoids.measureJ).setCellar { s.sayVoids.measureJ.cellar with drain := (done ++ f.volList.filter fun x => x.loc.isSome).map (·.slot) }
    let s := s.setFlush { s.flush with isOpen := false, list := [], volList := [], shelfVoids := [], pubVoids := [] }
    (upTo 64).foldl (fun s k => s.settleOverdraft k) s

/- ## What a start clears -/

/-- A page as a start finds it: no Loft copy, no Store frame, nothing under way; a CLEAN page is in the Cellar. DIRTY and VOLATILE pages stay
until S09 resolves them. -/
def Page.atStart (p : Page) : Page :=
  let q := { p.dropLoft with transit := .none, frame := none, snapshot := none, wrote := false, wbStep := 0, wbOrder := 0, leaving := false,
                             unpinned := false, promote := false, spilled := false, pinUntil := 0, touches := [0, 0, 0, 0], heat := 0 }
  match p.mode with
  | .clean => { q with mode := .cellar, bricks := [], footing := [], group := [], groupCheck := [] }
  | _ => q

/-- The dictionary at a start (R440, R449, R462): values that do not persist at their defaults, counters from zero; the sessions of I3C and of
the UART go on. -/
def Od.atStart (o : Od) : Od :=
  let stays (k : Nat) : Bool := match Ent.at (k / 256) (k % 256) with | some e => e.1.row.persist | none => false
  { o with vals := Tbl.keep o.vals fun k _ => stays k, late := [], blobs := Tbl.keep o.blobs fun k _ => stays k, requests := 0, discarded := 0,
           dropped := 0, recentBad := [],
           sessions := o.sessions.filter fun x => match x.arr with | .i3c => true | .uart => true | _ => false }

/-- A function at a start (R458): Off; its request is kept, but a stair's. -/
def FnWord.atStart (key : Nat) (w : FnWord) : FnWord :=
  { FnWord.init with held := w.held, cause := if w.held then w.cause else 0, want := if key / 1024 = 4 then false else w.want }

/-- The Store controller at a start: its map, its retired ranks, the migrations to be settled, its rubble lists; the bank masks written last
(R314). -/
def State.storeAtStart (s : State) : Store :=
  let x := s.store
  let masks := if s.written .bankMask 0 0 ∨ !(s.blob .bankMask 0 0 []).isEmpty then masksOf (s.blob .bankMask 0 0 []) else x.masks
  { Store.init with
    map := x.map, spares := x.spares, migrations := x.migrations, waiting := x.waiting, rubble := x.rubble, masks := masks,
    ranks := Tbl.keep x.ranks fun _ m => decide (m ≠ RankMode.spare) }

/-- The Cellar at a start (R341, R342): rows and erases under way are given up, images that were never programmed go with them but for those of
the flush list. -/
def State.cellarAtStart (s : State) : Cellar :=
  let x := s.cellar
  let listed := (s.flush.list ++ s.flush.volList).map (·.slot)
  let sb (b : Superblock) : Superblock := match b.mode with
    | .erased => b | .sealed => b | _ => { b with mode := .sealed, sealedAt := s.now }
  let ch (c : CellarChan) : CellarChan := { CellarChan.init with dies := c.dies, bad := c.bad }
  { x with images := Tbl.keep x.images fun k i => i.loc.isSome || listed.contains k,
           supers := Tbl.each x.supers fun _ b => sb b, open_ := [], rows := [], programs := [], senses := [], chans := Tbl.each x.chans fun _ c => ch c,
           queue := [], spaceAt := [], zoneAt := none, slotsAt := none }

/-- The Cistern at a start: not assessed, the ceiling 0, so that write-through rules (R393, R395). -/
def Cistern.atStart (c : Cistern) : Cistern :=
  { c with mode := .idle, ceiling := 0, byEnergy := 0, writeThrough := true, fault := none, distrusted := false, okRun := 0, phase := .none,
           asked := false, due := none, reported := 0, holds := 0, holdAt := none, breached := false }

/-- The vault at a start: Standalone until S12; forwarding records, pages homed here, frozen and landed pages are kept, and the releases not
yet sent (R495). -/
def Vault.atStart (v : Vault) : Vault :=
  { Vault.init with records := v.records, far := Tbl.keep v.far fun _ f => decide (f = FarMode.landed), leaving := v.leaving, here := v.here,
                    again := v.again.filter fun e => decide (e.2.kind = 7) }

/-- The sealing key of an epoch (R413): derived from the unique device secret, the label "seal" and SEAL_EPOCH. PRESUMED: the epoch stands
as a 32-bit big-endian number, as SP 800-108 has its other numbers. -/
def sealingKey (epoch : Nat) : List Byte :=
  kdf256 Config.deviceSecret [0x73, 0x65, 0x61, 0x6C] (bytesOfNats (beOf 4 epoch))

/-- The Keystone at a start: the sealing key derived (R413), no key in a slot, no connection; a Lock stands (R431). -/
def Sec.atStart (x : Sec) : Sec :=
  { x with keys := [], sealing := sealingKey x.epoch, locked := decide (x.lockState ≠ 0), keysOff := decide (x.lockState ≠ 0), release := none, spdm := [], nextSid := 1 }

/-- The tally at a start (R65): the writer runs again, and each source goes on from its last entry, DESIGN CHOICE: one with no entry left from
its counter as it stands. -/
def Tally.atStart (t : Tally) : Tally :=
  { t with sealed := false, sinceStart := 0,
           seqs := (t.entries ++ t.held.map (·.1)).foldl (fun q e => Tbl.put q (e.region * 1024 + e.unit) ((e.seq + 1) % 2 ^ 32)) t.seqs }

/-- Power at a start, the cap as it persists. -/
def State.powerAtStart (s : State) : Power :=
  let p := s.power
  { Power.init with mode := .starting, cap := s.val .powerCap 0 0, braceStamp := p.braceStamp, braceCause := p.braceCause, braceQuiet := p.braceQuiet,
                    sealedAt := p.sealedAt, flushStamp := p.flushStamp }

/-- Effective quotas and floors at their defaults (R129, R130): what is configured, until a boundary derates it. -/
def State.fullShares (s : State) : State :=
  let s := (upTo 64).foldl (fun s k =>
    let q := s.val .roomStoreQuota k 0
    if q = 0 then s else s.setRoom k { s.room k with effStore := q }) s
  s.floors.foldl (fun s f => s.setPair f.room f.cls { s.pair f.room f.cls with effFloor := f.bytes }) s

/-- Everything that does not last over a start is cleared. -/
def State.clearVolatile (s : State) : State :=
  let s := s.setOd s.od.atStart
  let s := s.setFuncs (Tbl.each s.funcs FnWord.atStart)
  let s := (s.setPower s.powerAtStart).setCistern s.cistern.atStart
  let s := (((s.setRooms []).setPorts []).setLanding []).setReqs ⟨[], []⟩
  let s := ((s.setStairs []).setDir Dir.init).setInteg Integ.init
  let s := (s.setTier Tier.init).setAdm { Adm.init with commitNo := s.adm.commitNo }
  let s := s.setCellar s.cellarAtStart
  let s := (s.setStore s.storeAtStart).setPages (Tbl.each s.pages fun _ p => p.atStart)
  let s := s.setShelves (Tbl.each s.shelves fun _ f => { f with job := none })
  let s := s.setPubs { Pubs.init with regions := s.pubs.regions, copies := s.pubs.copies }
  let s := ((s.setVault s.vault.atStart).setSec s.sec.atStart).setTest SelfTest.init
  let s := s.setCores { s.cores with cores := [], calls := [], status := [], progs := s.cores.progs.filter (·.current) }
  let s := s.setCodec { s.codec with waiting := [], loads := [], mismatches := 0 }
  let s := (s.setRetirements []).setTally s.tally.atStart
  let s := s.setNotify (Tbl.keep s.notify fun d _ => decide (d = 0x40))
  (s.setBoard { s.board with faultN := false, hot := [], seatLost := false }).fullShares

end Sys2Proof.Machine
end

