-- ==== Sys2Proof/Machine/Start.lean ====
section
/-!
DEFINITION. Sys2Proof/Machine/Start.lean: a start from S01 to S13 (R464 to R472).
-/

namespace Sys2Proof.Machine

/- ## The ledger read before S01 ends (R469, R472) -/

/-- The record before the one that is being written. -/
def State.prevRec (s : State) : Option StartRec := s.start.ledger.dropLast.getLast?

/-- A step failed before: failed, or begun with no end recorded (R469). -/
def State.failedBefore (s : State) (n : Nat) : Bool :=
  match s.prevRec with
  | some r => decide ((r.step n).outcome = 4) || decide ((r.step n).outcome = 1)
  | none => false

/-- A step runs its alternate in this start. -/
def State.alternate (s : State) (n : Nat) : Bool := bitOf s.startRec.alternates (n - 1)

/-- The previous start halted: this one is the further attempt of R472. -/
def State.prevHalted (s : State) : Bool := match s.prevRec with | some r => decide (r.outcome = 4) | none => false

/-- FAILED_STARTS after a record (R468, R472): one more for a start that ended before S13 completed, but for an interrupted one. -/
def StartRec.failedAfter (r : StartRec) : Nat :=
  if r.outcome = 1 ∨ r.outcome = 2 then 0 else if r.outcome = 3 then r.failed else min 255 (r.failed + 1)

/-- Failures of S09 in a row after a record. -/
def StartRec.s09After (r : StartRec) (n : Nat) : Nat :=
  match (r.step 9).outcome with
  | 1 => n + 1 | 4 => n + 1 | 2 => 0 | 3 => 0 | _ => n

/- ## Ends (R466, R470 to R472) -/

/-- The module halts (R472): FAULT_N, START_HALTED. -/
def State.halt (s : State) (n : Nat) : State :=
  let s := ((s.updRec fun r => { r with outcome := 4 }).updStart fun x => { x with step := 15 }).assertFault
  s.raise { code := 0xA007, sev := 3, unit := srcKeeper, args := leBytes 1 n ++ leBytes 1 s.startRec.failed }

/-- Items that the steps recorded so far have disabled, mapped out or retired. -/
def State.itemsSaid (s : State) : Nat := (s.startRec.steps.map (·.items)).sum

/-- Items counted (R468 ITEMS_FAILED). -/
def State.addItems (s : State) (n : Nat) : State := s.updStart fun x => { x with items := x.items + n }

/-- A step passes, degraded where it disabled or retired something (R468, R471). -/
def State.stepPassed (s : State) (n : Nat) : State :=
  let items := s.start.items - s.itemsSaid
  s.stepEnded n (if items = 0 then 2 else 3) 0 items

/-- A step fails (R466): the module starts again; what ran beside the step is no failure. A ROM self-check that fails stops the module. -/
def State.stepFailed (s : State) (n : Nat) : State :=
  let s := s.stepEnded n 4 0 (s.start.items - s.itemsSaid)
  if n = 1 then
    let s := (s.updStart fun x => { x with step := 0, waiting := none }).assertFault
    s.updPower fun p => { p with mode := .off, failure := true }
  else
    let beside := (upTo 13).filter fun i => (s.startRec.step (i + 1)).outcome = 1
    (beside.foldl (fun s i => s.updStep (i + 1) fun x => { x with outcome := 5, courses := (s.now - x.start) / 4096 }) s).startAsk 7

/-- S13 ends the start (R471, R472). -/
def State.startComplete (s : State) : State :=
  let s := s.stepPassed 13
  let n := s.start.items
  let outcome := if n = 0 then 1 else 2
  let spares := leBytes 1 ((upTo 4).foldr (fun r n => 4 * n + s.sparesLeft r) 0)
  let s := if n = 0 then s else s.raise { code := 0xA005, sev := 2, unit := srcKeeper, args := leBytes 2 n ++ spares }
  let s := s.updRec fun r => { r with outcome := outcome }
  let s := s.raise { code := 0xA006, sev := 1, unit := srcKeeper,
                     args := leBytes 1 outcome ++ leBytes 4 ((s.now - s.startRec.first) / 4096) }
  let s := s.updStart fun x => { x with step := 14, roomsBegun := [], roomsLeft := none }
  (s.updPower fun p => { p with mode := .full }).retryAll

/- ## Beginnings of steps (R465, R469) -/

/-- A step begins, as its alternate where it failed before: START_ALTERNATE. -/
def State.openStep (s : State) (n : Nat) : State :=
  let s := s.stepBegun n
  if s.failedBefore n ∧ n ≠ 1 then
    let seq := match s.prevRec with | some r => r.seq | none => 0
    (s.updRec fun r => { r with alternates := setBit r.alternates (n - 1) true }).raise
      { code := 0xA003, sev := 2, unit := srcKeeper, args := leBytes 1 n ++ leBytes 4 seq }
  else s

/-- A Store channel disabled by the ledger takes no part (R470). -/
def State.chanOff (s : State) (ch : Nat) : Bool := decide (2 ≤ s.failCount 1 ch)

/-- Migrations that the start found under way or waiting end with nothing copied (R330, R331): the spare takes the slot, or the slot is
dead. -/
def State.settleMigration (s : State) (region slot source : Nat) (spare : Option Nat) : State :=
  let st := s.store
  let st := { st with map := Tbl.put st.map (64 * region + slot) (spare.getD 254),
                      ranks := (match spare with
                        | some p => Tbl.put (Tbl.put st.ranks (64 * region + p) .inService) (64 * region + source) .retired
                        | none => Tbl.put st.ranks (64 * region + source) .retired) }
  (s.setStore st).raise
    { code := 0x6002, sev := 1, region := region, unit := rankUnit source,
      args := leBytes 1 (8 * region + source / 8) ++ leBytes 1 (source % 8) ++ leBytes 4 0 ++ leBytes 4 0 }

/-- A standing spare of a region that serves, taken. -/
def State.takeSpare (s : State) (region : Nat) : Option Nat × State :=
  match (upTo 2).find? fun i => s.spare region i ≠ 255 && !s.chanOff (rankChannel region (s.spare region i)) with
  | none => (none, s)
  | some i => (some (s.spare region i), s.setStore { s.store with spares := Tbl.put s.store.spares (2 * region + i) 255 })

/-- Every migration settled at S05. -/
def State.settleMigrations (s : State) : State :=
  let running := s.store.migrations
  let waiting := s.store.waiting
  let s := s.setStore { s.store with migrations := [], waiting := [] }
  let s := running.foldl (fun s m => s.settleMigration m.1 m.2.slot m.2.source m.2.spare) s
  waiting.foldl (fun s w =>
    match s.rankSlot w.1 w.2.1 with
    | none => s
    | some slot =>
      let (sp, s) := s.takeSpare w.1
      s.settleMigration w.1 slot w.2.1 sp) s

/-- A rank of a channel that has been disabled leaves the map (R331, R470): a spare takes its slot, or the slot is dead. -/
def State.mapOut (s : State) (region rank : Nat) : State :=
  let s := s.retireUnit region (rankUnit rank) 4
  let drop (i : Nat) (t : Tbl Nat) : Tbl Nat := if s.spare region i = rank then Tbl.put t (2 * region + i) 255 else t
  let s := (s.setStore { s.store with spares := drop 1 (drop 0 s.store.spares) }).setRank region rank .retired
  match s.rankSlot region rank with
  | none => s
  | some slot =>
    let (sp, s) := s.takeSpare region
    let s := match sp with | some p => s.setRank region p .inService | none => s
    s.setStore { s.store with map := Tbl.put s.store.map (64 * region + slot) (sp.getD 254) }

/-- START_DISABLED (R481). -/
def State.disabledSaid (s : State) (kind inst step : Nat) : State :=
  (s.addItems 1).raise { code := 0xA004, sev := 2, unit := srcKeeper, args := leBytes 1 kind ++ leBytes 1 inst ++ leBytes 1 step }

/-- A Store channel's failed attempt at S05 (R470): the second in a row disables it. -/
def State.chanFailed (s : State) (ch : Nat) : State :=
  if s.chanOff ch then s
  else
    let n := s.failCount 1 ch + 1
    let s := s.setFailCount 1 ch n
    if n < 2 then s
    else
      let s := (s.setChan ch { s.chan ch with mode := .disabled }).disabledSaid 1 ch 5
      (s.mapOut (ch / 32) (2 * (ch % 32))).mapOut (ch / 32) (2 * (ch % 32) + 1)

/-- A Cellar channel's failed attempt at S07 (R357, R358, R470). -/
def State.cchanFailed (s : State) (c : Fin 32) : State :=
  let n := s.failCount 2 c + 1
  if 2 ≤ s.failCount 2 c then s
  else
    let s := s.setFailCount 2 c n
    if n < 2 then s
    else ((s.disabledSaid 2 c 7).retireCchan c 4).fnHold (.cellar c) 3

/-- The functions of a step that are to start: request enable, not held (R458). -/
def State.toStart (s : State) (f : FnId) : Bool := (s.fn f).want && !(s.fn f).held && decide ((s.fn f).state = .off)

/-- The work of a step's beginning: S05 has S08 beside it; S07 starts the Cellar channels, and forms the flush zone at the first start; S10 the
ports; S11 writes the new start's TIME_STATE_CHANGE. -/
def State.beginWork (s : State) (n : Nat) : State :=
  match n with
  | 5 => (s.openStep 8).settleMigrations
  | 7 =>
    let s := s.setCellar { s.cellar with zoneSet := true }
    (List.finRange 32).foldl (fun s (c : Fin 32) =>
      let s := if (s.cchan c).dies = 0 ∧ !s.isRetired (c.val / 8) (cchanUnit c) then
          s.setCchan c { s.cchan c with dies := (upTo 8).foldl (fun m w => setBit m w (!s.isRetired (c.val / 8) (dieUnit c w))) 0 }
        else s
      if s.toStart (.cellar c) ∧ !s.isRetired (c.val / 8) (cchanUnit c) then s.fnBegin (.cellar c) 1 else s) s
  | 9 => s.recomputeCeiling true
  | 10 =>
    (List.finRange 32).foldl (fun s p =>
      if s.toStart (.port p) ∧ s.wantedRole p ≠ .off then s.fnBegin (.port p) 1 else s) s
  | 11 => s.raise (timeChangeEv 0xFF .free 0)
  | _ => s

/-- A step begins with its work; S11 as an alternate completes in Free at once, S12 ends unjoined as an alternate, and is skipped by a module with
no member table; at S12 the module checks itself first. -/
def State.beginStep (s : State) (n : Nat) : State :=
  let s := s.updStart fun x => { x with step := n }
  let s := (s.openStep n).beginWork n
  if n = 9 ∧ 3 ≤ s.start.s09fails ∧ !s.prevHalted then s.halt 9
  else s

/-- S13 begins; see `begin12`. -/
def State.begin13 (s : State) : State := s.beginStep 13

/-- S12 begins (R486). -/
def State.begin12 (s : State) : State :=
  let s := s.beginStep 12
  if s.members.isEmpty then (s.stepEnded 12 6 0 0).begin13
  else
    let s := s.setVault { s.vault with mode := .joining, triedAt := s.now }
    if s.alternate 12 then (s.stepEnded 12 2 0 0).begin13 else s.joinSelf

/-- S11 begins. -/
def State.begin11 (s : State) : State :=
  let s := s.beginStep 11
  if s.alternate 11 then (s.stepEnded 11 2 0 0).begin12 else s

/-- The step after one that has ended; S09 needs S07 and S08. -/
def State.nextStep (s : State) (n : Nat) : State :=
  match n with
  | 7 => if (s.startRec.step 8).outcome = 1 then s.updStart fun x => { x with step := 8 } else s.beginStep 9
  | 8 => if s.start.step = 8 then s.beginStep 9 else s
  | 10 => s.begin11
  | 11 => s.begin12
  | 12 => s.begin13
  | n => s.beginStep (n + 1)

/-- A step passes, and the next begins. -/
def State.passOn (s : State) (n : Nat) : State := (s.stepPassed n).nextStep n

/- ## S01 and S02 -/

/-- S01 ends: the module halts here with FAILED_STARTS at 8, but for the further attempt (R472). -/
def State.endS01 (s : State) : State :=
  let s := s.stepPassed 1
  if 8 ≤ s.startRec.failed ∧ !s.prevHalted then s.halt 1 else s.beginStep 2

/-- The slot in a state. -/
def State.slotIn (s : State) (m : FwMode) : Option Nat := (upTo 2).find? fun i => (s.slot i).mode = m

/-- The previous start failed, or was reset, inside a step while a Trial slot ran (R417). -/
def State.trialFailed (s : State) : Bool :=
  match s.prevRec with
  | some r => bitOf r.firmware 1 && r.steps.any fun x => decide (x.outcome = 1) || decide (x.outcome = 4)
  | none => false

/-- The slots S02 tries, in order (R417). -/
def State.slotOrder (s : State) : List Nat :=
  let t := (s.slotIn .trial).toList
  let c := (s.slotIn .committed).toList
  if s.trialFailed then c ++ t else t ++ c

/-- The slot that S02 will try first, as FIRMWARE has it (R468). -/
def State.firmwareByte (s : State) (i : Nat) : Nat := i + (if (s.slot i).mode = .trial then 2 else 0)

/-- Persisted values lost in both copies take their defaults (R440). -/
def State.loadDefaults (s : State) : State :=
  let s := s.setOd { s.od with vals := [], blobs := [] }
  let s := s.setFuncs (Tbl.keep s.funcs fun _ w => w.held)
  let s := s.updPower fun p => { p with cap := s.val .powerCap 0 0 }
  s.raise { code := 0x1112, sev := 2, unit := srcKeeper, args := leBytes 1 2 }

/-- S02 ends (R417, R440): the first slot that passes runs; a Trial slot given up loses its mark, FW_FALLBACK; with none, boot ROM recovery. -/
def State.endS02 (s : State) (persistOk : Bool) : State :=
  match s.slotOrder.find? fun i => s.slotPasses i with
  | none => ((s.stepEnded 2 4 0 0).updStart fun x => { x with step := 16 }).assertFault
  | some i =>
    let s := s.updSec fun x => { x with running := i }
    let s := match s.slotIn .trial with
      | some t =>
        if t = i then s
        else (s.setSlot t { s.slot t with mode := .staged }).raise
          { code := 0x9004, sev := 2, unit := srcKeystone, args := leBytes 1 t ++ leBytes 1 i }
      | none => s
    let s := s.updRec fun r => { r with firmware := s.firmwareByte i }
    (if persistOk then s else s.loadDefaults).passOn 2

/- ## S03 to S08 -/

/-- S03 ends (R28): bond blocks that cannot be repaired are retired. -/
def State.endS03 (s : State) (blocks : List (Fin 4 × Fin 8)) : State :=
  let new := blocks.filter fun b => !s.isRetired b.1 (0x280 + b.2)
  ((new.foldl (fun s b => s.markRetired b.1 (0x280 + b.2) 1 3) s).addItems new.length).settleLoftScale.passOn 3

/-- S04 ends: as an alternate, bank groups that fail the march test are retired (R469). -/
def State.endS04 (s : State) (groups : List (Fin 4 × Fin 64)) : State :=
  let new := if s.alternate 4 then groups.filter fun g => !s.isRetired g.1 (0x240 + g.2) else []
  ((new.foldl (fun s g => s.retireUnit g.1 (0x240 + g.2) 1) s).addItems new.length).settleLoftScale.passOn 4

/-- The channels that trained serve at the operating set point (R324), their counts at zero (R470). The stamp 0 stands for no training. -/
def State.serveChans (s : State) : State :=
  (upTo 128).foldl (fun s ch =>
    if s.chanOff ch then s.setChan ch { s.chan ch with mode := .disabled }
    else
      let temp := s.packageTemp (ch / 4)
      (s.setChan ch { s.chan ch with mode := .serving, point := s.store.point, trained := List.replicate 3 (max 1 s.now), sweptTemp := temp,
                                     deferred := false, dueChange := false, sweep := none }).setFailCount 1 ch 0) s

/-- S05 ends (R324, R331, R470). -/
def State.endS05 (s : State) (failed : List (Fin 128)) : State :=
  ((failed.foldl (fun s ch => s.chanFailed ch) s).serveChans).passOn 5

/-- RUBBLE_REPAIRED (R331, R386). -/
def State.repairRow (s : State) (region word : Nat) : State :=
  if !(s.rubble region).contains word then s
  else
    (s.setStore { s.store with rubble := Tbl.put s.store.rubble region ((s.rubble region).filter fun w => w ≠ word) }).raise
      { code := 0x7008, sev := 0, region := region, unit := rankUnit (2 * (word / 2 ^ 25 % 32) + word / 2 ^ 24 % 2),
        args := leBytes 1 (word / 2 ^ 25) ++ leBytes 1 (word / 2 ^ 24 % 2) ++ leBytes 1 (word / 2 ^ 20 % 16) ++ leBytes 4 (word % 2 ^ 20) }

/-- S06 ends (R331): repaired rows leave the rubble list. -/
def State.endS06 (s : State) (repaired : List (Fin 4 × BitVec 32)) : State :=
  (repaired.foldl (fun s x => s.repairRow x.1 x.2.toNat) s).passOn 6

/-- The Cellar channels that came up serve, the identities of their dies are read from the ONFI parameter pages (R26), and the factory marks of dies not read before (R355), and rebuilds under way
go on (R358). -/
def State.serveCchans (s : State) : State :=
  let s := (List.finRange 32).foldl (fun s (c : Fin 32) =>
    if (s.fn (.cellar c)).state = .starting then (s.fnOn (.cellar c)).setFailCount 2 c 0 else s) s
  let ids : Tbl Nat := (upTo 256).foldl (fun t d =>
    if bitOf (s.cchan (d / 8)).dies (d % 8) ∧ (s.cchan (d / 8)).mode ≠ .disabled then Tbl.put t d (Config.nandIdentity d).toNat else t) s.cellar.onfi
  let s := s.setCellar { s.cellar with onfi := ids }
  (ids.foldl (fun s e => s.readMarks e.1) s).takeRebuilds fun _ => false

/-- S07 ends (R337, R346, R470). -/
def State.endS07 (s : State) (failed : List (Fin 32)) : State :=
  ((failed.foldl State.cchanFailed s).serveCchans).passOn 7

/-- S08 ends (R390, R393): the pack assessed; as an alternate it is not trusted until an assessment completes after S13 (R469). -/
def State.endS08 (s : State) (mv temps esr : List (BitVec 16)) (fault : Option (Byte × PackCause)) : State :=
  let s := s.updCistern fun c =>
    let cells := eachCell (fun x (v : BitVec 16) => { x with mv := v.toNat }) c.cells mv
    let cells := eachCell (fun x (v : BitVec 16) => { x with temp := v.toInt }) cells temps
    { c with cells := eachCell (fun x (v : BitVec 16) => x.measure v.toNat) cells esr }
  let s := s.assessPack
  let s := match fault with | some (cell, cause) => s.packFault cell.toNat cause | none => s
  let s := if s.alternate 8 then s.updCistern fun c => { c with distrusted := true } else s
  (s.recomputeCeiling true).passOn 8

/- ## S12 and S13 -/

/-- S12 ends (R486, R495): every member has been tried once; for each record left MOVING the base asks the target. -/
def State.endS12 (s : State) (views : List PeerView) : State :=
  let s := s.tryPeers State.notJoined views
  let moving := s.vault.records.filter fun e => e.2.target.isSome
  let ask (s : State) (e : Nat × Forward) : State := match e.2.target with
    | some t => if t = s.ownIndex then s else s.tell t 10 0 0 e.1 []
    | none => s
  ((if s.vault.mode = .joined then moving.foldl ask s else s)).passOn 12

/-- A room brought online at S13. -/
def State.startRoom (s : State) (k : Nat) : State :=
  if h : k < 64 then if s.toStart (.room ⟨k, h⟩) then s.fnEnable (.room ⟨k, h⟩) 1 else s else s

/-- S13's checks (R269, R274, R424, R458): images whose digest fails are removed, keys unwrapped, cores, scrubber and rooms enter Starting. As an
alternate, rooms come one at a time, and one whose start had begun without an end is held Off (R469). -/
def State.enterS13 (s : State) (removed : List (BitVec 32)) : State :=
  let bad (p : Prog) : Bool := removed.any fun h => decide (h.toNat = p.handle)
  let gone := s.cores.progs.filter bad
  let s := s.setCores { s.cores with progs := s.cores.progs.filter fun p => !bad p }
  let s := gone.foldl (fun s p => s.raise (progRemoved p.handle 1)) s
  let s := if s.lifecycle = 0 then s else (upTo 64).foldl State.unwrapKey s
  let s := (List.finRange 32).foldl (fun s c => if s.toStart (.core c) ∧ !s.coreGone c then s.fnBegin (.core c) 1 else s) s
  let s := if s.toStart .scrubber then s.fnBegin .scrubber 1 else s
  if s.alternate 13 then
    let s := (List.finRange 64).foldl (fun s (k : Fin 64) =>
      if s.start.roomsBegun.contains k.val then s.fnHold (.room k) 3 else s) s
    let left := (upTo 64).filter fun k => if h : k < 64 then s.toStart (.room ⟨k, h⟩) else false
    s.updStart fun x => { x with roomsLeft := some left }
  else ((upTo 64).foldl State.startRoom s).updStart fun x => { x with roomsLeft := some [] }

/-- A core, a room or the scrubber is Starting. -/
def State.stillStarting (s : State) : Bool :=
  s.funcs.any fun e => decide (e.2.state = .starting) && (decide (e.1 / 1024 = 2) || decide (e.1 / 1024 = 3) || decide (e.1 / 1024 = 5))

/-- S13 goes on: its checks; then, with nothing Starting, the next room of an alternate, or the end of the start. -/
def State.goS13 (s : State) (removed : List (BitVec 32)) : State :=
  match s.start.roomsLeft with
  | none => s.enterS13 removed
  | some l =>
    if s.stillStarting then s
    else match l with
      | k :: rest => (s.updStart fun x => { x with roomsLeft := some rest }).startRoom k
      | [] => s.startComplete

/- ## The commands -/

/-- The step an end belongs to. -/
def endNo : StepEnd → Nat
  | .s01 _ => 1 | .s02 _ => 2 | .s03 _ => 3 | .s04 _ => 4 | .s05 _ => 5 | .s06 _ => 6 | .s07 _ => 7 | .s08 .. => 8 | .s09 => 9 | .s10 => 10
  | .s11 => 11 | .s12 _ => 12 | .s13 _ => 13

/-- A step runs: the one of the sequence, or S08 beside it; no Erase is under way. -/
def State.stepRuns (s : State) (n : Nat) : Bool :=
  decide (s.power.mode = .starting) && s.sec.erasing.isNone && decide ((s.startRec.step n).outcome = 1)
    && (decide (s.start.step = n) || (decide (n = 8) && decide (5 ≤ s.start.step) && decide (s.start.step ≤ 8)))

/-- START_STEP (R465): a step ends with what its work found, and the next begins. -/
def execStartStep (e : StepEnd) (s : State) : Host.Outcome State Fault Refusal :=
  if !s.stepRuns (endNo e) then .next s
  else
    .next (match e with
      | .s01 ok => if ok then s.endS01 else s.stepFailed 1
      | .s02 ok => s.endS02 ok
      | .s03 l => s.endS03 l
      | .s04 l => s.endS04 l
      | .s05 l => s.endS05 l
      | .s06 l => s.endS06 l
      | .s07 l => s.endS07 l
      | .s08 mv t r f => s.endS08 mv t r f
      | .s09 => s.recoverFlush.passOn 9
      | .s10 => s.passOn 10
      | .s11 => if s.time.acquired then s.passOn 11 else s
      | .s12 v => s.endS12 v
      | .s13 r => s.goS13 r)

/-- The limit of a step in courses (R465); none for S09. -/
def State.stepLimit (s : State) (n : Nat) : Option Nat :=
  match n with
  | 1 => some 5000 | 2 => some 100000 | 3 => some 25000 | 4 => some 5000
  | 5 => some (if s.alternate 5 then 1500000 else 500000)
  | 6 => some 500000 | 7 => some 750000 | 8 => some 50000 | 10 => some 50000 | 11 => some 5000000 | 12 => some 2500000 | 13 => some 500000
  | _ => none

/-- A Store channel not finished at the limit is out of service from now on (R466, R470). -/
def State.chanLate (s : State) (ch : Nat) : State := if ch < 128 then (s.setFailCount 1 ch (max 1 (s.failCount 1 ch))).chanFailed ch else s

/-- A Cellar channel not finished at the limit. -/
def State.cchanLate (s : State) (c : Nat) : State :=
  if h : c < 32 then (s.setFailCount 2 c (max 1 (s.failCount 2 c))).cchanFailed ⟨c, h⟩ else s

/-- What a step does at its limit (R466). -/
def State.stepLate (s : State) (n : Nat) (unfinished : List (BitVec 8)) : State :=
  match n with
  | 5 => ((unfinished.foldl (fun s c => s.chanLate c.toNat) s).serveChans).passOn 5
  | 7 => ((unfinished.foldl (fun s c => s.cchanLate c.toNat) s).serveCchans).passOn 7
  | 10 => (unfinished.foldl (fun s p => s.portFailed p.toNat) s).passOn 10
  | 11 => (s.stepEnded 11 2 0 0).nextStep 11
  | 12 => (s.stepEnded 12 2 0 0).nextStep 12
  | n => s.stepFailed n

/-- START_STEP_LIMIT (R466). -/
def execStartStepLimit (step : Fin 14) (unfinished : List (BitVec 8)) (s : State) : Host.Outcome State Fault Refusal :=
  match s.stepLimit step with
  | none => .next s
  | some l =>
    .next (if s.stepRuns step ∧ (s.startRec.step step).start + 4096 * l ≤ s.now then s.stepLate step unfinished else s)

/-- A start may begin (R464, R506, R508): the supplies in range, RESET_N deasserted, the seat made, no board trip. -/
def State.mayStart (s : State) : Bool :=
  s.vinIn && s.auxIn && !(s.input 2).taken && (s.input 3).taken && (!(s.input 1).taken || (s.input 1).faulty)

/-- The cause of a start that may begin now: the one asked for, or the rails (R464). -/
def State.startCause (s : State) : Option Nat :=
  match s.start.waiting with
  | some c => if s.power.mode = .starting ∧ s.start.step = 0 then some c else none
  | none => if s.power.mode = .off ∧ !s.power.failure then some 1 else none

/-- Counts that LEDGER_CLEAR_COUNTS named (R470, R480): zero again, and an item they had disabled is tried again. -/
def State.clearCount (s : State) (v : Nat) : State :=
  let kind := v / 256
  let i := v % 256
  let disabled := decide (2 ≤ s.failCount kind i)
  let s := s.setFailCount kind i 0
  if !disabled then s
  else
    let back (s : State) (region unit : Nat) : State := s.setRetired (s.retired.filter fun u => u ≠ unitCode region unit)
    match kind with
    | 1 =>
      let r := i / 32
      (upTo 2).foldl (fun s j =>
        let rank := 2 * (i % 32) + j
        let sp := (upTo 2).find? fun n => s.spare r n = 255
        let s := back s r (rankUnit rank)
        let spares := match sp with | some n => Tbl.put s.store.spares (2 * r + n) rank | none => s.store.spares
        (s.setStore { s.store with spares := spares }).setRank r rank .spare) s
    | 2 => if h : i < 32 then (back s (i / 8) (cchanUnit i)).setFn (.cellar ⟨i, h⟩) { s.fn (.cellar ⟨i, h⟩) with held := false } else s
    | _ => if h : i < 32 then s.setFn (.port ⟨i, h⟩) { s.fn (.port ⟨i, h⟩) with held := false } else s

/-- The stamp a start begins at (R54, R60): from Off, one course after the last stamp in the tally; else the time base has gone on, and is at
least that far. -/
def State.startStamp (s : State) : Nat :=
  match s.tally.entries.getLast? with
  | some e => if s.power.mode = .off then e.stamp + 4096 else max s.now (e.stamp + 4096)
  | none => s.now

/-- Time at a start (R60): nothing acquired, and Free; DESIGN CHOICE: Free from S01 on, where R60 says it of S11. -/
def State.timeAtStart (s : State) : Time :=
  let t := s.time
  let c := s.startStamp
  { Time.init with course := c / 4096, pos := c % 4096, base := t.base, epoch := t.epoch, epochFixed := t.epochFixed, history := t.history,
                   startedAt := if s.start.ledger.isEmpty then c else t.startedAt }

/-- The INPUT_FAULTY of an input that was declared faulty while nothing was recorded (R68, R510). -/
def State.saidFaulty (s : State) (i : Nat) : State :=
  let p := s.input i
  match p.owed with
  | none => s
  | some n => (s.setInput i { p with owed := none }).raise { code := 0xC002, sev := 3, unit := srcBoard, args := leBytes 1 i ++ leBytes 4 n }

/-- S01 begins (R428, R464, R468): the ledger is read and a record opened, FAULT_N is released, and trips latched while off are applied; a tamper
monitor that had stopped leaves UNWATCHED and a Lock (R405). -/
def State.startBegin (s : State) (cause : Nat) : State :=
  let prev := s.start.ledger.getLast?
  let begun := match prev with
    | some r => if (r.step 13).outcome = 1 then
        (upTo 64).filter fun k => if h : k < 64 then decide ((s.fn (.room ⟨k, h⟩)).state = .starting) else false else []
    | none => []
  let fails := match prev with | some r => r.s09After s.start.s09fails | none => 0
  let sealedAt := s.shown s.power.sealedAt
  let s := (s.updPower fun p => { p with keeperDown := false }).unhold
  let s := (s.setTime s.timeAtStart).clearVolatile
  let s := if s.sec.wipe then
      let s := s.discardAll
      let s := s.setCellar { Cellar.init with supers := s.cellar.supers, chans := s.cellar.chans, rowSeq := s.cellar.rowSeq, rebuilds := [],
                                              zoneSet := s.cellar.zoneSet, programmed := s.cellar.programmed, wearSaid := s.cellar.wearSaid,
                                              onfi := s.cellar.onfi, marks := s.cellar.marks, swaps := s.cellar.swaps,
                                              spares := s.cellar.spares, left := s.cellar.left }
      (s.setFlush { s.flush with isOpen := false, list := [], volList := [], shelfVoids := [], pubVoids := [], shelfCalls := [] }).updSec
        fun x => { x with wipe := false }
    else s
  let s := s.start.clears.foldl State.clearCount s
  let slot := (s.slotOrder.head?).getD s.sec.running
  let r : StartRec :=
    { StartRec.init with
      seq := match prev with | some r => r.seq + 1 | none => 1
      cause := cause, lifecycle := s.lifecycle, firmware := s.firmwareByte slot, first := s.now, base := s.time.base
      failed := match prev with | some r => r.failedAfter | none => 0 }
  let ledger := s.start.ledger ++ [r]
  let s := s.setStart { s.start with
    step := 1, waiting := none, ledger := ledger.drop (ledger.length - 64), clears := [], items := 0, roomsBegun := begun, s09fails := fails,
    roomsLeft := none }
  let s := s.openStep 1
  let s := s.raise { code := 0xA001, sev := 1, unit := srcKeeper,
                     args := leBytes 4 r.seq ++ leBytes 1 cause ++ leBytes 1 r.lifecycle ++ leBytes 1 r.firmware }
  let s := (upTo 2).foldl State.saidFaulty s
  let latch := s.sec.latch
  let s := s.updSec fun x => { x with latch := [] }
  let s := if latch.isEmpty then s else s.applyTrips latch true
  if s.sec.unwatched then
    let s := (s.updSec fun x => { x with unwatched := false }).raise
      { code := 0x780D, sev := 2, unit := srcCistern, args := leBytes 8 sealedAt }
    if s.lifecycle = 2 then s.lockNow 1 else s
  else s

/-- START_BEGIN (R464): a start that is due begins once the supplies and inputs allow it. -/
def execStartBegin (s : State) : Host.Outcome State Fault Refusal :=
  match s.startCause with
  | none => .next s
  | some c => .next (if s.mayStart ∧ s.sec.erasing.isNone then s.startBegin c else s)

end Sys2Proof.Machine
end

