-- ==== Sys2Proof/Machine/Flags.lean ====
section
/-!
DEFINITION. Sys2Proof/Machine/Flags.lean: the discrete outputs and the status words that are computed from the state: ALERT_N, FAULT_N and
CISTERN_OK (R511), DISCRETE_INPUTS and INPUTS_FAULTY (R514), PAGE_STATUS (R157), PACKED_LOAD_STATUS (R207), STAIR_STATUS (R158).
-/

namespace Sys2Proof.Machine

/-- A word of bits, from bit 0 up. -/
def flagBits (l : List Bool) : Nat := l.foldr (fun b n => 2 * n + bit01 b) 0

/-- An I3C notification of Warning or Fault is unread. -/
def State.alertUnread (s : State) : Bool := (Tbl.get s.notify 0x40 NotifyQueue.init).queue.any fun e => decide (2 ≤ e.sev)

/-- ALERT_N (R511). -/
def State.alertN (s : State) : Bool :=
  s.alertUnread || s.board.pins.any (fun e => e.2.toggling || e.2.faulty) || s.board.seatLost

/-- CISTERN_OK (R406, R511). -/
def State.cisternOk (s : State) : Bool :=
  s.auxIn && (decide (s.cistern.code = 2) || decide (s.cistern.code = 3))

/-- OUTPUTS (R514). -/
def State.outputs (s : State) : Nat := flagBits [s.alertN, s.board.faultN, s.cisternOk]

/-- DISCRETE_INPUTS (R514). -/
def State.discreteInputs (s : State) : Nat :=
  flagBits ((upTo 5).map fun i => (s.input i).taken) + 256 * flagBits ((upTo 5).map fun i => (s.input i).toggling)

/-- INPUTS_FAULTY (R514). -/
def State.inputsFaulty (s : State) : Nat :=
  let f (i : Nat) : Bool := (s.input i).faulty
  flagBits [f 0, f 1, (f 0 && (s.input 0).seen) || (f 1 && (s.input 1).seen)]

/-- The code of a page's state (R157). -/
def PageMode.code : PageMode → Nat
  | .new => 0 | .dirty => 1 | .clean => 2 | .cellar => 3 | .volatile => 4 | .demoted => 5

/-- The code of a transit (R157). -/
def Transit.code : Transit → Nat
  | .none => 0 | .fetching => 1 | .writing => 2 | .demoting => 3

/-- PAGE_STATUS of a page (R157). -/
def State.pageStatus (s : State) (k : Nat) : Nat :=
  let p := s.page k
  p.mode.code * 2 ^ 28 + p.transit.code * 2 ^ 26 + bit01 p.loft.isSome * 2 ^ 25 + (p.loft.getD 0 % 4) * 2 ^ 23
    + bit01 (decide (s.now < p.pinUntil)) * 2 ^ 22 + bit01 (s.stairHolds k) * 2 ^ 21 + min 255 (s.heatOf p) * 2 ^ 13

/-- PACKED_LOAD_STATUS of a room (R207). -/
def State.loadStatus (s : State) (room : Nat) : Nat :=
  let l := s.load room
  l.done * 2 ^ 32 + l.state * 2 ^ 24 + l.reason * 2 ^ 16 + l.cause * 2 ^ 8

/-- STAIR_STATUS (R158): starved; a prefetch is in flight. -/
def State.stairStatus (s : State) (t : Nat) : Nat :=
  flagBits [(s.stair t).starved, s.tier.fetches.any fun f => (f.step.map (·.1)) = some t]

end Sys2Proof.Machine
end

