-- ==== Sys2Proof/Machine/Read.lean ====
section
/-!
DEFINITION. Sys2Proof/Machine/Read.lean: what a read of each entry of the object dictionary returns (R438, R439 and the entry tables of the
chapters).
-/

namespace Sys2Proof.Machine

/- ## Values put together from the state -/

/-- POWER_STATE (R41); the code while a start runs is not stated. -/
def State.powerCode (s : State) : Nat :=
  match s.power.mode with
  | .full => 1 | .capped => 2 | .quiet => 3 | .brace => 4 | .flush => 5 | .sealed => 6
  | .off => 0 | .starting => Config.startPowerState.toNat

/-- The equalisation that training found for a port's lanes (R104), within the taps of R75: a free value that they allow, else c0 alone. -/
def trainedTaps (port : Nat) : List Byte :=
  let b := leBytes 20 (Config.txTrained port).toNat
  if tapsLegal b then b else (List.replicate 4 (leBytes 5 (64 * 2 ^ 24))).flatten

/-- The code of a link state (R104). -/
def LinkMode.code : LinkMode → Nat
  | .down => 0 | .detect => 1 | .equalise => 2 | .configure => 3 | .up => 4 | .retrain => 5 | .loopback => 6

/-- PARTNER_INFO (R104): what the partner advertised, its layout not stated; zero before Configure. -/
def State.partnerInfo (s : State) (p : Nat) : List Byte :=
  match (s.port p).partner with
  | none => leBytes 16 0
  | some x => leBytes 16 (Config.partnerInfo (roleNo x.role) (bit01 x.hold) x.modIdx.toNat (x.credits.map (·.toNat))).toNat

/-- The units a window's pages take (R130 WINDOW_PAGES). -/
def State.windowPages (s : State) (k w : Nat) : Nat :=
  Tbl.count s.pages fun key p => decide (key < 2 ^ 40) && decide (pageRoom key = k) && p.allocated && decide (s.windowOf key = some w)

/-- Lanes of the codec clusters in service (R207): `off` 0 with 4 expanders, or 4 with 2 compressors, of 8 clusters a region. -/
def State.codecLanes (s : State) (off n : Nat) : Nat :=
  sumTo 4 fun r => sumTo 8 fun c => s.standing r (0x0C0 + 8 * c + off) n

/-- SHELF_STATE (R226). -/
def Shelf.code (f : Shelf) : Nat :=
  match f.job with
  | some j => if j.op = 1 then 2 else if j.begun then 4 else 3
  | none => if f.room = 255 then 0 else 1

/-- PUB_VERSIONS (R250): each version with its open views, newest first. -/
def State.pubVersions (s : State) (g : Nat) : List Byte :=
  ((s.pub g).vers.take 16).flatMap fun v =>
    leBytes 4 v.version ++ leBytes 2 (s.openViews g v.version).length ++ leBytes 2 (flagBits [v.isSealed, v.damaged])

/-- CALL_STATUS (R276); 4 for a call that is not known. -/
def State.callStatus (s : State) (id : Nat) : List Byte :=
  match s.call id with
  | none => leBytes 16 (4 * 256)
  | some c => leBytes 1 c.room ++ leBytes 1 c.mode.code ++ leBytes 4 c.steps ++ leBytes 1 c.last ++ [0] ++ leBytes 8 c.kept

/-- RANK_MIGRATION (R332): by region, the ranks and what is copied, in 4 KiB. -/
def State.migrationBytes (s : State) : List Byte :=
  (upTo 4).flatMap fun r =>
    match Tbl.find s.store.migrations r with
    | none => leBytes 8 0
    | some m =>
      let place (x : Nat) : List Byte := leBytes 1 (8 * r + x / 8) ++ leBytes 1 (x % 8)
      place m.source ++ (match m.spare with | some x => place x | none => [255, 255]) ++ leBytes 4 (s.copiedBytes r m / 4096)

/-- RANK_MAP (R332). -/
def State.rankMapBytes (s : State) : List Byte :=
  (upTo 4).flatMap fun r => ((upTo 62).flatMap fun i => leBytes 1 (s.slotRank r i)) ++ leBytes 1 (s.spare r 0) ++ leBytes 1 (s.spare r 1)

/-- The code of a channel's state (R333). -/
def ChMode.code : ChMode → Nat
  | .off => 0 | .training => 1 | .serving => 2 | .paused => 3 | .disabled => 4

/-- The code of a rank's state (R333). -/
def RankMode.code : RankMode → Nat
  | .inService => 0 | .spare => 1 | .migrating => 2 | .retired => 3

/-- The code of a Cellar channel's state (R362). -/
def CchMode.code : CchMode → Nat
  | .off => 0 | .training => 1 | .serving => 2 | .rebuilding => 3 | .disabled => 4

/-- CELLAR_MARGIN (R362): TLC space that holds no image, in 0.01 %. -/
def State.cellarMargin (s : State) : Nat :=
  let total := 2 * (sbPerSet - zonePerSet) * tlcSbBytes
    - Tbl.total s.cellar.left (fun k m => if s.isZone k then 0 else rowsPerSb * (rowData 0xFFFF false - rowData (0xFFFF - m) false))
  (total - Tbl.total s.cellar.images fun _ i => imageBytes i.bricks) * 10000 / total

/-- SCRUB_PROGRESS (R385): ten-thousandths of the pass, which takes SCRUB_PERIOD hours. -/
def State.scrubProgress (s : State) : Nat :=
  min 9999 ((s.now - s.integ.scrubFrom) / 4096 * 10000 / (max 1 (s.val .scrubPeriod 0 0) * 1800000000))

/-- 16 bits for each region, region 0 lowest. -/
def byRegion (f : Nat → Nat) : Nat := (upTo 4).foldr (fun r n => 65536 * n + min 65535 (f r)) 0

/-- Two bytes for each cell of the pack. -/
def State.cellBytes (s : State) (f : Cell → Nat) : List Byte := s.cistern.cells.flatMap fun c => leBytes 2 (min 65535 (f c))

/-- LAST_FLUSH (R400, R406): bytes 0 to 71 of the last durable manifest. -/
def State.lastFlush (s : State) : List Byte :=
  match s.flush.durable with
  | none => leBytes 72 0
  | some m => [1] ++ leBytes 1 m.kind ++ leBytes 1 m.cause ++ [0] ++ leBytes 4 m.seq ++ leBytes 8 m.brace ++ leBytes 8 m.flush
      ++ leBytes 8 m.fin ++ leBytes 8 m.entries ++ leBytes 8 m.stored ++ leBytes 8 m.firstRow ++ leBytes 8 m.lastRow
      ++ leBytes 4 m.energy ++ leBytes 4 m.drawn

/-- The ordering code of the part (R434). -/
def partNumber : List Byte := "UMX-SX9-2T52".toList.map fun c => BitVec.ofNat 8 c.toNat

/-- The code of a firmware slot's state (R416, R434). -/
def FwMode.code : FwMode → Nat
  | .empty => 0 | .staged => 1 | .trial => 2 | .committed => 3

/-- A start record as it is read (R468). -/
def StartRec.bytes (r : StartRec) : List Byte :=
  let step (i : Nat) : List Byte :=
    let x := r.step (i + 1)
    leBytes 1 (i + 1) ++ leBytes 1 x.outcome ++ leBytes 1 x.detail ++ leBytes 1 x.items ++ leBytes 8 (x.start - 4096 * x.base)
      ++ leBytes 4 x.courses
  let b := leBytes 4 r.seq ++ [1] ++ leBytes 1 r.cause ++ leBytes 1 r.lifecycle ++ leBytes 1 r.firmware
    ++ leBytes 8 (r.first - 4096 * r.base) ++ leBytes 2 r.alternates ++ leBytes 1 r.outcome ++ leBytes 1 r.failed
    ++ (upTo 13).flatMap step ++ leBytes 24 0
  b ++ leBytes 4 (crc32c b)

/-- RETIRED_UNITS (R480): a bit for each SOURCE_UNIT, by region. -/
def State.retiredBytes (s : State) : List Byte :=
  (upTo 4).flatMap fun r => leBytes 128 (s.retired.foldl (fun m u => if u / 1024 = r then setBit m (u % 1024) true else m) 0)

/-- FAIL_COUNTS (R480): Store channels, Cellar channels, ports. -/
def State.failBytes (s : State) : List Byte :=
  let part (kind n : Nat) : List Byte := (upTo n).flatMap fun i => leBytes 1 (min 255 (s.failCount kind i))
  part 1 128 ++ part 2 32 ++ part 3 32

/-- SLICE_STATUS (R480). -/
def State.sliceBytes (s : State) : List Byte :=
  match s.test.running with
  | none => leBytes 12 0
  | some (x, at_) => leBytes 1 x.kind ++ leBytes 1 x.region ++ leBytes 2 x.unit ++ leBytes 8 (s.shown at_)

/-- The code of a vault state (R501). -/
def VaultMode.code : VaultMode → Nat
  | .standalone => 0 | .joining => 1 | .joined => 2 | .fenced => 3

/-- The code of a peer's state (R501). -/
def PeerMode.code : PeerMode → Nat
  | .unknown => 0 | .joined => 1 | .refused => 2 | .fenced => 3 | .lost => 4

/-- PEER_STATUS (R501). -/
def State.peerBytes (s : State) (m : Nat) : List Byte :=
  let p := s.peer m
  leBytes 1 p.st.code ++ leBytes 1 p.cause ++ leBytes 6 0 ++ leBytes 8 (s.shown p.heard)

/-- Pages of a room's pool windows that are homed here. -/
def State.poolHome (s : State) (k : Nat) : Nat :=
  Tbl.count s.pages fun key p => decide (key < 2 ^ 40) && decide (pageRoom key = k) && p.allocated && s.isPool key && s.homedHere key

/-- Pages of a room based here and homed elsewhere. -/
def State.poolLent (s : State) (k : Nat) : Nat :=
  Tbl.count s.vault.records fun key r => decide (pageRoom key = k) && decide (r.home ≠ s.ownIndex)

/-- DIE_TEMP_MAX (R514). -/
def State.dieTempMax (s : State) : Int := (upTo 53).foldl (fun m d => max m (s.temp d - dieLimit d)) (s.temp 0 - dieLimit 0)

/-- A function's word, as its entry reads (R457). -/
def State.fnBytes (s : State) (f : FnId) : List Byte := leBytes 2 (s.fn f).word

/-- The brick a session's BRICK_QUERY names: its page's key and its number (R186). -/
def State.queried (s : State) (a : Arrival) : Nat × Nat :=
  let q := s.sessVal a .brickQuery
  (pageKey (bitsOf q 63 58) (bitsOf q 45 12), bitsOf q 11 8)

/-- The record of a brick (R163): of the Store copy, else of the Cellar image. -/
def State.recordOf (s : State) (k b : Nat) : Nat :=
  let p := s.page k
  if p.inStore then (p.brick b).record
  else match p.slot.bind s.image with | some i => (i.bricks.getD b Laid.blank).record | none => 0

/-- The table that a session's TABLE_QUERY names: room and id (R186). -/
def State.queriedTable (s : State) (a : Arrival) : Nat × Nat :=
  let q := s.sessVal a .tableQuery
  (bitsOf q 13 8, bitsOf q 4 0)

/-- TABLE_BINDING (R186). -/
def State.tableBinding (s : State) (a : Arrival) : Nat :=
  let (room, id) := s.queriedTable a
  match Tbl.find s.codec.binds (32 * room + id) with
  | none => 0
  | some slot => 2 ^ 63 + slot * 2 ^ 48 + s.tableCount room id

/-- A core of the module is in service (R276): not retired. -/
def State.coresIn (s : State) : Nat := flagBits ((upTo 32).map fun c => !s.coreGone c)

/-- The key of PROG_STATUS: of the selected handle. -/
def State.progStatus (s : State) (a : Arrival) : Nat := Tbl.get s.cores.status (s.sessVal a .progSelect) 0

/- ## Reads, by area -/

/-- Power, time, ports, rooms and admission (R41, R72, R104, R130). -/
def State.readA (s : State) (a : Arrival) (e : Ent) (i j : Nat) : Option (List Byte) :=
  let q := s.port i
  let u (n v : Nat) : Option (List Byte) := some (leBytes n v)
  match e with
  | .powerState => u 2 s.powerCode
  | .inputPower => u 2 s.power.input
  | .governorStep => u 1 s.power.step
  | .stampNow => u 8 (s.shown s.now)
  | .epochTai => u 8 s.time.epoch
  | .epochHistory => some (fit 256 (s.time.history.flatMap fun x => leBytes 8 x.1 ++ leBytes 8 x.2))
  | .timeState => u 2 s.time.mode.code
  | .timeOffset => u 4 (unsign 32 s.time.offset)
  | .timeSource => u 2 s.time.source.code
  | .tallyWritten => u 8 s.tally.written
  | .tallyDrained => u 8 s.tally.drained
  | .tallyOldest => u 8 s.tally.oldest
  | .tallyCursor => u 8 (s.tallyCursor a)
  | .portRole => u 2 (roleNo (s.wantedRole i))
  | .portWidth => u 1 q.width
  | .portLinkState => u 2 q.link.code
  | .laneMap => u 1 q.laneMap
  | .fecCorrected => u 8 q.corrected
  | .crcReplays => u 8 q.replays
  | .retrainCount => u 4 q.retrains
  | .partnerInfo => some (s.partnerInfo i)
  | .txEq => some (let b := s.blob .txEq i 0 []; if b.isEmpty then trainedTaps i else b)
  | .loftUsed => u 8 (s.usedLoft i)
  | .storeUsed => u 8 (s.usedStore i)
  | .cellarUsed => u 8 (s.usedCellar i)
  | .overdraftBorrowed => u 8 (s.room i).borrowed
  | .quotaRefusals => u 4 (s.room i).refusals
  | .loftSpillCount => u 8 (s.room i).spill
  | .expandStall => u 8 (s.room i).stall
  | .storeQuotaEffective => u 8 (s.room i).effStore
  | .windowPages => u 8 (s.windowPages i j)
  | .classFloorEffective => u 4 (s.pair i j).effFloor
  | .classServed => u 4 (s.pair i j).last
  | .missCount => u 4 (s.pair i j).misses
  | .configStatus => u 2 s.adm.status
  | .configDetail => u 4 s.adm.detail
  | .deliverableBudget => u 4 s.adm.d
  | .floorSum => u 4 (floorSum s.floors)
  | .overdraftFree => u 8 s.reserveFree
  | .budgetDetail => some (leBytes 4 s.adm.store ++ leBytes 4 s.adm.link ++ leBytes 4 s.adm.cellarLimit ++ leBytes 4 (s.power.cut.getD 0))
  | _ => none

/-- Tiers, stairs, bricks, tables and shelves (R157, R158, R186, R207, R226). -/
def State.readB (s : State) (a : Arrival) (e : Ent) (i j : Nat) : Option (List Byte) :=
  let f := s.selShelf a
  let u (n v : Nat) : Option (List Byte) := some (leBytes n v)
  match e with
  | .loftHotCapacity => u 8 s.hotCapacity
  | .loftHotUsed => u 8 (4096 * Tbl.count s.pages fun _ p => p.loft.isSome)
  | .loftQuotaScale => u 2 s.tier.scale
  | .dirtyStored => u 8 s.dirtyStored
  | .landingUsed => u 4 s.landingUsed
  | .cellarReadBacklog => u 8 s.fetchBacklog
  | .pageStatus => let q := s.sessVal a .pageQuery; u 4 (s.pageStatus (pageKey (bitsOf q 63 58) (bitsOf q 45 12)))
  | .stairLookahead => u 1 (if s.stairOff i then s.val .stairLookahead i 0 else (s.stair i).k)
  | .stairPosition => u 1 (s.stair i).position
  | .stairLateCount => u 4 (s.stair i).lateCount
  | .stairLastLateness => u 4 (s.stair i).lastLate
  | .stairStatus => u 1 (s.stairStatus i)
  | .stairStep => some (fit 24 (s.blob .stairStep i j []))
  | .brickMismatches => u 8 s.codec.mismatches
  | .brickRecord => let (k, b) := s.queried a; u 8 (s.recordOf k b)
  | .pageGeneration => u 4 (s.page (s.queried a).1).gen
  | .tableSlotsUsed => u 2 s.codec.slots.length
  | .tableBinding => u 8 (s.tableBinding a)
  | .tableImage => let (room, id) := s.queriedTable a; some (fit 136 ((s.tableOf room id).getD []))
  | .codecLanes => u 4 (s.codecLanes 4 2 * 65536 + s.codecLanes 0 4)
  | .packedLoadStatus => u 8 (s.loadStatus i)
  | .tableBind => u 2 (match Tbl.find s.codec.binds (32 * i + j) with | some slot => 0x8000 + slot | none => 0)
  | .shelfRoom => u 1 f.room
  | .shelfRanges => some (rangeBytes f.ranges)
  | .shelfClass => u 1 f.cls
  | .shelfFlags => u 1 f.flags
  | .shelfDeltaTable => u 1 f.delta
  | .shelfState => u 2 f.code
  | .shelfLastVersion => u 4 ((f.vers.head?.map (·.version)).getD 0)
  | .shelfVersions => some (fit 128 (f.vers.flatMap fun v => leBytes 4 v.version))
  | .shelfResult => some (fit 48 f.result)
  | .shelfDigest => some (fit 48 f.digest)
  | .shelfRecordersFree => u 2 (256 - s.recorders)
  | .unshelveStairsFree => u 1 (64 - s.unshelving)
  | _ => none

/-- Coherence, publication, cores, Store and Cellar (R250, R276, R332, R333, R362). -/
def State.readC (s : State) (a : Arrival) (e : Ent) (i j : Nat) : Option (List Byte) :=
  let ch := s.chan i
  let cc := s.cchan i
  let u (n v : Nat) : Option (List Byte) := some (leBytes n v)
  match e with
  | .dirEntriesUsed => u 4 s.dir.entries.length
  | .dirRecalls => u 8 s.dir.victims
  | .dirLost => u 4 (Tbl.count s.dir.entries fun _ x => decide (x.st = DirMode.lost))
  | .scanPorts => u 4 (s.dir.scans.foldl (fun m c => setBit m c.port true) 0)
  | .pubRegionsUsed => u 2 ((upTo 256).filter s.pubDefined).length
  | .pubVersion => u 4 (s.pub i).current
  | .pubVersions => some (s.pubVersions i)
  | .pubLastStatus => u 4 (Tbl.get s.pubs.last i 0)
  | .viewVersion => u 4 (Tbl.get s.pubs.views (16 * i + j) 0)
  | .viewStatus => u 1 (Tbl.get s.pubs.status (16 * i + j) 0)
  | .coresInService => u 4 s.coresIn
  | .callQueueUsed => u 2 s.callsOpen
  | .progDigest => some (fit 48 (s.blob .progDigest 0 0 []))
  | .progStatus => u 1 (s.progStatus a)
  | .progStoreFree => u 4 s.progFree
  | .callStatus => some (s.callStatus (s.sessVal a .callQuery))
  | .coreLeaseRoom => u 1 (if (s.core i).call.isSome then (s.core i).room.getD 255 else 255)
  | .coreClock => u 2 (s.cyclesOf i / 2)
  | .coreEngines => u 1 (flagBits ((upTo 4).map fun x =>
      !s.isRetired (i / 8) (0x080 + 4 * (i % 8) + x) && !s.underTest (i / 8) (0x080 + 4 * (i % 8) + x)))
  | .coreSteps => u 8 (s.core i).steps
  | .coreOverruns => u 4 (s.core i).overruns
  | .coreColdStarts => u 4 (s.core i).colds
  | .storeSetPoint => u 2 s.store.point
  | .bankMask => some (s.blob .bankMask 0 0 (defaultMasks.flatMap (leBytes 4)))
  | .storeBaysFree => u 8 s.baysFreeAll
  | .rankMigration => some s.migrationBytes
  | .sparesLeft => u 1 ((upTo 4).foldr (fun r n => 4 * n + s.sparesLeft r) 0)
  | .rankMap => some s.rankMapBytes
  | .chState => u 2 ch.mode.code
  | .rankState => u 1 ((s.rankMode (i / 32) (2 * (i % 32))).code + 4 * (s.rankMode (i / 32) (2 * (i % 32) + 1)).code)
  | .chTrained => some (ch.trained.flatMap fun t => leBytes 8 (s.shown t))
  | .chCorrected => u 8 ch.corrected
  | .chUncorrected => u 4 ch.uncorrected
  | .chRhRefreshes => u 4 ch.rhRefreshes
  | .chForcedRefresh => u 4 ch.forced
  | .chTemp => u 4 (unsign 32 (s.packageTemp (i / 4)))
  | .cellarChannels => u 4 (flagBits ((upTo 32).map fun c => decide ((s.cchan c).mode = .serving) || decide ((s.cchan c).mode = .rebuilding)))
  | .cellarDiesRetired => u 2 (s.retired.filter fun x => decide (0x1C0 ≤ x % 1024) && decide (x % 1024 < 0x200)).length
  | .zoneReady => u 8 s.zoneReady
  | .erasedSuperblocks => u 4 (s.erasedTlc 1 * 65536 + s.erasedTlc 0)
  | .cellarMargin => u 2 s.cellarMargin
  | .wearUsed => u 2 s.wearUsed
  | .cellarProgrammed => u 8 s.cellar.programmed
  | .slotsFree => u 8 s.slotsFree
  | .cchState => u 2 cc.mode.code
  | .cchDies => u 1 cc.dies
  | .cchBadBlocks => u 4 (cc.bad.sum + ((upTo 8).map fun w => (Tbl.get s.cellar.marks (8 * i + w) []).length).sum)
  | .cchCorrected => u 8 cc.corrected
  | .cchRecoveries => u 4 cc.recoveries
  | .cchLost => u 4 cc.lost
  | _ => none

/-- Integrity, Cistern, security and the dictionary's own entries (R385, R406, R434, R458, R462). -/
def State.readD (s : State) (a : Arrival) (e : Ent) (i j : Nat) : Option (List Byte) :=
  let g := s.integ
  let c := s.cistern
  let u (n v : Nat) : Option (List Byte) := some (leBytes n v)
  match e with
  | .scrubProgress => u 4 s.scrubProgress
  | .scrubPasses => u 4 g.passes
  | .storeCorrected => u 8 g.corrected
  | .repeatUsed => u 8 (byRegion fun r => (Tbl.get g.repeats r []).length)
  | .rubbleRows => u 8 (byRegion fun r => (s.rubble r).length)
  | .loftCorrected => u 8 g.loftCorrected
  | .parityErrors => u 8 g.parity
  | .bricksRepaired => u 8 g.repaired
  | .cisternState => u 2 c.code
  | .packVoltage => u 2 (min 65535 c.packMv)
  | .cellVoltages => some (s.cellBytes (·.mv))
  | .cellTemps => some (s.cellBytes fun x => unsign 16 x.temp)
  | .cellCapacitance => some (s.cellBytes (·.cap))
  | .cellEsr => some (s.cellBytes (·.esr))
  | .packEnergy => u 4 c.energy
  | .dirtyCeiling => u 8 c.ceiling
  | .ceilingByEnergy => u 8 c.byEnergy
  | .flushEnergy => u 2 c.j
  | .writeThrough => u 1 (bit01 c.writeThrough)
  | .lastCheck => u 8 (s.shown c.lastCheck)
  | .packHealth => u 2 (c.cells.foldl (fun m x => min m x.cap) 655350 / 10)
  | .lastFlush => some s.lastFlush
  | .partNumber => some partNumber
  | .serial => some Config.serial
  | .lifecycle => u 2 s.lifecycle
  | .lcEntriesLeft => u 1 (32 - s.sec.log.length)
  | .sealEpoch => u 1 s.sec.epoch
  | .fwRunning => u 1 (s.firmwareByte s.sec.running)
  | .fwSlots => some (s.sec.slots.flatMap fun x => leBytes 1 x.mode.code ++ leBytes 1 x.svn ++ leBytes 2 0 ++ leBytes 4 x.release)
  | .rollbackCounter => u 1 s.sec.counter
  | .lockState => u 1 s.sec.lockState
  | .alarmResponse => u 2 (s.alarmSet j)
  | .spdmMessage => some ((s.sess a).map (·.spdm) |>.getD [])
  | .spdmVendorId => u 4 Config.vendorId.toNat
  | .roomKeyState => u 2 (s.keyState i)
  | .roomKeyCheck => u 4 (match Tbl.find s.sec.keys i with | some k => keyCheck k | none => 0)
  | .portFunction => if h : j < 32 then some (s.fnBytes (.port ⟨j, h⟩)) else none
  | .coreFunction => if h : j < 32 then some (s.fnBytes (.core ⟨j, h⟩)) else none
  | .roomFunction => if h : j < 64 then some (s.fnBytes (.room ⟨j, h⟩)) else none
  | .stairFunction => if h : j < 256 then some (s.fnBytes (.stair ⟨j, h⟩)) else none
  | .stairFunctionHi => if h : 128 + j < 256 then some (s.fnBytes (.stair ⟨128 + j, h⟩)) else none
  | .scrubFunction => some (s.fnBytes .scrubber)
  | .cellarChannelFunction => if h : j < 32 then some (s.fnBytes (.cellar ⟨j, h⟩)) else none
  | .i3cDynamicAddr => u 1 s.od.i3c.addr
  | .rackMac => u 6 Config.rackMac.toNat
  | .rackNotifyMac => some (fit 6 (s.blob .rackNotifyMac 0 0 []))
  | .odRequests => u 8 s.od.requests
  | .odFramesDiscarded => u 4 s.od.discarded
  | .notifyDropped => u 4 s.od.dropped
  | .odSessions => u 2 s.od.sessions.length
  | _ => none

/-- Starts, self-test, the vault and the board (R480, R501, R514). -/
def State.readE (s : State) (a : Arrival) (e : Ent) (i : Nat) : Option (List Byte) :=
  let v := s.vault
  let u (n w : Nat) : Option (List Byte) := some (leBytes n w)
  match e with
  | .startSeq => u 4 s.startRec.seq
  | .startStepNow => u 1 s.start.step
  | .startOutcome => u 2 s.startRec.outcome
  | .ledgerRecord => some (match s.start.ledger.reverse[s.sessVal a .ledgerCursor]? with | some r => r.bytes | none => leBytes 256 0)
  | .retiredUnits => some s.retiredBytes
  | .failCounts => some s.failBytes
  | .sliceStatus => some s.sliceBytes
  | .sliceRounds => u 4 s.test.rounds
  | .selftestReport => some (s.test.report.flatMap (leBytes 2))
  | .vaultState => u 2 v.mode.code
  | .vaultDigest => some s.vaultDigest
  | .digestExpected => some (fit 48 (s.blob .digestExpected 0 0 []))
  | .compatBand => u 2 s.compatBand
  | .peerStatus => some (s.peerBytes (s.sessVal a .peerQuery))
  | .joinStatus => u 4 v.joinStatus
  | .forwardRecords => u 4 v.records.length
  | .poolPagesHome => u 8 (s.poolHome i)
  | .poolPagesLent => u 8 (s.poolLent i)
  | .discreteInputs => u 2 s.discreteInputs
  | .inputsFaulty => u 1 s.inputsFaulty
  | .inputVoltage => u 2 s.board.vin
  | .auxVoltage => u 2 s.board.aux
  | .dieTempMax => u 4 (unsign 32 s.dieTempMax)
  | .dieTemps => some ((upTo 53).flatMap fun d => leBytes 2 (unsign 16 (s.temp d)))
  | .outputs => u 1 s.outputs
  | _ => none

/-- The present value of an entry (R439): one put together from the state, one of the session, or the value written. -/
def State.present (s : State) (a : Arrival) (e : Ent) (i j : Nat) : List Byte :=
  ((s.readA a e i j).orElse fun _ => (s.readB a e i j).orElse fun _ => (s.readC a e i j).orElse fun _ => (s.readD a e i j).orElse fun _ =>
    s.readE a e i).getD
    (if e.row.session then leBytes e.row.ty.bytes (s.sessVal a e) else s.bytesOf e i j)

/-- A read of an entry (R439); four of them move a cursor (R226, R250, R385, R516). -/
def readEnt (a : Arrival) (e : Ent) (i j : Nat) (s : State) : List Byte × State :=
  match e with
  | .tallyBlock => getTallyBlock a s
  | .rubbleBlock => getRubbleBlock a s
  | .manifestBlock => getManifestBlock a s
  | .crashBlock => getCrashBlock a s
  | _ => (s.present a e i j, s)

end Sys2Proof.Machine
end

