-- ==== Sys2Proof/Machine/Operands.lean ====
section
/-!
DEFINITION. Sys2Proof/Machine/Operands.lean: the frames of the object dictionary as operands (R444, R445): their fields, and the lengths of
values (R438).
-/

namespace Sys2Proof.Machine

/-- A request frame's fields (R444). -/
structure OdFrame where
  op : Nat
  index : Nat
  sub : Nat
  seq : Nat
  payload : List Byte
  deriving DecidableEq, Repr

/-- The frame at the head of what a transport delivered; none where R444 discards it: cut short, LENGTH above 256, a CRC that fails, or an
OPCODE that is no request. `padded` admits zeros to whole slots after it (R84, R453). -/
def frameOf (padded : Bool) (bs : List Byte) : Option OdFrame :=
  let len := ofLe ((bs.drop 4).take 2)
  let op := ofLe (bs.take 1)
  if bs.length < 12 ∨ 256 < len ∨ bs.length < 12 + len ∨ (!padded ∧ bs.length ≠ 12 + len) then none
  else if ofLe ((bs.drop (8 + len)).take 4) ≠ crc32c (bs.take (8 + len)) then none
  else if op < 1 ∨ 6 < op then none
  else some ⟨op, ofLe ((bs.drop 1).take 2), ofLe ((bs.drop 3).take 1), ofLe ((bs.drop 6).take 2), (bs.drop 8).take len⟩

/-- The length of an OCTETS entry whose values have one length alone; the others take up to the length of their row. -/
def fixedLength : Ent → Option Nat
  | .rackNotifyMac => some 6
  | .stairStep => some 24
  | .progDigest => some 48
  | .digestExpected => some 48
  | .poolMembers => some 512
  | .bankMask => some 16
  | .tableLoadImage => some 136
  | .shelfRanges => some 256
  | .roomKeyImport => some 64
  | _ => none

/-- A length that an OCTETS or STRING entry can hold. -/
def octetsFit (e : Ent) (n : Nat) : Bool :=
  match fixedLength e with | some m => decide (n = m) | none => lengthFits e.row n

/-- The entry takes block transfers (R448). -/
def blockEntry (e : Ent) : Bool :=
  match e.row.ty with
  | .octets => !decide (e.row.acc = .ro) | .string => !decide (e.row.acc = .ro) | _ => false

end Sys2Proof.Machine
end

