-- ==== Sys2Proof/Machine/Write.lean ====
section
/-!
DEFINITION. Sys2Proof/Machine/Write.lean: what a write to each entry of the object dictionary does, block transfers, and frames as the
transports deliver them (R439, R444 to R449, R489).
-/

namespace Sys2Proof.Machine

/- ## Writes that have no chapter of their own -/

/-- A per-session value is set (R449). -/
def actSession (rq : Rq) (e : Ent) (v : Nat) : Act := fun s => (rOk, s.setSessVal rq.src e v)

/-- An octets entry of one length. -/
def actOctets (e : Ent) (i j : Nat) (payload : List Byte) : Act := fun s =>
  if octetsFit e payload.length then actSet e i j payload s else (rNo stLength, s)

/-- TX_EQ (R75, R104): 20 bytes within the ranges of the taps, or none, which clears what was written. -/
def actTxEq (port : Nat) (payload : List Byte) : Act := fun s =>
  if payload.length ≠ 20 ∧ !payload.isEmpty then (rNo stLength, s)
  else if payload.isEmpty ∨ tapsLegal payload then (rOk, s.setBlob .txEq port 0 payload)
  else (rNo stRefused, s)

/-- WRITEBACK_IDLE and WRITEBACK_AGE_MAX (R157): the age is at least the idle time. -/
def actWriteBack (e : Ent) (v : Nat) : Act := fun s =>
  let idle := if e = .writebackIdle then v else s.val .writebackIdle 0 0
  let age := if e = .writebackIdle then s.val .writebackAgeMax 0 0 else v
  if age < idle then (rNo stRefused, s) else (rOk, s.setVal e 0 0 v)

/-- A stair's entry (R151): written while the stair is Off. -/
def actStair (e : Ent) (t j : Nat) (payload : List Byte) : Act := fun s =>
  if h : t < 256 then
    if (s.fn (.stair ⟨t, h⟩)).state ≠ .off then (rNo stState, s)
    else if e = .stairRoom ∧ 64 ≤ ofLe payload ∧ ofLe payload ≠ 255 then (rNo stRefused, s)
    else if e = .stairStep then actOctets e t j payload s
    else actSet e t j payload s
  else (rNo stNoEntry, s)

/-- The addresses that I3C reserves among those of R462: each one bit from the broadcast address. -/
def i3cReserved : List Nat := [0x3E, 0x5E, 0x6E, 0x76]

/-- I3C_STATIC_ADDR (R462). -/
def actStaticAddr (v : Nat) : Act := fun s =>
  if v < 0x08 ∨ 0x76 < v ∨ i3cReserved.contains v then (rNo stRefused, s) else (rOk, s.setVal .i3cStaticAddr 0 0 v)

/-- The entries of a MEMBER_TABLE: index within range and rising, reserved bytes zero (R483). -/
def memberTableOk (t : List Byte) : Bool :=
  let entry (i : Nat) : List Byte := (t.drop (64 * i)).take 64
  let idx (i : Nat) : Nat := ofLe ((entry i).take 2)
  let n := t.length / 64
  decide (t.length % 64 = 0) && (upTo n).all fun i =>
    decide (idx i < 4096) && (((entry i).drop 2).take 14).all (· = 0) && (decide (i = 0) || decide (idx (i - 1) < idx i))

/-- POOL_MEMBERS: used entries first (R501). -/
def poolMembersOk (t : List Byte) : Bool :=
  let idx (i : Nat) : Nat := ofLe ((t.drop (2 * i)).take 2)
  (upTo 256).all fun i => (decide (idx i < 4096) || decide (idx i = 65535)) && (decide (i = 0) || decide (idx i = 65535) || decide (idx (i - 1) ≠ 65535))

/-- An entry of the vault's configuration (R482, R490): not while the module is Joining or Joined. -/
def actVault (e : Ent) (i : Nat) (payload : List Byte) : Act := fun s =>
  if s.vault.mode = .joining ∨ s.vault.mode = .joined then (rNo stState, s)
  else if e = .memberTable ∧ !memberTableOk payload then (rNo stRefused, s)
  else if e = .poolMembers ∧ payload.length = 512 ∧ !poolMembersOk payload then (rNo stRefused, s)
  else if e.row.ty = .octets then actOctets e i 0 payload s
  else actSet e i 0 payload s

/-- An act whose exchanges with the outside bring a free value. -/
def actDrawn (act : Nat → Act) : Act := fun s => let (n, s) := s.draw; act n s

/-- HOST_FAILED, and what waited for the port's lines tried again. -/
def actHostGone (v : Nat) : Act := fun s => let (r, s) := actHostFailed v s; (r, s.retryAll)

/-- An act for a room's number. -/
def actRoom (k : Nat) (act : Fin 64 → Act) : Act := fun s => if h : k < 64 then act ⟨k, h⟩ s else (rNo stNoEntry, s)

/- ## The function of an entry (R458) -/

/-- The function an entry switches, if it is one of the function-state entries. -/
def entryFn (e : Ent) (j : Nat) : Option FnId :=
  match e with
  | .portFunction => if h : j < 32 then some (.port ⟨j, h⟩) else none
  | .coreFunction => if h : j < 32 then some (.core ⟨j, h⟩) else none
  | .roomFunction => if h : j < 64 then some (.room ⟨j, h⟩) else none
  | .stairFunction => if h : j < 256 then some (.stair ⟨j, h⟩) else none
  | .stairFunctionHi => if h : 128 + j < 256 then some (.stair ⟨128 + j, h⟩) else none
  | .scrubFunction => some .scrubber
  | .cellarChannelFunction => if h : j < 32 then some (.cellar ⟨j, h⟩) else none
  | _ => none

/- ## The act of each entry -/

/-- What a write does, of the entries in the areas from 0x1000 to 0x4FFF that have a rule of their own. -/
def actLow (rq : Rq) (e : Ent) (i j : Nat) (payload : List Byte) : Option Act :=
  let v := ofLe payload
  match e with
  | .lcAdvance => some (actLcAdvance v)
  | .portRole => some (actPortRole i v)
  | .txEq => some (actTxEq i payload)
  | .i3cStaticAddr => some (actStaticAddr v)
  | .rackNotifyMac => some (actOctets e i j payload)
  | .writebackIdle => some (actWriteBack e v)
  | .writebackAgeMax => some (actWriteBack e v)
  | .stairRoom => some (actStair e i j payload)
  | .stairMode => some (actStair e i j payload)
  | .stairStepCount => some (actStair e i j payload)
  | .stairLookahead => some (actStair e i j payload)
  | .stairLookaheadMax => some (actStair e i j payload)
  | .stairClass => some (actStair e i j payload)
  | .stairTarget => some (actStair e i j payload)
  | .stairWrap => some (actStair e i j payload)
  | .stairStep => some (actStair e i j payload)
  | .shelfRoom => some (actShelfRoom rq.src v)
  | .shelfRanges => some (actShelfRanges rq.src payload)
  | .shelfClass => some (actShelfField rq.src e v)
  | .shelfFlags => some (actShelfField rq.src e v)
  | .shelfDeltaTable => some (actShelfField rq.src e v)
  | .shelfCommand => some (actShelfCommand rq.src payload)
  | .roomErase => some (actRoomErase i v)
  | .configCommit => some (actCommit v)
  | .configDiscard => some (actDiscard v)
  | .packedLoadGo => some (actLoadGo i v)
  | .tableBind => some (actTableBind i j v)
  | .roomKeyGenerate => some (actRoom i fun k => actKeyGenerate k v)
  | .roomKeyImport => some (actRoom i fun k s => actKeyImport k (s.secured rq.src) payload s)
  | _ => none

/-- The same of the areas from 0x5000 to 0xFFFF. -/
def actHigh (rq : Rq) (e : Ent) (i j : Nat) (payload : List Byte) : Option Act :=
  let v := ofLe payload
  match e with
  | .tableLoadImage => some (actTableLoad rq.src payload)
  | .tableFree => some (actTableFree v)
  | .hostFailed => some (actHostGone v)
  | .pubRoom => some (actPubDefine e i v)
  | .pubBase => some (actPubDefine e i v)
  | .pubSize => some (actPubDefine e i v)
  | .pubDelete => some (actPubDelete i v)
  | .viewRegion => some (actViewRegion i j v)
  | .progDigest => some (actOctets e i j payload)
  | .progInstall => some (actProgInstall rq.src v)
  | .progRemove => some (actProgRemove rq.src v)
  | .bankMask => some (actBankMask payload)
  | .checkInterval => some (actCheckEvery v)
  | .checkNow => some (actCheckNow v)
  | .fwStage => some (actFwStage payload)
  | .fwActivate => some (actFwActivate v)
  | .fwCommit => some (actFwCommit v)
  | .fwRestart => some (actFwRestart v)
  | .lockRelease => some (actLockRelease rq.src v)
  | .alarmResponse => some (actAlarmResponse rq.src j v)
  | .spdmMessage => some (State.spdmIn rq payload)
  | .ledgerClearCounts => some (actClearCounts v)
  | .selftestFull => some (actDrawn fun n => actSelftestFull v (Config.selftestFailed n) (Config.selftestUntested n))
  | .benchRestore => some (actDrawn fun n => actBenchRestore v (Config.restorePasses n))
  | .moduleIndex => some (actVault e i payload)
  | .vaultEpoch => some (actVault e i payload)
  | .memberTable => some (actVault e i payload)
  | .digestExpected => some (actVault e i payload)
  | .poolMembers => some (actVault e i payload)
  | .poolStripe => some (actVault e i payload)
  | .poolWindows => some (actVault e i payload)
  | .vaultJoin => some (actDrawn fun n => actVaultJoin v (Config.peerViews n))
  | .vaultLeave => some (actVaultLeave v)
  | .peerFailed => some (actPeerFailed v)
  | .poolGather => some (actPoolGather i v)
  | .powerCap => some (actPowerCap v)
  | .quietEnter => some (actQuietEnter v)
  | .quietExit => some (actQuietExit v)
  | .inputRearm => some (actInputRearm rq.src v)
  | _ => none

/-- What a write to an entry does once it has been admitted (R439). -/
def actOf (rq : Rq) (e : Ent) (i j : Nat) (payload : List Byte) : Act :=
  match entryFn e j with
  | some f => actFunction f (ofLe payload)
  | none =>
    match (actLow rq e i j payload).orElse fun _ => actHigh rq e i j payload with
    | some act => act
    | none =>
      if e.row.session then actSession rq e (ofLe payload)
      else if e.row.staged then actStage e i j payload
      else actSet e i j payload

/- ## Requests to an index and a sub-index -/

/-- A request to no entry (R443). -/
def State.noEntry (s : State) (rq : Rq) (index sub : Nat) : State :=
  if !s.odLive rq.src || (s.classOf rq.src).isNone then s
  else (s.openSess rq.src).odAnswer rq index sub (rNo stNoEntry)

/-- A WRITE request. -/
def State.writeFrame (s : State) (rq : Rq) (index sub : Nat) (payload : List Byte) : State :=
  match Ent.at index sub with
  | none => s.noEntry rq index sub
  | some (e, i, j) => s.odWrite rq e i j payload s.callRooms (actOf rq e i j payload)

/-- WRITE (R439). -/
def execWrite (rq : Rq) (index : BitVec 16) (sub : Byte) (payload : List Byte) (s : State) : Host.Outcome State Fault Refusal :=
  .next (s.writeFrame rq index.toNat sub.toNat payload)

/-- A READ request (R439); its payload is empty. -/
def State.readFrame (s : State) (rq : Rq) (index sub : Nat) (payload : List Byte) : State :=
  match Ent.at index sub with
  | none => s.noEntry rq index sub
  | some (e, i, j) =>
    if !payload.isEmpty then
      if !s.odLive rq.src || (s.classOf rq.src).isNone then s
      else (s.openSess rq.src).odAnswer rq index sub (rNo stLength)
    else s.odRead rq e i j s.callRooms (readEnt rq.src e i j)

/- ## Block transfers (R448) -/

/-- A request on an entry, judged by an act and answered. -/
def State.blockFrame (s : State) (rq : Rq) (index sub : Nat) (act : Ent → Nat → Nat → Act) : State :=
  match Ent.at index sub with
  | none => s.noEntry rq index sub
  | some (e, i, j) =>
    if !s.odLive rq.src || (s.classOf rq.src).isNone then s
    else
      let s := s.openSess rq.src
      let (r, s) := act e i j s
      s.odAnswer rq index sub r

/-- A session's transfer to an entry. -/
def State.transfer (s : State) (a : Arrival) (key : Nat) : Option Transfer := (s.sess a).bind fun x => x.transfers.find? fun t => t.key = key

/-- A session's transfer to an entry given up or done. -/
def State.dropTransfer (s : State) (a : Arrival) (key : Nat) : State :=
  s.updSess a fun x => { x with transfers := x.transfers.filter fun t => decide (t.key ≠ key) }

/-- A session's transfer to an entry replaced. -/
def State.putTransfer (s : State) (a : Arrival) (t : Transfer) : State :=
  (s.dropTransfer a t.key).updSess a fun x => { x with transfers := x.transfers ++ [t] }

/-- Another session transfers to the same entry. -/
def State.transferElsewhere (s : State) (a : Arrival) (key : Nat) : Bool :=
  s.od.sessions.any fun x => decide (x.arr ≠ a) && x.transfers.any fun t => decide (t.key = key)

/-- BLOCK_START: a transfer begins, an earlier one of the session to the entry given up. -/
def actBlockStart (rq : Rq) (payload : List Byte) (e : Ent) (i j : Nat) : Act := fun s =>
  let key := e.row.key i j
  match s.barred rq.src e i j (some 0) s.callRooms with
  | some st => (rNo st, s)
  | none =>
    if !blockEntry e then (rNo stAccess, s)
    else if payload.length ≠ 4 ∨ !octetsFit e (ofLe payload) then (rNo stLength, s)
    else if s.transferElsewhere rq.src key then (rNo stBusy, s)
    else (rOk, s.putTransfer rq.src ⟨key, ofLe payload, [], (rq.seq.toNat + 1) % 65536, s.now⟩)

/-- BLOCK_START as a command. -/
def execBlockStart (rq : Rq) (index : BitVec 16) (sub : Byte) (payload : List Byte) (s : State) : Host.Outcome State Fault Refusal :=
  .next (s.blockFrame rq index.toNat sub.toNat (actBlockStart rq payload))

/-- BLOCK_DATA: bytes appended in order; a gap, or bytes past the total, give the transfer up. -/
def actBlockData (rq : Rq) (payload : List Byte) (e : Ent) (i j : Nat) : Act := fun s =>
  let key := e.row.key i j
  if s.power.keeperDown then (rNo stBusy, s)
  else match s.transfer rq.src key with
  | none => (rNo stBlock, s)
  | some t =>
    if payload.isEmpty then (rNo stLength, s)
    else if rq.seq.toNat ≠ t.nextSeq ∨ t.total < t.got.length + payload.length then (rNo stBlock, s.dropTransfer rq.src key)
    else (rOk, s.putTransfer rq.src { t with got := t.got ++ payload, nextSeq := (t.nextSeq + 1) % 65536, last := s.now })

/-- BLOCK_DATA as a command. -/
def execBlockData (rq : Rq) (index : BitVec 16) (sub : Byte) (payload : List Byte) (s : State) : Host.Outcome State Fault Refusal :=
  .next (s.blockFrame rq index.toNat sub.toNat (actBlockData rq payload))

/-- BLOCK_END: the transfer closes, and the entry's own check decides the status. -/
def actBlockEnd (rq : Rq) (payload : List Byte) (e : Ent) (i j : Nat) : Act := fun s =>
  let key := e.row.key i j
  if s.power.keeperDown then (rNo stBusy, s)
  else match s.transfer rq.src key with
  | none => (rNo stBlock, s)
  | some t =>
    if !payload.isEmpty then (rNo stLength, s)
    else
      let s := s.dropTransfer rq.src key
      if rq.seq.toNat ≠ t.nextSeq ∨ t.got.length < t.total then (rNo stBlock, s)
      else s.judgeWrite rq e i j t.got s.callRooms (actOf rq e i j t.got)

/-- BLOCK_END as a command. -/
def execBlockEnd (rq : Rq) (index : BitVec 16) (sub : Byte) (payload : List Byte) (s : State) : Host.Outcome State Fault Refusal :=
  .next (s.blockFrame rq index.toNat sub.toNat (actBlockEnd rq payload))

/-- BLOCK_READ: up to 256 bytes from an offset. -/
def actBlockRead (rq : Rq) (payload : List Byte) (e : Ent) (i j : Nat) : Act := fun s =>
  if payload.length ≠ 4 then (rNo stLength, s)
  else s.judgeRead rq e i j s.callRooms fun s =>
    let (v, s') := readEnt rq.src e i j s
    ((stOk, (v.drop (ofLe payload)).take 256), s')

/-- BLOCK_READ as a command. -/
def execBlockRead (rq : Rq) (index : BitVec 16) (sub : Byte) (payload : List Byte) (s : State) : Host.Outcome State Fault Refusal :=
  .next (s.blockFrame rq index.toNat sub.toNat (actBlockRead rq payload))

/-- BLOCK_TRANSFER_TIMEOUT: a transfer idle for 5,000,000 courses is given up. -/
def execBlockTransferTimeout (src : Arrival) (index : BitVec 16) (sub : Byte) (s : State) : Host.Outcome State Fault Refusal :=
  let key := index.toNat * 256 + sub.toNat
  .next (match s.transfer src key with
    | some t => if t.last + 5000000 * 4096 ≤ s.now then s.dropTransfer src key else s
    | none => s)

/- ## Sessions (R449, R454) -/

/-- SESSION_IDLE_TIMEOUT: a rack session idle for 30 s ends. -/
def execSessionIdleTimeout (mac : BitVec 48) (s : State) : Host.Outcome State Fault Refusal :=
  .next (match s.sess (.rack mac) with
    | some x => if x.last + 15000000 * 4096 ≤ s.now then s.endSess (.rack mac) else s
    | none => s)

/-- UART_FRAME_GAP: the frame is discarded; while BENCH_EN_N is deasserted the bytes were ignored. -/
def execUartFrameGap (s : State) : Host.Outcome State Fault Refusal :=
  .next (if s.board.bench && s.odLive .uart then s.discardFrame .uart else s)

/- ## Frames as a transport delivers them (R444, R451, R489) -/

/-- A request frame served. -/
def State.serveFrame (s : State) (a : Arrival) (f : OdFrame) : State :=
  let rq : Rq := ⟨a, BitVec.ofNat 16 f.seq⟩
  match f.op with
  | 1 => s.readFrame rq f.index f.sub f.payload
  | 2 => s.writeFrame rq f.index f.sub f.payload
  | 3 => s.blockFrame rq f.index f.sub (actBlockStart rq f.payload)
  | 4 => s.blockFrame rq f.index f.sub (actBlockData rq f.payload)
  | 5 => s.blockFrame rq f.index f.sub (actBlockEnd rq f.payload)
  | _ => s.blockFrame rq f.index f.sub (actBlockRead rq f.payload)

/-- A frame as it arrives, served or discarded. -/
def State.frameIn (s : State) (a : Arrival) (padded : Bool) (bs : List Byte) : State :=
  if !s.odLive a || (s.classOf a).isNone then s
  else match frameOf padded bs with
  | some f => s.serveFrame a f
  | none => s.discardFrame a

/-- Relay (R489): a member's frame served as a request of class Vault, in a session per source module. -/
def execRelay (port : Fin 32) (tag src : BitVec 12) (frame : List Byte) (s : State) : Host.Outcome State Fault Refusal :=
  .next (s.moveIn port tag.toNat src.toNat 12 fun s => s.frameIn (.relay src) true frame)

end Sys2Proof.Machine
end

