-- ==== Sys2Proof/Machine/I3c.lean ====
section
/-!
DEFINITION. Sys2Proof/Machine/I3c.lean: the I3C target: address assignment, common commands, private reads (R449, R452, R510), and the NOTIFY
frames of a destination (R455, R456).
-/

namespace Sys2Proof.Machine

/- ## NOTIFY frames -/

/-- At a send the entries dropped are counted and NOTIFY_DROPPED written, at most once per 64 courses per destination (R456). -/
def State.droppedSaid (s : State) (d : Nat) : State :=
  let q := Tbl.get s.notify d NotifyQueue.init
  if q.dropped = 0 ∨ !s.quiet64 q.reported then s
  else
    let s := s.setNotify (Tbl.put s.notify d { q with dropped := 0, reported := some s.now })
    (s.setOd { s.od with dropped := s.od.dropped + q.dropped }).raise
      { code := 0x1111, sev := 2, unit := srcKeeper, args := leBytes 1 d ++ leBytes 4 q.dropped }

/-- The next NOTIFY frame of a destination, up to 8 entries, its SEQUENCE counting (R455); none with an empty queue. -/
def State.takeNotify (s : State) (d : Nat) : Option (List Byte) × State :=
  let q := Tbl.get s.notify d NotifyQueue.init
  if q.queue.isEmpty then (none, s)
  else
    let f := odFrame 0x40 0x1200 0 q.seq ((q.queue.take 8).flatMap TallyEntry.bytes)
    let s := s.setNotify (Tbl.put s.notify d { q with queue := q.queue.drop 8, seq := (q.seq + 1) % 65536 })
    (some f, s.droppedSaid d)

/- ## The I3C target -/

/-- The I3C target changed. -/
def State.updI3c (s : State) (f : I3c → I3c) : State := s.setOd { s.od with i3c := f s.od.i3c }

/-- The target has a dynamic address and aux power. -/
def State.i3cOn (s : State) : Bool := s.auxIn && decide (s.od.i3c.addr ≠ 0)

/-- A dynamic address taken by a target that has none: a session opens (R449). -/
def State.i3cAddress (s : State) (addr : Nat) : State :=
  if !s.auxIn ∨ s.od.i3c.addr ≠ 0 then s else (s.updI3c fun c => { c with addr := addr }).openSess .i3c

/-- ENTDAA. -/
def execEntdaa (addr : BitVec 7) (s : State) : Host.Outcome State Fault Refusal := .next (s.i3cAddress addr.toNat)

/-- SETDASA: by the static address. -/
def execSetdasa (target addr : BitVec 7) (s : State) : Host.Outcome State Fault Refusal :=
  .next (if target.toNat = s.val .i3cStaticAddr 0 0 then s.i3cAddress addr.toNat else s)

/-- RSTDAA: the address is given up and the session ends. -/
def execRstdaa (s : State) : Host.Outcome State Fault Refusal :=
  .next (if s.auxIn then (s.updI3c fun c => { c with addr := 0 }).endSess .i3c else s)

/-- ENEC: bit 0 enables in-band interrupts. -/
def execEnec (events : Byte) (s : State) : Host.Outcome State Fault Refusal :=
  .next (if s.auxIn && events.getLsbD 0 then s.updI3c fun c => { c with irq := true } else s)

/-- DISEC: bit 0 disables them. -/
def execDisec (events : Byte) (s : State) : Host.Outcome State Fault Refusal :=
  .next (if s.auxIn && events.getLsbD 0 then s.updI3c fun c => { c with irq := false } else s)

/-- What a common command reads from the target, the most significant byte first. -/
def State.i3cReads (s : State) (n v : Nat) : State := if s.i3cOn then s.send (.i3c (leBytes n v).reverse) else s

/-- GETPID. -/
def execGetpid (s : State) : Host.Outcome State Fault Refusal := .next (s.i3cReads 6 Config.i3cPid.toNat)

/-- GETBCR. -/
def execGetbcr (s : State) : Host.Outcome State Fault Refusal := .next (s.i3cReads 1 Config.i3cBcr.toNat)

/-- GETDCR. -/
def execGetdcr (s : State) : Host.Outcome State Fault Refusal := .next (s.i3cReads 1 Config.i3cDcr.toNat)

/-- GETMWL. -/
def execGetmwl (s : State) : Host.Outcome State Fault Refusal := .next (s.i3cReads 2 s.od.i3c.mwl)

/-- SETMWL: up to the 268 bytes the target can take. -/
def execSetmwl (len : BitVec 16) (s : State) : Host.Outcome State Fault Refusal :=
  .next (if s.auxIn then s.updI3c fun c => { c with mwl := min 268 len.toNat } else s)

/-- GETMRL: the length, then the one byte that an interrupt carries. -/
def execGetmrl (s : State) : Host.Outcome State Fault Refusal := .next (s.i3cReads 3 (s.od.i3c.mrl * 256 + 1))

/-- SETMRL. -/
def execSetmrl (len : BitVec 16) (s : State) : Host.Outcome State Fault Refusal :=
  .next (if s.auxIn then s.updI3c fun c => { c with mrl := min 268 len.toNat } else s)

/-- GETSTATUS: a status whose layout R452 leaves open; it tells an input PRESENT_N that is deasserted (R510) and whether frames wait. -/
def execGetstatus (s : State) : Host.Outcome State Fault Refusal :=
  let waits := !s.od.i3c.waiting.isEmpty || !(Tbl.get s.notify 0x40 NotifyQueue.init).queue.isEmpty
  .next (s.i3cReads 2 (Config.i3cStatus (s.input 3).taken waits).toNat)

/-- RSTACT: the action that the next reset pattern on the bus is to have. -/
def execRstact (action : Byte) (s : State) : Host.Outcome State Fault Refusal :=
  .next (if s.auxIn then s.updI3c fun c => { c with action := action.toNat } else s)

/-- The next frame a private read returns: a response, else a notification, else nothing; nothing while held in reset (R510). -/
def State.i3cNext (s : State) : List Byte × State :=
  if s.inReset then ([], s)
  else match s.od.i3c.waiting with
  | f :: rest => (f, s.updI3c fun c => { c with waiting := rest })
  | [] => let (f, s) := s.takeNotify 0x40; (f.getD [], s)

/-- PRIVATE_READ: up to the maximum read length of the frame. -/
def execPrivateRead (s : State) : Host.Outcome State Fault Refusal :=
  if !s.i3cOn then .next s
  else
    let (f, t) := s.i3cNext
    .next (t.send (.i3c (f.take s.od.i3c.mrl)))

end Sys2Proof.Machine
end

