-- ==== Sys2Proof/Machine/Flit.lean ====
section
/-!
DEFINITION. Sys2Proof/Machine/Flit.lean: a flit received (R79 to R82, R100), the messages its slots carry (R83 to R85, R489), their credits
(R86, R87, R98, R122) and the protocol violations (R88, R102).
-/

namespace Sys2Proof.Machine

/- ## Credits (R86, R87) -/

/-- Data slots that a message announced, come or to come. -/
def Msg.slots (m : Msg) : Nat := m.data.length / 16 + m.need

/-- The credits a message takes, by type code (R84, R86): `slots` of data. One MGT credit covers a whole message. -/
def creditCost (op slots : Nat) : List (Nat × Nat) :=
  if op = 1 ∨ op = 2 ∨ op = 0x30 ∨ op = 0x31 then [(0, 1)]
  else if op = 3 ∨ op = 4 ∨ op = 0x10 ∨ op = 0x28 then [(1, 1), (2, slots)]
  else if op = 8 then [(3, 1)]
  else if op = 0x3D then if slots = 0 then [(4, 1)] else [(5, 1), (6, slots)]
  else if op = 0x18 ∨ op = 0x19 ∨ op = 0x20 then [(7, 1)]
  else []

/-- The partner holds the credits of a message (R102). -/
def State.paid (s : State) (p : Nat) (cost : List (Nat × Nat)) : Bool := cost.all fun c => decide (c.2 ≤ Tbl.get (s.port p).rx c.1 0)

/-- A message's credits taken from those the partner holds. -/
def State.takeCredits (s : State) (p : Nat) (cost : List (Nat × Nat)) : State :=
  s.updPort p fun q => { q with rx := cost.foldl (fun t c => Tbl.upd t c.1 0 (· - c.2)) q.rx }

/-- Requests held at the link layer for their pair's share (R122): the slots they keep, by type. -/
def State.queuedSlots (s : State) (p t : Nat) : Nat :=
  let l := s.reqs.opened.filter fun r => decide (r.port = p) && decide (r.why = .share)
  (l.map fun r => match r.op with
    | .rd => costOf (creditCost 1 0) t | .own => costOf (creditCost 2 0) t
    | .wr => costOf (creditCost 3 4) t | .mask => costOf (creditCost 4 4) t).sum

/-- Rooms reachable through a port. -/
def State.roomsThrough (s : State) (p : Nat) : List Nat :=
  (upTo 64).filter fun k => s.roomOn k && (decide (s.roleOf p = .companion) || s.owns p k)

/-- REQ and RWD credits are withheld (R98, R122): every room reachable is held by the regulator; or the port cannot Hold and the landing is
full or durable writes are above the ceiling. DESIGN CHOICE: a room counts as held while any of its pairs has a request that waits for its share. -/
def State.withholds (s : State) (p : Nat) : Bool :=
  let l := s.roomsThrough p
  let held (k : Nat) : Bool := s.reqs.opened.any fun r => decide (r.room = k) && decide (r.why = .share)
  (!l.isEmpty && l.all held) || (!s.holdCapable p && (s.landingFull || !s.fits 264))

/-- Credits whose slots are free again are returned, each once (R86). -/
def State.returnCredits (s : State) (p : Nat) : State :=
  if !s.isUp p then s
  else
    let back (s : State) (g : Nat × Nat) : State :=
      let q := s.port p
      let used := (q.announced.map fun m => costOf (creditCost m.op m.slots) g.1).sum + s.queuedSlots p g.1
      let have_ := Tbl.get q.rx g.1 0
      if (g.1 < 3 ∧ s.withholds p = true) ∨ g.2 - used ≤ have_ then s
      else (s.setPort p { q with rx := Tbl.put q.rx g.1 (g.2 - used), give := Tbl.upd q.give g.1 0 (· + (g.2 - used - have_)) }).send (.credit p g.1 (g.2 - used - have_))
    grants.foldl back s

/-- Credits that a flit returns to the module (R80); more than it has spent is a violation (R102). -/
def State.creditsIn (s : State) (p type count : Nat) : State :=
  if count = 0 ∨ !s.isUp p then s
  else if Tbl.get (s.port p).spent type 0 < count then s.violation p 0 0 3
  else s.updPort p fun q => { q with spent := Tbl.upd q.spent type 0 (· - count) }

/- ## Messages taken -/

/-- The state a command leaves. -/
def State.after (s : State) (o : Host.Outcome State Fault Refusal) : State := match o with | .next t => t | _ => s

/-- A message of object-dictionary frames (R451): answered at link level, then served. -/
def State.odMessage (s : State) (p : Fin 32) (tag : Nat) (data : List Byte) : State :=
  if s.power.keeperDown || !s.odLive (.port p) then s.respond p tag 7 none 0
  else if (frameOf true data).isNone then (s.respond p tag 4 none 0).discardFrame (.port p)
  else (s.respond p tag 0 none 0).frameIn (.port p) true data

/-- A TimeBeacon (R84): a request carries t1, a reply t2 and t3; t1 and t4 of a reply are this module's own stamps. -/
def State.beaconMessage (s : State) (p : Fin 32) (arg : Nat) (data : List Byte) : State :=
  let a : Word := BitVec.ofNat 64 (ofLe (data.take 8))
  let b : Word := BitVec.ofNat 64 (ofLe ((data.drop 8).take 8))
  let reply := decide (bitsOf arg 63 62 = 1)
  let sent : Word := BitVec.ofNat 64 (s.shown (Tbl.get s.time.beaconSent p 0))
  let x : Beacon := ⟨reply, decide (bitsOf arg 59 57 = 1), BitVec.ofNat 8 (bitsOf arg 61 60), if reply then sent else a, if reply then a else b,
    if reply then b else 0, BitVec.ofNat 64 (s.shown s.now)⟩
  if bitsOf arg 63 62 ≤ 1 then s.after (execTimeBeacon p x s) else s

/-- The member a PageMove comes from (R489). Where its header does not name it: a base's own kinds come from the page's base, an ack and an
answer to a base from the target of the move, and page data from the home, for which the port's partner stands. -/
def State.moveSrc (s : State) (p kind subject k : Nat) : Nat :=
  let base := s.baseModule k
  let target := ((Tbl.find s.vault.records k).bind (·.target)).getD base
  if kind = 1 ∨ 11 ≤ kind then subject
  else if kind = 6 then target
  else if kind = 9 ∨ kind = 10 then (if s.basedHere k then target else base)
  else if 3 ≤ kind ∧ kind ≤ 5 then (match (s.port p).partner with | some x => x.modIdx.toNat | none => base)
  else base

/-- A PageMove (R489), for this module or, as any that is not of a kind the spec gives, DENIED. -/
def State.moveMessage (s : State) (p : Fin 32) (m : Msg) : State :=
  let kind := bitsOf m.arg 51 48
  let page : BitVec 34 := BitVec.ofNat 34 (m.addr / 64)
  if h : m.room < 64 then
    let room : Fin 64 := ⟨m.room, h⟩
    let tag : BitVec 12 := BitVec.ofNat 12 m.tag
    let src : BitVec 12 := BitVec.ofNat 12 (s.moveSrc p kind (bitsOf m.arg 47 36) (pageKey room page.toNat))
    let cause : Byte := BitVec.ofNat 8 (bitsOf m.arg 35 28)
    let stamp : Word := BitVec.ofNat 64 (ofLe (m.data.take 8))
    if bitsOf m.arg 63 52 ≠ s.ownIndex then s.respond p m.tag 4 none 0
    else match kind with
    | 1 => s.after (execMoveReq p tag src room page s)
    | 2 => s.after (execMoveOrder p tag src room page (BitVec.ofNat 12 (bitsOf m.arg 47 36)) s)
    | 3 => s.after (execMoveData p tag src room page (BitVec.ofNat 32 m.arg) m.data s)
    | 4 => s.after (execMoveEmpty p tag src room page s)
    | 5 => s.after (execMoveSoon p tag src room page stamp s)
    | 6 => s.after (execMoveAck p tag src room page stamp s)
    | 7 => s.after (execMoveRelease p tag src room page (decide (cause = 0)) s)
    | 8 => s.after (execMoveDefer p tag src room page cause stamp s)
    | 9 => s.after (execMoveRefused p tag src room page cause s)
    | 10 => s.after (execMoveQuery p tag src room page s)
    | 11 => s.after (execAlive p tag src stamp s)
    | 12 => s.after (execRelay p tag src m.data s)
    | _ => s.respond p m.tag 4 none 0
  else s

/-- A response taken (R94, R451, R489): of a recall, of an own OdWrite, or of a PageMove, which BUSY sends again after 64 courses. -/
def State.responseIn (s : State) (p : Fin 32) (code tag : Nat) (data : List Byte) : State :=
  let q := s.port p
  if (s.dir.recalls.any fun r => decide (r.port = p.val) && decide (r.tag = tag)) || !(q.odOpen.contains tag || (Tbl.find q.moveOpen tag).isSome) then
    s.after (execBackInvAnswer p (BitVec.ofNat 12 tag) (if data.isEmpty then none else some (BitVec.ofNat 512 (ofLe data))) s)
  else if q.odOpen.contains tag then s.updPort p fun q => { q with odOpen := q.odOpen.erase tag }
  else
    let again := match Tbl.find q.moveOpen tag with | some m => if code = 7 then [(s.now + 64 * 4096, m)] else [] | none => []
    (s.updPort p fun q => { q with moveOpen := Tbl.del q.moveOpen tag }).setVault { s.vault with again := s.vault.again ++ again }

/-- A complete message carried out. -/
def State.deliver (s : State) (p : Fin 32) (m : Msg) : State :=
  let tag : BitVec 12 := BitVec.ofNat 12 m.tag
  let line : BitVec 40 := BitVec.ofNat 40 m.addr
  let data : BitVec 512 := BitVec.ofNat 512 (ofLe m.data)
  let region : Byte := BitVec.ofNat 8 (bitsOf m.arg 63 56)
  let version : BitVec 32 := BitVec.ofNat 32 (bitsOf m.arg 55 24)
  if h : m.room < 64 ∧ m.void = false then
    let room : Fin 64 := ⟨m.room, h.1⟩
    match m.op with
    | 0x01 => s.after (execRdLine p tag room line s)
    | 0x02 => s.after (execRdOwn p tag room line s)
    | 0x03 => s.after (execWrLine p tag room line (bitOf m.arg 63) ⟨data, false⟩ s)
    | 0x04 => s.after (execWrMask p tag room line (BitVec.ofNat 64 m.arg) ⟨data, false⟩ s)
    | 0x10 => s.after (execCall p tag room line (BitVec.ofNat 64 m.arg) m.data s)
    | 0x18 => s.odMessage p m.tag m.data
    | 0x19 => s.odMessage p m.tag m.data
    | 0x20 => s.beaconMessage p m.arg m.data
    | 0x28 => s.moveMessage p m
    | 0x30 => s.after (execPublish p tag room line region version s)
    | 0x31 => s.after (execOpenView p tag room line region version (bitOf m.arg 23) s)
    | 0x3D => s.responseIn p m.arg m.tag m.data
    | _ => s
  else s

/- ## Slots (R82 to R85) -/

/-- The data slots a header announces; those of a frame are told by its LENGTH, so one at first. -/
def dataSlots (op arg : Nat) : Nat :=
  if op = 3 ∨ op = 4 then 4
  else if op = 0x10 then bitsOf arg 9 5
  else if op = 0x18 ∨ op = 0x19 ∨ op = 0x20 then 1
  else if op = 0x28 then
    let kind := bitsOf arg 51 48
    if kind = 3 then 8 + 2 * bitsOf arg 47 40
    else if kind = 5 ∨ kind = 6 ∨ kind = 8 ∨ kind = 11 ∨ kind = 12 then 1 else 0
  else 0

/-- A message whose data slots are told by the LENGTH of the frame that it carries (R84, R444). -/
def Msg.framed (m : Msg) : Bool := decide (m.op = 0x18) || decide (m.op = 0x19) || (decide (m.op = 0x28) && decide (bitsOf m.arg 51 48 = 12))

/-- The messages at the head of the queue whose data are complete, carried out in the order of their headers. -/
def State.deliverHeads (s : State) (p : Fin 32) : Nat → State
  | 0 => s
  | n + 1 =>
    match (s.port p).announced with
    | m :: rest => if m.need = 0 then ((s.updPort p fun q => { q with announced := rest }).deliver p m).deliverHeads p n else s
    | [] => s

/-- A message announced or, without data, carried out; a line read behind announced writes of its line keeps its place (R90). -/
def State.announce (s : State) (p : Fin 32) (m : Msg) : State :=
  let l := (s.port p).announced
  let behind := (decide (m.op = 1) || decide (m.op = 2))
    && !m.void && l.any fun x => !x.void && (decide (x.op = 3) || decide (x.op = 4)) && decide (x.room = m.room) && decide (x.addr = m.addr)
  if m.need = 0 && !behind then s.deliver p m else s.updPort p fun q => { q with announced := l ++ [m] }

/-- A message that is to be sent data is checked against the 512 slots of R82. -/
def State.overlong (s : State) (p : Nat) (m : Msg) : Bool :=
  decide (m.need ≠ 0) && decide (512 < ((s.port p).announced.map (·.need)).sum)

/-- A message at its header: framing (R82), credits (R86), then the opcode, the role and the TAG (R88). Of one turned away the data slots keep
their credits until they come. -/
def State.headerIn (s : State) (p : Fin 32) (m : Msg) : State :=
  let cost := creditCost m.op m.need
  let known := !cost.isEmpty
  let lines := m.op = 1 ∨ m.op = 2 ∨ m.op = 3 ∨ m.op = 4 ∨ m.op = 0x10 ∨ m.op = 0x30 ∨ m.op = 0x31
  let peerOnly := m.op = 0x20 ∨ m.op = 0x28
  let used := decide (m.op ≠ 0x3D) && decide (m.op ≠ 0x20)
    && (s.tagOpen p m.tag || (s.port p).announced.any fun x => !x.void && decide (x.op ≠ 0x3D) && decide (x.op ≠ 0x20) && decide (x.tag = m.tag))
  if s.overlong p m then s.violation p m.op m.tag 2
  else if !s.paid p cost then s.violation p m.op m.tag 1
  else
    let s := s.takeCredits p cost
    if !known || used then ((s.respond p m.tag 4 none 0).raise (protocolEv p m.op m.tag 1)).announce p { m with void := true }
    else if (peerOnly ∧ s.roleOf p ≠ .peer) ∨ (lines ∧ s.roleOf p = .peer) then (s.respond p m.tag 4 none 0).announce p { m with void := true }
    else s.announce p m

/-- An entry of a response slot (R85): its TAG must name an outstanding request (R102). -/
def State.respHeader (s : State) (p : Fin 32) (code tag : Nat) (data : Bool) : State :=
  let q := s.port p
  let known := (s.dir.recalls.any fun r => decide (r.port = p.val) && decide (r.tag = tag)) || q.odOpen.contains tag
    || (Tbl.find q.moveOpen tag).isSome
  if !s.isUp p then s
  else if !known then s.violation p 0x3D tag 4
  else s.headerIn p ⟨0x3D, 0, tag, 0, code, [], if data then 4 else 0, false⟩

/-- A header slot. -/
def State.headerSlot (s : State) (p : Fin 32) (bs : List Byte) : State :=
  let w0 := ofLe (bs.take 8)
  let w1 := ofLe ((bs.drop 8).take 8)
  let op := bitsOf w0 63 58
  if op = 0 then s
  else if op = 0x3D then s.respHeader p (bitsOf w0 57 54) (bitsOf w0 53 42) (bitOf w0 41)
  else if op = 0x3E then
    let es := [bitsOf w0 55 28, bitsOf w0 27 0, bitsOf w1 63 36, bitsOf w1 35 8].take (bitsOf w0 57 56 + 1)
    es.foldl (fun s e => s.respHeader p (bitsOf e 27 24) (bitsOf e 23 12) (bitOf e 11)) s
  else s.headerIn p ⟨op, bitsOf w0 57 52, bitsOf w0 51 40, bitsOf w0 39 0, w1, [], dataSlots op w1, false⟩

/-- A data slot goes to the first message that still announces one; with none it is a framing error (R82). The first slot of a frame tells how
many follow. -/
def State.dataSlot (s : State) (p : Fin 32) (bs : List Byte) : State :=
  let l := (s.port p).announced
  match l.find? fun m => decide (m.need ≠ 0) with
  | none => s.violation p 0 0 2
  | some m =>
    let len := ofLe ((bs.drop 4).take 2)
    let more := if m.framed && m.data.isEmpty then min 17 (ceilDiv (12 + len) 16) - 1 else 0
    let cost := if m.op = 0x28 then [(2, more)] else []
    if !s.paid p cost then s.violation p m.op m.tag 1
    else
      let m' := { m with data := m.data ++ bs, need := m.need - 1 + more }
      ((s.takeCredits p cost).updPort p fun q => { q with announced := l.takeWhile (fun x => decide (x.need = 0)) ++ m' :: (l.dropWhile fun x => decide (x.need = 0)).drop 1 }).deliverHeads
        p (l.length + 1)

/-- The slots of a PAYLOAD flit in order, until one takes the port Down. -/
def State.takeSlots (s : State) (p : Fin 32) (map : Nat) (body : List Byte) : State :=
  (upTo 14).foldl (fun s i =>
    let bs := (body.drop (16 * i)).take 16
    if !s.isUp p then s else if bitOf map i then s.headerSlot p bs else s.dataSlot p bs) s

/- ## Flits (R79 to R81) -/

/-- The flit is good (R81): corrected where FEC found errors, and its CRC-64 checks. -/
def flitGood (flit : List Byte) (fecOk : Bool) : Bool :=
  fecOk && decide (flit.length = 256)
    && decide (plainCrc 64 0x42F0E1EBA9EA3693 (2 ^ 64 - 1) (flit.take 232) = ofLe ((flit.drop 232).take 8))

/-- The lane that byte `i` of a flit came on (R76, R79). -/
def laneOfByte (q : Port) (i : Nat) : Nat :=
  let w := max 1 q.width
  let j := if 128 ≤ q.laneMap then w - 1 - i % w else i % w
  (if w = 2 then 2 * (q.laneMap % 8) else if w = 1 then q.laneMap % 8 else 0) + j

/-- Corrected bytes counted by lane over the last 1,000 courses (R100). -/
def State.fecCounted (s : State) (p : Nat) (corrected : List Byte) : State :=
  s.updPort p fun q =>
    let old := Tbl.keep q.fec fun k _ => decide (s.time.course < k / 4 + 1000)
    { q with corrected := q.corrected + corrected.length,
             fec := corrected.foldl (fun t b => Tbl.upd t (4 * s.time.course + laneOfByte q b.toNat) 0 (· + 1)) old }

/-- A flit discarded and answered with NACK (R81); the eighth in a row sends the port to Retrain. -/
def State.nackFlit (s : State) (p : Nat) : State :=
  let q := s.port p
  let s := (s.setPort p { q with replays := q.replays + 1, nackSent := q.nackSent + 1, nackDue := true }).send (.nack p ((q.rxSeq + 4095) % 4096))
  if 8 ≤ q.nackSent + 1 then s.startRetrain p 0 else s

/-- ACK_SEQ taken (R80, R81). -/
def State.ackIn (s : State) (p ack : Nat) : State :=
  s.updPort p fun q => q.ackIn ack

/-- The credits of a framing word taken (R80). -/
def State.framingCredits (s : State) (p w : Nat) : State :=
  (s.creditsIn p (bitsOf w 21 19) (bitsOf w 18 11)).creditsIn p (bitsOf w 10 8) (bitsOf w 7 0)

/-- FLIT_RECEIVED (R80, R81): on an Up port; a reserved FLIT_TYPE is passed over. -/
def execFlitReceived (port : Fin 32) (flit : List Byte) (corrected : List Byte) (fecOk : Bool) (s : State) :
    Host.Outcome State Fault Refusal :=
  if !s.isUp port then .next s
  else
    let s := s.fecCounted port corrected
    let w := ofLe (flit.take 8)
    if !flitGood flit fecOk then .next (s.nackFlit port)
    else match bitsOf w 63 60 with
    | 0 =>
      if bitsOf w 59 48 ≠ (s.port port).rxSeq then .next (s.nackFlit port)
      else
        let s := ((s.updPort port fun q => { q with rxSeq := (q.rxSeq + 1) % 4096, nackSent := 0, ackDue := true }).ackIn port (bitsOf w 47 36)).framingCredits port w
        .next ((s.takeSlots port (bitsOf w 35 22) ((flit.drop 8).take 224)).returnCredits port)
    | 1 => .next ((s.ackIn port (bitsOf w 47 36)).framingCredits port w)
    | 2 => .next ((s.framingCredits port w).nacked port (bitsOf w 47 36))
    | 3 => .next (s.startRetrain port 4)
    | _ => .next s

end Sys2Proof.Machine
end

