-- ==== Sys2Proof/Machine/Boundary.lean ====
section
/-!
DEFINITION. Sys2Proof/Machine/Boundary.lean: the course boundary (R45, R48): the readings that come with it, the governor (R38), throttling (R27), and
every per-course decision in turn.
-/

namespace Sys2Proof.Machine

/- ## Readings (R41, R388, R514) -/

/-- The self-test slice that runs is of a kind (R476). -/
def State.slicing (s : State) (kind : Nat) : Option Slice :=
  match s.test.running with | some (x, _) => if x.kind = kind then some x else none | none => none

/-- Die temperatures read; those of a region whose sensors a slice tests stand (R476). -/
def State.diesRead (s : State) (temps : List (BitVec 16)) : List Int :=
  let held (d : Nat) : Bool := match s.slicing 9 with | some x => (dieRegions d).contains x.region | none => false
  (upTo 53).map fun d => match temps[d]? with | some t => if held d then s.temp d else t.toInt | none => s.temp d

/-- The board's readings: supplies, temperatures, and how long each die has stood at its limit (R18, R27). -/
def State.boardRead (s : State) (env : Env) : State :=
  let temps := s.diesRead env.dieTemps
  let hot : Tbl Nat := (upTo 53).foldl (fun t d =>
    if dieLimit d ≤ temps.getD d 0 then Tbl.put t d (Tbl.get s.board.hot d 0 + 1) else Tbl.del t d) s.board.hot
  let aux := env.aux.toNat
  let auxLost := s.board.auxLost && !(decide (3135 ≤ aux) && decide (aux ≤ 3465))
  s.setBoard { s.board with vin := env.vin.toNat, aux := aux, auxLost := auxLost, temps := temps, hot := hot }

/-- The readings of a boundary. In Off and Sealed a cell below 2.40 V ends the monitor's watch (R397, R432). -/
def State.readings (s : State) (env : Env) : State :=
  let s := s.boardRead env
  let s := s.updSec fun x => { x with tripped := env.sensors.toNat }
  let env := if (s.slicing 10).isSome then { env with cellMv := [], cellTemps := [] } else env
  if s.dark then
    let low := env.cellMv.any fun v => decide (v.toNat < 2400)
    let s := s.updCistern fun c => { c with cells := eachCell (fun x (v : BitVec 16) => { x with mv := v.toNat }) c.cells env.cellMv }
    if low then s.updSec fun x => { x with unwatched := true } else s
  else
    let s := s.updPower fun p => { p with input := env.power.toNat, demand := env.demand.toNat }
    if s.power.mode = .brace ∨ s.power.mode = .flush then s else s.cisternBoundary env

/- ## The governor (R38) and throttling (R27) -/

/-- Host and Peer ports of a width retrain for the governor's port step (R38). -/
def State.retrainAt (s : State) (width : Nat) : State :=
  (upTo 32).foldl (fun s p =>
    if s.isUp p ∧ (s.port p).width = width ∧ (s.roleOf p = .host ∨ s.roleOf p = .peer) then s.startRetrain p 2 else s) s

/-- One step taken, in the order of R38. -/
def State.governUp (s : State) : State :=
  let p := s.power
  if p.core < 6 then s.setPower { p with core := p.core + 1 }
  else if p.store < 2 then s.setPower { p with store := p.store + 1 }
  else if !p.x2 then (s.setPower { p with x2 := true }).retrainAt 4
  else s.setPower { p with cut := some (p.cut.getD 0 + Config.energyCut (p.demand - p.cap)) }

/-- One step undone, in the reverse order. -/
def State.governDown (s : State) : State :=
  let p := s.power
  if p.cut.isSome then s.setPower { p with cut := none }
  else if p.x2 then (s.setPower { p with x2 := false }).retrainAt 2
  else if p.store ≠ 0 then s.setPower { p with store := p.store - 1 }
  else if p.core ≠ 0 then s.setPower { p with core := p.core - 1 }
  else s

/-- GOVERNOR_STEP (R35, R38): at most one step a course. The cap is the one that R47 lets count. -/
def State.govern (s : State) : State :=
  let s := if s.power.capAt ≤ s.now then s.updPower fun p => { p with cap := s.val .powerCap 0 0 } else s
  let p := s.power
  if p.cap < p.demand then (s.setPower { p with mode := .capped, calmRun := 0 }).governUp
  else if 100 * p.demand < 95 * p.cap then
    let s := s.setPower { p with calmRun := p.calmRun + 1 }
    if 1000 ≤ p.calmRun + 1 then s.governDown else s
  else s.setPower { p with calmRun := 0 }

/-- THERMAL_THROTTLE (R27, R40): the cores of a throttled region step down 0.1 GHz a course, and up again once it is not;
they step before the module does, within their own share. -/
def State.throttleCores (s : State) : State :=
  let p := s.power
  s.setPower { p with regionSteps := (upTo 4).foldl (fun t r =>
    let n := Tbl.get t r 0
    if s.throttled r then (if p.core + n < 6 then Tbl.put t r (n + 1) else t)
    else if n ≤ 1 then Tbl.del t r else Tbl.put t r (n - 1)) p.regionSteps }

/-- What Cistern charging draws, in mW (R39, R389). -/
def State.chargeLoad (s : State) : Nat :=
  if s.cistern.mode ≠ .charging then 0 else if s.cistern.packMv < 40000 then s.cistern.packMv * 3 / 2 else 60000

/-- A region's share of the budget before any is lent, in mW (R40): a quarter of the cap after the module-wide loads. -/
def State.quarterShare (s : State) : Nat :=
  (1000 * s.power.cap - (s.chargeLoad + Config.centreLoad + Config.keeperLoad)) / 4

/-- What a region would draw in the course that begins, the steps it has taken counted (R40). -/
def State.regionWants (s : State) (r : Nat) : Nat :=
  Config.regionDemand s.time.course r (s.power.core + Tbl.get s.power.regionSteps r 0)

/-- What is left over by regions that want less than a quarter goes to the others, DESIGN CHOICE: in region order, each up to its want; a
throttled region keeps within its own quarter (R40). -/
def lendShares (quarter : Nat) (hot : Nat → Bool) (want : Nat → Nat) : Nat → List Nat → List Nat
  | _, [] => []
  | pool, r :: rs =>
    let more := if hot r then 0 else min pool (want r - quarter)
    (min quarter (want r) + more) :: lendShares quarter hot want (pool - more) rs

/-- The shares of the course that begins (R40). -/
def State.divideShares (s : State) : State :=
  let q := s.quarterShare
  let pool := ((upTo 4).map fun r => q - s.regionWants r).sum
  s.setPower { s.power with shares := lendShares q s.throttled s.regionWants pool (upTo 4) }

/- ## The zone drain (R350) -/

/-- An image is in a row that is filled or programmed. -/
def State.inRow (s : State) (slot : Nat) : Bool :=
  s.cellar.rows.any (fun e => e.2.items.any fun i => decide (i.slot = slot))
    || s.cellar.programs.any fun e => e.2.items.any fun i => decide (i.slot = slot)

/-- An image lies in the zone. -/
def State.inZone (s : State) (slot : Nat) : Bool :=
  match (s.image slot).bind (·.loc) with | some l => s.isZone (sbKey l.set_ l.way l.block) | none => false

/-- Zone images rewritten in the oldest order while the bytes of a course last. -/
def State.drainZone (s : State) (left : Nat) : List Nat → State
  | [] => s
  | k :: ks =>
    let b := imageBytes (((s.image k).map (·.bricks)).getD [])
    if left < b then s
    else
      let set := if s.setFull (k % 2) then 1 - k % 2 else k % 2
      if s.setFull set then s
      else ((s.placeItem (rowKey set false) k b none).getD s).drainZone (left - b) ks

/-- Zone superblocks whose images have all moved are erased (R350). -/
def State.eraseZone (s : State) : State :=
  let one (k : Nat) (b : Superblock) : Superblock :=
    if s.isZone k ∧ (b.mode = .opened ∨ b.mode = .sealed) ∧ (s.slotsIn k).isEmpty then { b with mode := .erasing } else b
  s.setCellar { s.cellar with supers := Tbl.each s.cellar.supers one }

/-- The zone drain of a course, with the program bytes that write-back left. -/
def State.zoneDrain (s : State) (left : Nat) : State :=
  let drain := s.cellar.drain.filter s.inZone
  let s := s.setCellar { s.cellar with drain := drain }
  (s.drainZone left (drain.filter fun k => !s.inRow k)).eraseZone

/- ## The decisions of a boundary -/

/-- Rooms are, or are about to be, served: the module is up, ends its start, or completes what a Brace found open. -/
def State.live (s : State) : Bool :=
  s.isRunning || decide (s.power.mode = .brace) || (decide (s.power.mode = .starting) && decide (13 ≤ s.start.step) && decide (s.start.step < 15))

/-- The division of the course (R119 to R126). -/
def State.divideCourse (s : State) : State := if s.live then
    let s := s.closePairs.settleBudget
    (s.settleQuotas s).regulate
  else s

/-- The Store's boundary: the set point (R325), refresh (R322), channels whose deferred change is due (R326). -/
def State.storeBoundary (s : State) : State :=
  if s.serving then
    let s := s.decidePoint (max s.power.store (s.decided .storeSetPointMax 0 0))
    s.placeRefresh.pauseDue.settleBudgetPoint
  else if s.power.mode = .brace ∨ s.power.mode = .starting then s.placeRefresh else s

/-- The tiers' boundary: placement, the Cellar's programs of write-back and shelves, with what they leave the zone drain, the shortages of the
Cellar. -/
def State.tierBoundary (s : State) : State :=
  if s.serving then
    let (left, s) := s.applyBinds.placement.serveCellar
    ((s.zoneDrain left).tendBlocks.cellarShortages).settleBases.advanceFronts
  else if s.power.mode = .starting ∧ 10 ≤ s.start.step ∧ s.start.step ≤ 13 then s.zoneDrain (50000 * s.channelsIn / 32)
  else s

/-- The calls' boundary (R264 to R271): steps that did not end, then the leases, of which Lock and the way into Quiet grant none. -/
def State.callBoundary (s : State) : State :=
  if !s.serving then s
  else
    let s := s.endSteps.lapseStops
    if s.sec.locked ∨ s.power.quiet = .frozen then s else s.leases

/-- NOTIFY frames sent (R455): one of up to 8 entries to each Up port that has one and an MGT credit for it, and one to the rack. -/
def State.sendNotify (s : State) : State :=
  if s.power.keeperDown then s
  else
    let one (s : State) (p : Nat) : State :=
      if !s.isUp p ∨ s.creditLeft p 7 = 0 then s
      else match s.takeNotify p with
        | (some f, t) => (t.odFlit p f).send (.notify p f)
        | (none, t) => t
    let s := (upTo 32).foldl one s
    match s.takeNotify 0x41 with
    | (some f, t) => t.send (.notify 0x41 f)
    | (none, t) => t

/-- The decisions of the course that begins. -/
def State.decideCourse (s : State) : State :=
  let s := if s.serving then s.throttleCores.govern.divideShares else s
  let s := s.storeBoundary.divideCourse
  let s := s.tierBoundary
  let s := s.callBoundary
  let s := if s.serving then (s.quietBoundary).settleGather else s
  let s := if s.isRunning then s.settleSlice else s
  let s := if s.live then s.boundaryFns else s
  let s := if s.power.mode = .flush ∨ s.power.mode = .brace then s else s.settleLock.settleRelease
  let s := (upTo 32).foldl (fun s p => s.returnCredits p) s.sweepSpdm.unhold
  (if s.live then s.retryAll else s).sendNotify

/-- The walks of crash scans go on (R235); requests to lines that they have passed are tried again (R236). -/
def State.walkOn (s : State) : State :=
  let t := s.walkScans
  if t.dir.entries = s.dir.entries then t else t.retryAll

/-- One unit of the sub-course position passes (R51), up to the last of the course: the ports send the flits that fall in it (R79), and the walks of
crash scans go on (R235); Off has no time. -/
def State.tick (s : State) : State :=
  if s.power.mode = .off then s
  else
    let pos := min 4095 (s.time.pos + 1)
    ((s.pump s.time.pos pos).setTime { s.time with pos := pos }).walkOn

/-- COURSE_BOUNDARY (R45, R48): the flits left of the course that ends, the readings, and the next course with its decisions; Off has no course, and nothing is decided in Sealed. -/
def execCourseBoundary (env : Env) (s : State) : Host.Outcome State Fault Refusal :=
  if s.power.mode = .off then .next (s.readings env)
  else
    let s := s.pump s.time.pos 4096
    let s := s.setTime { s.time with course := s.time.course + 1, pos := 0 }
    let s := s.readings env
    .next (if s.dark then s else s.walkScans.decideCourse)

end Sys2Proof.Machine
end

