-- ==== Sys2Proof/Machine/Dispatch.lean ====
section
/-!
DEFINITION. Sys2Proof/Machine/Dispatch.lean: one arm for each command, a direct call of its meaning.
-/

namespace Sys2Proof.Machine

/-- The effect of a command on everything but the queue of waiting commands. -/
def exec (i : Instr) (s : State) : Host.Outcome State Fault Refusal :=
  match i with
  | .courseBoundary env => Sys2Proof.Machine.execCourseBoundary env s
  | .cappedReturnFull => Sys2Proof.Machine.execCappedReturnFull s
  | .dieAtLimit die => Sys2Proof.Machine.execDieAtLimit die s
  | .regionFault region => Sys2Proof.Machine.execRegionFault region s
  | .keeperWatchdog => Sys2Proof.Machine.execKeeperWatchdog s
  | .keeperRestartDone => Sys2Proof.Machine.execKeeperRestartDone s
  | .quietEnter rq payload => Sys2Proof.Machine.execQuietEnter rq payload s
  | .quietFreeze => Sys2Proof.Machine.execQuietFreeze s
  | .quietEntered => Sys2Proof.Machine.execQuietEntered s
  | .quietExit rq payload => Sys2Proof.Machine.execQuietExit rq payload s
  | .quietExitEnd => Sys2Proof.Machine.execQuietExitEnd s
  | .zeroingPassEnd => Sys2Proof.Machine.execZeroingPassEnd s
  | .powerCap rq payload => Sys2Proof.Machine.execPowerCap rq payload s
  | .pwrfailNAsserted => Sys2Proof.Machine.execPwrfailNAsserted s
  | .inputBelow38v => Sys2Proof.Machine.execInputBelow38v s
  | .braceEnd => Sys2Proof.Machine.execBraceEnd s
  | .braceLimit => Sys2Proof.Machine.execBraceLimit s
  | .flushComplete drawn zone => Sys2Proof.Machine.execFlushComplete drawn zone s
  | .railsFall listed programmed => Sys2Proof.Machine.execRailsFall listed programmed s
  | .powerReturn => Sys2Proof.Machine.execPowerReturn s
  | .ptpMeasurement domain offset tai => Sys2Proof.Machine.execPtpMeasurement domain offset tai s
  | .timeBeacon port b => Sys2Proof.Machine.execTimeBeacon port b s
  | .beaconSend => Sys2Proof.Machine.execBeaconSend s
  | .timeHoldover => Sys2Proof.Machine.execTimeHoldover s
  | .holdoverEstimateAdrift => Sys2Proof.Machine.execHoldoverEstimateAdrift s
  | .tallyPageDrain => Sys2Proof.Machine.execTallyPageDrain s
  | .tallyBlock rq => Sys2Proof.Machine.execTallyBlock rq s
  | .portRole rq port payload => Sys2Proof.Machine.execPortRole rq port payload s
  | .receiverDetected port lanes => Sys2Proof.Machine.execReceiverDetected port lanes s
  | .detectTimeout port => Sys2Proof.Machine.execDetectTimeout port s
  | .detectRetry port => Sys2Proof.Machine.execDetectRetry port s
  | .equaliseDone port => Sys2Proof.Machine.execEqualiseDone port s
  | .equaliseLimit port agreed => Sys2Proof.Machine.execEqualiseLimit port agreed s
  | .configureExchange port partner reversed polarity => Sys2Proof.Machine.execConfigureExchange port partner reversed polarity s
  | .configureTimeout port => Sys2Proof.Machine.execConfigureTimeout port s
  | .retrain port cause => Sys2Proof.Machine.execRetrain port cause s
  | .retrainDone port lanes => Sys2Proof.Machine.execRetrainDone port lanes s
  | .retrainTimeout port => Sys2Proof.Machine.execRetrainTimeout port s
  | .flitReceived port flit corrected fecOk => Sys2Proof.Machine.execFlitReceived port flit corrected fecOk s
  | .nack port ackSeq => Sys2Proof.Machine.execNack port ackSeq s
  | .ackTimeout port => Sys2Proof.Machine.execAckTimeout port s
  | .laneFecLimit port lane => Sys2Proof.Machine.execLaneFecLimit port lane s
  | .rdLine port tag room line => Sys2Proof.Machine.execRdLine port tag room line s
  | .rdOwn port tag room line => Sys2Proof.Machine.execRdOwn port tag room line s
  | .wrLine port tag room line poison data => Sys2Proof.Machine.execWrLine port tag room line poison data s
  | .wrMask port tag room line mask data => Sys2Proof.Machine.execWrMask port tag room line mask data s
  | .holdThresholdPassed port tag => Sys2Proof.Machine.execHoldThresholdPassed port tag s
  | .pinLapse port room line => Sys2Proof.Machine.execPinLapse port room line s
  | .completionTimeout port tag => Sys2Proof.Machine.execCompletionTimeout port tag s
  | .backInvAnswer port tag data => Sys2Proof.Machine.execBackInvAnswer port tag data s
  | .backInvTimeout port tag => Sys2Proof.Machine.execBackInvTimeout port tag s
  | .call port tag room line w1 args => Sys2Proof.Machine.execCall port tag room line w1 args s
  | .publish port tag room line region base => Sys2Proof.Machine.execPublish port tag room line region base s
  | .publishDecide region => Sys2Proof.Machine.execPublishDecide region s
  | .pubSealed region version => Sys2Proof.Machine.execPubSealed region version s
  | .pubReleased region version => Sys2Proof.Machine.execPubReleased region version s
  | .openView port tag room line region version close => Sys2Proof.Machine.execOpenView port tag room line region version close s
  | .configCommit rq payload => Sys2Proof.Machine.execConfigCommit rq payload s
  | .configApply => Sys2Proof.Machine.execConfigApply s
  | .configDiscard rq payload => Sys2Proof.Machine.execConfigDiscard rq payload s
  | .roomErase rq room payload => Sys2Proof.Machine.execRoomErase rq room payload s
  | .fetchComplete page => Sys2Proof.Machine.execFetchComplete page s
  | .writebackIdle page => Sys2Proof.Machine.execWritebackIdle page s
  | .writebackAgeMax page => Sys2Proof.Machine.execWritebackAgeMax page s
  | .writebackLag page => Sys2Proof.Machine.execWritebackLag page s
  | .landingDwell brick => Sys2Proof.Machine.execLandingDwell brick s
  | .landingFillDone brick faults => Sys2Proof.Machine.execLandingFillDone brick faults s
  | .landingSlotFreed brick parity => Sys2Proof.Machine.execLandingSlotFreed brick parity s
  | .storeReadComplete brick faults => Sys2Proof.Machine.execStoreReadComplete brick faults s
  | .stairDeadlinePrefetch stair step => Sys2Proof.Machine.execStairDeadlinePrefetch stair step s
  | .tableLoadImage rq payload => Sys2Proof.Machine.execTableLoadImage rq payload s
  | .tableBind rq room id payload => Sys2Proof.Machine.execTableBind rq room id payload s
  | .tableFree rq payload => Sys2Proof.Machine.execTableFree rq payload s
  | .tableBuilt room window byteImage expImage => Sys2Proof.Machine.execTableBuilt room window byteImage expImage s
  | .packedLoadGo rq room payload => Sys2Proof.Machine.execPackedLoadGo rq room payload s
  | .packedLoadPage room => Sys2Proof.Machine.execPackedLoadPage room s
  | .shelfRoom rq payload => Sys2Proof.Machine.execShelfRoom rq payload s
  | .shelfRanges rq payload => Sys2Proof.Machine.execShelfRanges rq payload s
  | .shelve rq payload => Sys2Proof.Machine.execShelve rq payload s
  | .shelveFreeze shelf => Sys2Proof.Machine.execShelveFreeze shelf s
  | .shelveCommit shelf => Sys2Proof.Machine.execShelveCommit shelf s
  | .unshelve rq payload => Sys2Proof.Machine.execUnshelve rq payload s
  | .unshelveSwitch shelf => Sys2Proof.Machine.execUnshelveSwitch shelf s
  | .unshelveEnd shelf => Sys2Proof.Machine.execUnshelveEnd shelf s
  | .shelfRelease rq payload => Sys2Proof.Machine.execShelfRelease rq payload s
  | .manifestBlock rq => Sys2Proof.Machine.execManifestBlock rq s
  | .hostFailed rq payload => Sys2Proof.Machine.execHostFailed rq payload s
  | .hostCrashScanStart port => Sys2Proof.Machine.execHostCrashScanStart port s
  | .hostCrashScanEnd port => Sys2Proof.Machine.execHostCrashScanEnd port s
  | .crashBlock rq => Sys2Proof.Machine.execCrashBlock rq s
  | .pubDefine rq index sub payload => Sys2Proof.Machine.execPubDefine rq index sub payload s
  | .pubDelete rq region payload => Sys2Proof.Machine.execPubDelete rq region payload s
  | .viewRegion rq room window payload => Sys2Proof.Machine.execViewRegion rq room window payload s
  | .callUnpark call => Sys2Proof.Machine.execCallUnpark call s
  | .callTimeout call => Sys2Proof.Machine.execCallTimeout call s
  | .callCompletion call => Sys2Proof.Machine.execCallCompletion call s
  | .progInstall rq payload => Sys2Proof.Machine.execProgInstall rq payload s
  | .progRemove rq payload => Sys2Proof.Machine.execProgRemove rq payload s
  | .nop core f => Sys2Proof.Machine.execNop core f s
  | .j core f => Sys2Proof.Machine.execJ core f s
  | .jal core f => Sys2Proof.Machine.execJal core f s
  | .jr core f => Sys2Proof.Machine.execJr core f s
  | .br core f => Sys2Proof.Machine.execBr core f s
  | .fence core f => Sys2Proof.Machine.execFence core f s
  | .stepend core f => Sys2Proof.Machine.execStepend core f s
  | .cyc core f => Sys2Proof.Machine.execCyc core f s
  | .stamp core f => Sys2Proof.Machine.execStamp core f s
  | .add core f => Sys2Proof.Machine.execAdd core f s
  | .sub core f => Sys2Proof.Machine.execSub core f s
  | .mul core f => Sys2Proof.Machine.execMul core f s
  | .mulh core f => Sys2Proof.Machine.execMulh core f s
  | .mulhu core f => Sys2Proof.Machine.execMulhu core f s
  | .div core f => Sys2Proof.Machine.execDiv core f s
  | .divu core f => Sys2Proof.Machine.execDivu core f s
  | .rem core f => Sys2Proof.Machine.execRem core f s
  | .remu core f => Sys2Proof.Machine.execRemu core f s
  | .and core f => Sys2Proof.Machine.execAnd core f s
  | .or core f => Sys2Proof.Machine.execOr core f s
  | .xor core f => Sys2Proof.Machine.execXor core f s
  | .shl core f => Sys2Proof.Machine.execShl core f s
  | .shr core f => Sys2Proof.Machine.execShr core f s
  | .sar core f => Sys2Proof.Machine.execSar core f s
  | .slt core f => Sys2Proof.Machine.execSlt core f s
  | .sltu core f => Sys2Proof.Machine.execSltu core f s
  | .min core f => Sys2Proof.Machine.execMin core f s
  | .max core f => Sys2Proof.Machine.execMax core f s
  | .li core f => Sys2Proof.Machine.execLi core f s
  | .fadd core f => Sys2Proof.Machine.execFadd core f s
  | .fmul core f => Sys2Proof.Machine.execFmul core f s
  | .fmax core f => Sys2Proof.Machine.execFmax core f s
  | .lds core f => Sys2Proof.Machine.execLds core f s
  | .sts core f => Sys2Proof.Machine.execSts core f s
  | .ldw core f => Sys2Proof.Machine.execLdw core f s
  | .stw core f => Sys2Proof.Machine.execStw core f s
  | .mvw core f => Sys2Proof.Machine.execMvw core f s
  | .wins core f => Sys2Proof.Machine.execWins core f s
  | .wext core f => Sys2Proof.Machine.execWext core f s
  | .vadd core f => Sys2Proof.Machine.execVadd core f s
  | .vsub core f => Sys2Proof.Machine.execVsub core f s
  | .vmul core f => Sys2Proof.Machine.execVmul core f s
  | .vfma core f => Sys2Proof.Machine.execVfma core f s
  | .vmax core f => Sys2Proof.Machine.execVmax core f s
  | .vmin core f => Sys2Proof.Machine.execVmin core f s
  | .vbcast core f => Sys2Proof.Machine.execVbcast core f s
  | .vcvt core f => Sys2Proof.Machine.execVcvt core f s
  | .vrsum core f => Sys2Proof.Machine.execVrsum core f s
  | .vrmax core f => Sys2Proof.Machine.execVrmax core f s
  | .vqmx core f => Sys2Proof.Machine.execVqmx core f s
  | .mxsplit core f => Sys2Proof.Machine.execMxsplit core f s
  | .mma core f => Sys2Proof.Machine.execMma core f s
  | .mvaw core f => Sys2Proof.Machine.execMvaw core f s
  | .mvwa core f => Sys2Proof.Machine.execMvwa core f s
  | .mvat core f => Sys2Proof.Machine.execMvat core f s
  | .mvta core f => Sys2Proof.Machine.execMvta core f s
  | .tclr core f => Sys2Proof.Machine.execTclr core f s
  | .tstat core f => Sys2Proof.Machine.execTstat core f s
  | .smx core f => Sys2Proof.Machine.execSmx core f s
  | .exp2 core f => Sys2Proof.Machine.execExp2 core f s
  | .tkinit core f => Sys2Proof.Machine.execTkinit core f s
  | .topk core f => Sys2Proof.Machine.execTopk core f s
  | .scfg core f => Sys2Proof.Machine.execScfg core f s
  | .sgo core f => Sys2Proof.Machine.execSgo core f s
  | .swait core f => Sys2Proof.Machine.execSwait core f s
  | .sstat core f => Sys2Proof.Machine.execSstat core f s
  | .sstop core f => Sys2Proof.Machine.execSstop core f s
  | .streamEnd core ctx => Sys2Proof.Machine.execStreamEnd core ctx s
  | .streamStop core ctx => Sys2Proof.Machine.execStreamStop core ctx s
  | .refreshForced channel rank => Sys2Proof.Machine.execRefreshForced channel rank s
  | .rowIdle channel rank bank => Sys2Proof.Machine.execRowIdle channel rank bank s
  | .urgencyUpdate => Sys2Proof.Machine.execUrgencyUpdate s
  | .writeQueueDrain channel => Sys2Proof.Machine.execWriteQueueDrain channel s
  | .rowHammerRefresh channel rank bank row => Sys2Proof.Machine.execRowHammerRefresh channel rank bank row s
  | .rhTableClear => Sys2Proof.Machine.execRhTableClear s
  | .trainingSweep channel => Sys2Proof.Machine.execTrainingSweep channel s
  | .trainingSweepEnd channel narrowest failedLanes => Sys2Proof.Machine.execTrainingSweepEnd channel narrowest failedLanes s
  | .storeSetPointMax rq payload => Sys2Proof.Machine.execStoreSetPointMax rq payload s
  | .setPointWave wave => Sys2Proof.Machine.execSetPointWave wave s
  | .setPointResume channel => Sys2Proof.Machine.execSetPointResume channel s
  | .rankMigrationStart region => Sys2Proof.Machine.execRankMigrationStart region s
  | .rankMigrationEnd region marked => Sys2Proof.Machine.execRankMigrationEnd region marked s
  | .slotDeadCopyEnd copy => Sys2Proof.Machine.execSlotDeadCopyEnd copy s
  | .bankMask rq payload => Sys2Proof.Machine.execBankMask rq payload s
  | .rowProgramTimer set relocation => Sys2Proof.Machine.execRowProgramTimer set relocation s
  | .rowProgramDone set relocation ends => Sys2Proof.Machine.execRowProgramDone set relocation ends s
  | .superblockEraseDone set way block failed => Sys2Proof.Machine.execSuperblockEraseDone set way block failed s
  | .relocationStart set => Sys2Proof.Machine.execRelocationStart set s
  | .readDisturbRelocate channel way block => Sys2Proof.Machine.execReadDisturbRelocate channel way block s
  | .patrol set way block worn => Sys2Proof.Machine.execPatrol set way block worn s
  | .cellarReadRecovered slot how bits => Sys2Proof.Machine.execCellarReadRecovered slot how bits s
  | .cellarRebuildEnd set => Sys2Proof.Machine.execCellarRebuildEnd set s
  | .mapCheckpoint => Sys2Proof.Machine.execMapCheckpoint s
  | .cellarChannelTraining channel => Sys2Proof.Machine.execCellarChannelTraining channel s
  | .loftScrubPass counts bad => Sys2Proof.Machine.execLoftScrubPass counts bad s
  | .scrubPass finds => Sys2Proof.Machine.execScrubPass finds s
  | .brickRepair brick => Sys2Proof.Machine.execBrickRepair brick s
  | .referrerSearchEnd slot => Sys2Proof.Machine.execReferrerSearchEnd slot s
  | .repeatEntryExpire region bay unit => Sys2Proof.Machine.execRepeatEntryExpire region bay unit s
  | .rowWeak region bay unit => Sys2Proof.Machine.execRowWeak region bay unit s
  | .ceilingRecompute => Sys2Proof.Machine.execCeilingRecompute s
  | .chargeComplete => Sys2Proof.Machine.execChargeComplete s
  | .chargeResume steps => Sys2Proof.Machine.execChargeResume steps s
  | .cisternFault cell cause => Sys2Proof.Machine.execCisternFault cell cause s
  | .cisternFaultClear => Sys2Proof.Machine.execCisternFaultClear s
  | .checkNow rq payload => Sys2Proof.Machine.execCheckNow rq payload s
  | .checkInterval => Sys2Proof.Machine.execCheckInterval s
  | .checkDischargeStart => Sys2Proof.Machine.execCheckDischargeStart s
  | .checkDefer => Sys2Proof.Machine.execCheckDefer s
  | .cisternCheck cells => Sys2Proof.Machine.execCisternCheck cells s
  | .cisternReserve rq payload => Sys2Proof.Machine.execCisternReserve rq payload s
  | .lcAdvance rq payload => Sys2Proof.Machine.execLcAdvance rq payload s
  | .alarm sensors lidLoop => Sys2Proof.Machine.execAlarm sensors lidLoop s
  | .eraseDone => Sys2Proof.Machine.execEraseDone s
  | .lockRelease rq payload => Sys2Proof.Machine.execLockRelease rq payload s
  | .alarmResponse rq sensor payload => Sys2Proof.Machine.execAlarmResponse rq sensor payload s
  | .fwStage rq image => Sys2Proof.Machine.execFwStage rq image s
  | .fwActivate rq payload => Sys2Proof.Machine.execFwActivate rq payload s
  | .fwRestart rq payload => Sys2Proof.Machine.execFwRestart rq payload s
  | .fwCommit rq payload => Sys2Proof.Machine.execFwCommit rq payload s
  | .roomKeyGenerate rq room payload => Sys2Proof.Machine.execRoomKeyGenerate rq room payload s
  | .roomKeyImport rq room payload => Sys2Proof.Machine.execRoomKeyImport rq room payload s
  | .getVersion rq sid msg => Sys2Proof.Machine.execGetVersion rq sid msg s
  | .getCapabilities rq sid msg => Sys2Proof.Machine.execGetCapabilities rq sid msg s
  | .negotiateAlgorithms rq sid msg => Sys2Proof.Machine.execNegotiateAlgorithms rq sid msg s
  | .getDigests rq sid msg => Sys2Proof.Machine.execGetDigests rq sid msg s
  | .getCertificate rq sid msg => Sys2Proof.Machine.execGetCertificate rq sid msg s
  | .challenge rq sid msg => Sys2Proof.Machine.execChallenge rq sid msg s
  | .getMeasurements rq sid msg => Sys2Proof.Machine.execGetMeasurements rq sid msg s
  | .keyExchange rq sid msg => Sys2Proof.Machine.execKeyExchange rq sid msg s
  | .finish rq sid msg => Sys2Proof.Machine.execFinish rq sid msg s
  | .heartbeat rq sid msg => Sys2Proof.Machine.execHeartbeat rq sid msg s
  | .keyUpdate rq sid msg => Sys2Proof.Machine.execKeyUpdate rq sid msg s
  | .endSession rq sid msg => Sys2Proof.Machine.execEndSession rq sid msg s
  | .getPqChain rq sid msg => Sys2Proof.Machine.execGetPqChain rq sid msg s
  | .getPqSignature rq sid msg => Sys2Proof.Machine.execGetPqSignature rq sid msg s
  | .spdmUnsupportedRequest rq sid msg => Sys2Proof.Machine.execSpdmUnsupportedRequest rq sid msg s
  | .write rq index sub payload => Sys2Proof.Machine.execWrite rq index sub payload s
  | .blockStart rq index sub payload => Sys2Proof.Machine.execBlockStart rq index sub payload s
  | .blockData rq index sub payload => Sys2Proof.Machine.execBlockData rq index sub payload s
  | .blockEnd rq index sub payload => Sys2Proof.Machine.execBlockEnd rq index sub payload s
  | .blockRead rq index sub payload => Sys2Proof.Machine.execBlockRead rq index sub payload s
  | .blockTransferTimeout src index sub => Sys2Proof.Machine.execBlockTransferTimeout src index sub s
  | .sessionIdleTimeout mac => Sys2Proof.Machine.execSessionIdleTimeout mac s
  | .uartFrameGap => Sys2Proof.Machine.execUartFrameGap s
  | .entdaa addr => Sys2Proof.Machine.execEntdaa addr s
  | .setdasa target addr => Sys2Proof.Machine.execSetdasa target addr s
  | .rstdaa => Sys2Proof.Machine.execRstdaa s
  | .enec events => Sys2Proof.Machine.execEnec events s
  | .disec events => Sys2Proof.Machine.execDisec events s
  | .getpid => Sys2Proof.Machine.execGetpid s
  | .getbcr => Sys2Proof.Machine.execGetbcr s
  | .getdcr => Sys2Proof.Machine.execGetdcr s
  | .getmwl => Sys2Proof.Machine.execGetmwl s
  | .setmwl len => Sys2Proof.Machine.execSetmwl len s
  | .getmrl => Sys2Proof.Machine.execGetmrl s
  | .setmrl len => Sys2Proof.Machine.execSetmrl len s
  | .getstatus => Sys2Proof.Machine.execGetstatus s
  | .rstact action => Sys2Proof.Machine.execRstact action s
  | .privateRead => Sys2Proof.Machine.execPrivateRead s
  | .functionEnable rq fn => Sys2Proof.Machine.execFunctionEnable rq fn s
  | .functionDisable rq fn => Sys2Proof.Machine.execFunctionDisable rq fn s
  | .functionStarted fn => Sys2Proof.Machine.execFunctionStarted fn s
  | .functionSafePoint fn => Sys2Proof.Machine.execFunctionSafePoint fn s
  | .functionStopped fn => Sys2Proof.Machine.execFunctionStopped fn s
  | .startBegin => Sys2Proof.Machine.execStartBegin s
  | .startStep e => Sys2Proof.Machine.execStartStep e s
  | .startStepLimit step unfinished => Sys2Proof.Machine.execStartStepLimit step unfinished s
  | .ledgerClearCounts rq payload => Sys2Proof.Machine.execLedgerClearCounts rq payload s
  | .sliceStart => Sys2Proof.Machine.execSliceStart s
  | .sliceEnd pass measured limit => Sys2Proof.Machine.execSliceEnd pass measured limit s
  | .selftestFull rq payload failed untested => Sys2Proof.Machine.execSelftestFull rq payload failed untested s
  | .benchRestore rq payload pass => Sys2Proof.Machine.execBenchRestore rq payload pass s
  | .vaultJoin rq payload views => Sys2Proof.Machine.execVaultJoin rq payload views s
  | .vaultLeave rq payload => Sys2Proof.Machine.execVaultLeave rq payload s
  | .peerFailed rq payload => Sys2Proof.Machine.execPeerFailed rq payload s
  | .poolGather rq room payload => Sys2Proof.Machine.execPoolGather rq room payload s
  | .joinRetry views => Sys2Proof.Machine.execJoinRetry views s
  | .aliveSend => Sys2Proof.Machine.execAliveSend s
  | .peerSilence member => Sys2Proof.Machine.execPeerSilence member s
  | .pageMoveResend => Sys2Proof.Machine.execPageMoveResend s
  | .moveReq port tag src room page => Sys2Proof.Machine.execMoveReq port tag src room page s
  | .moveOrder port tag src room page target => Sys2Proof.Machine.execMoveOrder port tag src room page target s
  | .moveData port tag src room page generation data => Sys2Proof.Machine.execMoveData port tag src room page generation data s
  | .moveEmpty port tag src room page => Sys2Proof.Machine.execMoveEmpty port tag src room page s
  | .moveSoon port tag src room page landing => Sys2Proof.Machine.execMoveSoon port tag src room page landing s
  | .moveAck port tag src room page pinEnd => Sys2Proof.Machine.execMoveAck port tag src room page pinEnd s
  | .moveRelease port tag src room page done => Sys2Proof.Machine.execMoveRelease port tag src room page done s
  | .moveDefer port tag src room page cause retry => Sys2Proof.Machine.execMoveDefer port tag src room page cause retry s
  | .moveRefused port tag src room page cause => Sys2Proof.Machine.execMoveRefused port tag src room page cause s
  | .moveQuery port tag src room page => Sys2Proof.Machine.execMoveQuery port tag src room page s
  | .alive port tag src epoch => Sys2Proof.Machine.execAlive port tag src epoch s
  | .relay port tag src frame => Sys2Proof.Machine.execRelay port tag src frame s
  | .thermTripNAsserted => Sys2Proof.Machine.execThermTripNAsserted s
  | .resetNAsserted => Sys2Proof.Machine.execResetNAsserted s
  | .resetNDeasserted => Sys2Proof.Machine.execResetNDeasserted s
  | .seatLost => Sys2Proof.Machine.execSeatLost s
  | .inputToggling input edges => Sys2Proof.Machine.execInputToggling input edges s
  | .inputFaulty input => Sys2Proof.Machine.execInputFaulty input s
  | .inputRearm rq payload => Sys2Proof.Machine.execInputRearm rq payload s
  | .inputOvervoltage peak => Sys2Proof.Machine.execInputOvervoltage peak s
  | .inputSwitchClose => Sys2Proof.Machine.execInputSwitchClose s
  | .auxLost mv => Sys2Proof.Machine.execAuxLost mv s
  | .benchEnNAsserted => Sys2Proof.Machine.execBenchEnNAsserted s
  | .benchEnNDeasserted => Sys2Proof.Machine.execBenchEnNDeasserted s
  | .ptpAnnounce domain a => Sys2Proof.Machine.execPtpAnnounce domain a s
  | .rubbleBlock rq => Sys2Proof.Machine.execRubbleBlock rq s
  | .presentNAsserted => Sys2Proof.Machine.execPresentNAsserted s
  | .inputDeasserted input => Sys2Proof.Machine.execInputDeasserted input s
  | .bypass => Sys2Proof.Machine.execBypass s
  | .idcode => Sys2Proof.Machine.execIdcode s
  | .samplePreload data => Sys2Proof.Machine.execSamplePreload data s
  | .extest => Sys2Proof.Machine.execExtest s

end Sys2Proof.Machine
end

