-- ==== Sys2Proof/Safety.lean ====
section
/-!
DEFINITION. Sys2Proof/Safety.lean: the terms the statements use: when a request reaches its entry, how it is answered, when a core's
instruction completes, and what no step undoes.
-/

namespace Sys2Proof.Machine

/- ## Requests to the object dictionary -/

/-- A write reaches what its entry does (R438 to R441, R444, R446): the transport carries requests, the frame is no longer than 256 bytes,
the class is in the mask, the entry can be written, and the value fits its type and range. -/
def State.takes (s : State) (rq : Rq) (e : Ent) (i j : Nat) (payload : List Byte) : Bool :=
  s.odLive rq.src && (s.classOf rq.src).isSome && decide (payload.length ≤ 256)
    && ((s.openSess rq.src).barred rq.src e i j (some (ofLe payload)) noCalls).isNone
    && decide (e.row.acc ≠ .ro) && lengthFits e.row payload.length && valueFits e.row payload

/-- A read reaches its entry's value (R438 to R441, R446). -/
def State.gives (s : State) (rq : Rq) (e : Ent) (i j : Nat) : Bool :=
  s.odLive rq.src && (s.classOf rq.src).isSome && ((s.openSess rq.src).barred rq.src e i j none noCalls).isNone
    && decide (e.row.acc ≠ .wo) && decide (e.row.acc ≠ .cmd)

/-- The response of a request to an entry instance (R445). -/
def State.answers (s : State) (rq : Rq) (e : Ent) (i j : Nat) (r : Reply) : State :=
  s.odAnswer rq (e.row.idx i j) (e.row.subIdx j) r

/- ## Instructions of a core -/

/-- A core issues its word, another word follows it, and no running stream owes a wide register it names. -/
def State.runs (s : State) (core : Fin 32) (regs : List Nat) : Bool :=
  s.issues core && decide ((s.core core).pc + 1 < (s.core core).words) && ((s.core core).owed regs).isEmpty

/-- The state with a core that has completed an instruction and stands at the next word. -/
def State.stepped (s : State) (core : Fin 32) (c : Core) : State := s.setCore core { c with pc := c.pc + 1 }

/-- The scalar fields that an instruction uses name scalar registers (R279). -/
def scalarFields (l : List (BitVec 6)) : Bool := l.all fun r => decide (r.toNat ≤ 31)

/-- The word of a scalar operation is legal (R279, R280): IMM where IMM_SRC is 1, B where it is 0. -/
def scalarWord (f : Fields) : Bool :=
  let imm := bitOf f.mod.toNat 0
  zeroElse f { mod := 1, d := true, a := true, b := !imm, imm := if imm then allImm else 0 } && scalarFields [f.d, f.a, f.b]

/- ## What no step undoes -/

/-- The canonical form of every core's tile store. -/
def State.tilesWf (s : State) : Bool := s.cores.cores.all fun e => Memory.wf e.2.ts

end Sys2Proof.Machine
end

