-- ==== Sys2Proof/Certificates/Slice0/Obligations.lean ====
section
/-!
DEFINITION. Sys2Proof/Certificates/Slice0/Obligations.lean: the statements about the block, for the provers.
-/

open Sys2Proof Sys2Proof.Machine

/- ## Gopepen instructions -/

/-- R289, R290: the integer instructions of the scalar unit. Each writes s[D] alone and goes to the next word, whatever the operands hold. -/
def Obligations.ScalarIntegerResults : Prop :=
  ∀ (core : Fin 32) (f : Fields) (s : State), s.runs core [] → scalarWord f →
    let c := s.core core
    let a := c.sreg f.a.toNat
    let b := if bitOf f.mod.toNat 0 then f.imm else c.sreg f.b.toNat
    let gives := fun v : Word => Host.Outcome.next (s.stepped core (c.setS f.d.toNat v))
    let ones : Word := BitVec.allOnes 64
    let least : Word := BitVec.intMin 64
    exec (.add core f) s = gives (BitVec.ofNat 64 (a.toNat + b.toNat))
    ∧ exec (.sub core f) s = gives (BitVec.ofInt 64 (a.toInt - b.toInt))
    ∧ exec (.mul core f) s = gives (BitVec.ofNat 64 (a.toNat * b.toNat))
    ∧ exec (.mulh core f) s = gives ((a.signExtend 128 * b.signExtend 128).extractLsb' 64 64)
    ∧ exec (.mulhu core f) s = gives ((a.setWidth 128 * b.setWidth 128).extractLsb' 64 64)
    ∧ exec (.div core f) s
        = gives (if b = 0 then ones else if a = least ∧ b = ones then least else BitVec.ofInt 64 (a.toInt.tdiv b.toInt))
    ∧ exec (.divu core f) s = gives (if b = 0 then ones else BitVec.ofNat 64 (a.toNat / b.toNat))
    ∧ exec (.rem core f) s
        = gives (if b = 0 then a else if a = least ∧ b = ones then 0 else BitVec.ofInt 64 (a.toInt.tmod b.toInt))
    ∧ exec (.remu core f) s = gives (if b = 0 then a else BitVec.ofNat 64 (a.toNat % b.toNat))
    ∧ exec (.and core f) s = gives (a &&& b)
    ∧ exec (.or core f) s = gives (a ||| b)
    ∧ exec (.xor core f) s = gives (a ^^^ b)
    ∧ exec (.shl core f) s = gives (BitVec.ofNat 64 (a.toNat * 2 ^ (b.toNat % 64)))
    ∧ exec (.shr core f) s = gives (BitVec.ofNat 64 (a.toNat / 2 ^ (b.toNat % 64)))
    ∧ exec (.sar core f) s = gives (BitVec.ofInt 64 (a.toInt / 2 ^ (b.toNat % 64)))
    ∧ exec (.slt core f) s = gives (if a.toInt < b.toInt then 1 else 0)
    ∧ exec (.sltu core f) s = gives (if a.toNat < b.toNat then 1 else 0)
    ∧ exec (.min core f) s = gives (if a.toInt ≤ b.toInt then a else b)
    ∧ exec (.max core f) s = gives (if a.toInt ≤ b.toInt then b else a)

/-- R289, R292: NOP, LI, STAMP, CYC and the FP32 instructions of the scalar unit, whose result lies in bits [31:0], rounded to nearest even. -/
def Obligations.ScalarOtherResults : Prop :=
  ∀ (core : Fin 32) (f : Fields) (s : State), s.runs core [] →
    let c := s.core core
    let gives := fun v : Word => Host.Outcome.next (s.stepped core (c.setS f.d.toNat v))
    let x := ofFp32 ((c.sreg f.a.toNat).toNat % 2 ^ 32)
    let y := ofFp32 ((c.sreg f.b.toNat).toNat % 2 ^ 32)
    let fpWord := (zeroElse f { d := true, a := true, b := true } ∧ scalarFields [f.d, f.a, f.b])
    (zeroElse f {} → exec (.nop core f) s = .next (s.stepped core c))
    ∧ (zeroElse f { d := true, imm := allImm } ∧ scalarFields [f.d] → exec (.li core f) s = gives f.imm)
    ∧ (zeroElse f { d := true } ∧ scalarFields [f.d] →
        exec (.stamp core f) s = gives (BitVec.ofNat 64 (s.shown s.now))
        ∧ exec (.cyc core f) s = gives (BitVec.ofNat 64 (s.time.pos * s.cyclesOf core / 4096 - c.setup)))
    ∧ (fpWord → exec (.fadd core f) s = gives (BitVec.ofNat 64 (encodeVal 0 0 false (addVal 0 x y)))
        ∧ exec (.fmul core f) s = gives (BitVec.ofNat 64 (encodeVal 0 0 false (mulVal x y)))
        ∧ exec (.fmax core f) s = gives (BitVec.ofNat 64 (encodeVal 0 0 false (maxVal x y))))

/-- R289, R281: jumps and branches. A target below CODE_WORDS is the next word; JAL leaves the offset of the word after it. -/
def Obligations.JumpsAndBranches : Prop :=
  ∀ (core : Fin 32) (f : Fields) (s : State), s.issues core →
    let c := s.core core
    let dest := f.imm.toNat % 2 ^ 32
    let goes := fun (c : Core) (n : Nat) => Host.Outcome.next (s.setCore core { c with pc := n })
    let a := c.sreg f.a.toNat
    let b := c.sreg f.b.toNat
    (zeroElse f { imm := 2 ^ 32 - 1 } ∧ dest < c.words → exec (.j core f) s = goes c dest)
    ∧ (zeroElse f { d := true, imm := 2 ^ 32 - 1 } ∧ scalarFields [f.d] ∧ dest < c.words →
        exec (.jal core f) s = goes (c.setS f.d.toNat (BitVec.ofNat 64 (c.pc + 1))) dest)
    ∧ (zeroElse f { a := true } ∧ scalarFields [f.a] ∧ a.toNat < c.words ∧ a.toNat < 2 ^ 32 → exec (.jr core f) s = goes c a.toNat)
    ∧ (zeroElse f { mod := 0xF0, a := true, b := true, imm := 2 ^ 32 - 1 } ∧ scalarFields [f.a, f.b] ∧ dest < c.words ∧ c.pc + 1 < c.words →
        (f.mod.toNat / 16 = 0 → exec (.br core f) s = if a = b then goes c dest else goes c (c.pc + 1))
        ∧ (f.mod.toNat / 16 = 1 → exec (.br core f) s = if a ≠ b then goes c dest else goes c (c.pc + 1))
        ∧ (f.mod.toNat / 16 = 2 → exec (.br core f) s = if a.toInt < b.toInt then goes c dest else goes c (c.pc + 1))
        ∧ (f.mod.toNat / 16 = 3 → exec (.br core f) s = if b.toInt ≤ a.toInt then goes c dest else goes c (c.pc + 1))
        ∧ (f.mod.toNat / 16 = 4 → exec (.br core f) s = if a.toNat < b.toNat then goes c dest else goes c (c.pc + 1))
        ∧ (f.mod.toNat / 16 = 5 → exec (.br core f) s = if b.toNat ≤ a.toNat then goes c dest else goes c (c.pc + 1)))

/-- R289, R307: FENCE goes on when none of the contexts it names is in RUN. STEPEND ends the step at once when no write stream is in RUN: read streams
stop where they stand, and the step is over with its status and, for MORE_AFTER, its stamp. R309, R281, R308: a faulting instruction has no effect of
its own. The step of a call ends, s31 takes the offset of the word, every stream stops, the call goes to ENDING with outcome FATAL and detail 2, and
CALL_FAULT is written. This is what an unused field that is not zero (ILLEGAL) and a scalar field above 31 (OPERAND_RANGE) do to ADD, and a jump to
CODE_WORDS (CODE_RANGE) to J. -/
def Obligations.StepsEnd : Prop :=
  (
  ∀ (core : Fin 32) (f : Fields) (s : State),
    let c := s.core core
    (s.runs core [] ∧ zeroElse f { mod := 0xF0, x := 0xFF } ∧ (∀ x, x < 8 → f.x.getLsbD x = true → (c.stream x).status ≠ ssRun) →
      exec (.fence core f) s = .next (s.stepped core c))
    ∧ (s.issues core ∧ zeroElse f { mod := 3, a := true } ∧ scalarFields [f.a] ∧ f.mod.toNat ≠ 3
        ∧ (∀ t ∈ c.st, t.write = true → t.status ≠ ssRun) →
      let stopped := c.st.map fun t => if t.write then t else t.halt
      let st := (c.sreg f.a.toNat).toNat
      exec (.stepend core f) s
        = .next ((s.setCore core { c with st := stopped, ending := some (f.mod.toNat, st) }).stepEnds core f.mod.toNat st)))
  ∧ (
  ∀ (core : Fin 32) (f : Fields) (s : State) (id : Nat), s.issues core → (s.core core).call = some id →
    let c := s.core core
    let c31 := c.setS 31 (BitVec.ofNat 64 c.pc)
    let ends := fun code : Nat => (Host.Outcome.next ((((s.setCore core c31).stepOver core).endCall id
        ⟨3, core, s.time.course, 8, 2, code, c31.result⟩).raise
        { code := 0x8002, sev := 2, unit := 0x300 + c.room.getD 0,
          args := leBytes 4 id ++ leBytes 1 core ++ leBytes 2 code ++ leBytes 4 c.index }) : Host.Outcome State Fault Refusal)
    (f.x ≠ 0 ∨ f.c ≠ 0 → exec (.add core f) s = ends 1)
    ∧ (31 < f.d.toNat ∧ zeroElse f { d := true, a := true, b := true } → exec (.add core f) s = ends 2)
    ∧ (zeroElse f { imm := 2 ^ 32 - 1 } ∧ c.words ≤ f.imm.toNat → exec (.j core f) s = ends 4))

/-- R254: s0 reads as zero, and a write of it changes nothing; a write of another scalar register is read back, and every other scalar register, the wide
registers, the tiles and the tile store are left as they are. -/
def Obligations.ScalarRegisterZero : Prop :=
  ∀ (c : Core) (d : Nat) (v : Word), c.sreg 0 = 0 ∧ c.setS 0 v = c
    ∧ (0 < d ∧ d < c.s.length → (c.setS d v).sreg d = v)
    ∧ (∀ r, r ≠ d → (c.setS d v).sreg r = c.sreg r)
    ∧ (c.setS d v).w = c.w ∧ (c.setS d v).a = c.a ∧ (c.setS d v).ts = c.ts ∧ (c.setS d v).st = c.st ∧ (c.setS d v).pc = c.pc

/-- R291: loads, stores and moves of the tile store and the wide registers, at an address that is in the store and aligned. -/
def Obligations.TileStoreAndMoves : Prop :=
  ∀ (core : Fin 32) (f : Fields) (s : State),
    let c := s.core core
    let at_ := (c.sreg f.a.toNat + f.imm).toNat
    let gives := fun c : Core => Host.Outcome.next (s.stepped core c)
    (s.runs core [] ∧ at_ + 8 ≤ 2097152 ∧ at_ % 8 = 0 →
      (zeroElse f { d := true, a := true, imm := allImm } ∧ scalarFields [f.d, f.a] →
        exec (.lds core f) s = gives (c.setS f.d.toNat (BitVec.ofNat 64 (ofLe (c.ts.readBytes at_ 8)))))
      ∧ (zeroElse f { b := true, a := true, imm := allImm } ∧ scalarFields [f.b, f.a] →
        exec (.sts core f) s = gives { c with ts := c.ts.writeBytes at_ (leBytes 8 (c.sreg f.b.toNat).toNat) }))
    ∧ (s.runs core [f.d.toNat] ∧ at_ + 512 ≤ 2097152 ∧ at_ % 64 = 0 ∧ zeroElse f { d := true, a := true, imm := allImm } ∧ scalarFields [f.a] →
      exec (.ldw core f) s = gives (c.setWide f.d.toNat (BitVec.ofNat 4096 (ofLe (c.ts.readBytes at_ 512)))))
    ∧ (s.runs core [f.b.toNat] ∧ at_ + 512 ≤ 2097152 ∧ at_ % 64 = 0 ∧ zeroElse f { b := true, a := true, imm := allImm } ∧ scalarFields [f.a] →
      exec (.stw core f) s = gives { c with ts := c.ts.writeBytes at_ (leBytes 512 (c.wide f.b.toNat).toNat) })
    ∧ (s.runs core [f.d.toNat, f.a.toNat] ∧ zeroElse f { d := true, a := true } →
      exec (.mvw core f) s = gives (c.setWide f.d.toNat (c.wide f.a.toNat)))
    ∧ (s.runs core [f.d.toNat] ∧ zeroElse f { d := true, b := true, imm := 63 } ∧ scalarFields [f.b] →
      ∃ w : Wide, exec (.wins core f) s = gives (c.setWide f.d.toNat w)
        ∧ ∀ i < 4096, w.getLsbD i = if i / 64 = f.imm.toNat then (c.sreg f.b.toNat).getLsbD (i % 64) else (c.wide f.d.toNat).getLsbD i)
    ∧ (s.runs core [f.a.toNat] ∧ zeroElse f { d := true, a := true, imm := 63 } ∧ scalarFields [f.d] →
      exec (.wext core f) s = gives (c.setS f.d.toNat ((c.wide f.a.toNat).extractLsb' (64 * f.imm.toNat) 64)))

/-- R271, R291: the tile store is byte-addressed memory. A read after a write of the same byte gives the value, every other byte is as it was, a run of
bytes written is read back, the bytes outside the run are as they were, and the canonical form is kept. -/
def Obligations.TileStoreIsMemory : Prop :=
  (∀ (m : Memory) (a b : Nat) (v : Byte), m.wf → (m.write a v).read b = if b = a then v else m.read b)
  ∧ (∀ (m : Memory) (a : Nat) (l : List Byte), m.wf →
      (m.writeBytes a l).readBytes a l.length = l ∧ (m.writeBytes a l).wf
      ∧ ∀ b, b < a ∨ a + l.length ≤ b → (m.writeBytes a l).read b = m.read b)

/-- R291, R297, R303: the stores of a core's tile store, STS, STW, MVAT, TKINIT and TOPK: whatever the instruction does, a byte outside those it stores to
is as it was, and no register of another core, no page, room, port or dictionary value changes. -/
def Obligations.TileStoreStoresFrame : Prop :=
  ∀ (core : Fin 32) (f : Fields) (s t : State), (s.core core).ts.wf → s.runs core [] →
    let c := s.core core
    let at_ := (c.sreg f.a.toNat + f.imm).toNat
    let keeps := fun (from_ n : Nat) =>
      (∀ b, b < from_ ∨ from_ + n ≤ b → (t.core core).ts.read b = c.ts.read b)
      ∧ (∀ o : Nat, o ≠ core.val → t.core o = s.core o)
      ∧ t.pages = s.pages ∧ t.rooms = s.rooms ∧ t.ports = s.ports ∧ t.od.vals = s.od.vals ∧ t.landing = s.landing ∧ t.dir = s.dir
    (exec (.sts core f) s = .next t → keeps at_ 8)
    ∧ (s.runs core [f.b.toNat] ∧ exec (.stw core f) s = .next t → keeps at_ 512)
    ∧ (exec (.mvat core f) s = .next t → keeps at_ 4096)
    ∧ (exec (.tkinit core f) s = .next t → keeps at_ 64)
    ∧ (s.runs core [f.a.toNat] ∧ exec (.topk core f) s = .next t → keeps (c.sreg f.c.toNat + f.imm).toNat (64 + 8 * 256))

/-- R291, R292: the elementwise instructions. Element i of w[D] is the exact result of elements i, rounded once to ETYPE by RM and SAT; the bits past the
last element stay. VBCAST puts the low bits of s[A] into every element. -/
def Obligations.ElementwiseResults : Prop :=
  ∀ (core : Fin 32) (f : Fields) (s : State),
    let c := s.core core
    let ty := Fields.etype f
    let rm := Fields.rm f
    let sat := Fields.sat f
    let elem := fun (r : BitVec 6) (i : Nat) => valOf ty (element ty (c.wide r.toNat).toNat i)
    let writes := fun l : List Nat => Host.Outcome.next
      (s.stepped core (c.setWide f.d.toNat (BitVec.ofNat 4096 (putElems (c.wide f.d.toNat).toNat (widthOf ty) l))))
    let each := fun op : Nat → Val => writes ((upTo (countOf ty)).map fun i => encodeVal ty rm sat (op i))
    (s.runs core [f.d.toNat, f.a.toNat, f.b.toNat] ∧ zeroElse f { mod := 0xFE, d := true, a := true, b := true } ∧ !isMx ty →
      exec (.vadd core f) s = each (fun i => addVal rm (elem f.a i) (elem f.b i))
      ∧ exec (.vsub core f) s = each (fun i => addVal rm (elem f.a i) (negVal (elem f.b i)))
      ∧ exec (.vmul core f) s = each (fun i => mulVal (elem f.a i) (elem f.b i))
      ∧ exec (.vfma core f) s = each (fun i => addVal rm (mulVal (elem f.a i) (elem f.b i)) (elem f.d i))
      ∧ exec (.vmax core f) s = each (fun i => maxVal (elem f.a i) (elem f.b i))
      ∧ exec (.vmin core f) s = each (fun i => minVal (elem f.a i) (elem f.b i)))
    ∧ (s.runs core [f.d.toNat] ∧ zeroElse f { mod := 0xF0, d := true, a := true } ∧ scalarFields [f.a] ∧ !isMx ty →
      exec (.vbcast core f) s = writes (List.replicate (countOf ty) (c.sreg f.a.toNat).toNat))

/-- R291 to R293, R299, R300: conversion, reductions and the MX instructions. VCVT converts cvtCount elements from byte IMM [8:0] of w[A] to byte IMM
[24:16] of w[D]; VRSUM's order of FP32 additions is a free value; VQMX writes elements and scales; MXSPLIT splits stored blocks. -/
def Obligations.ConversionsAndReductions : Prop :=
  ∀ (core : Fin 32) (f : Fields) (s : State),
    let c := s.core core
    let ty := Fields.etype f
    let rm := Fields.rm f
    let sat := Fields.sat f
    let fmt := Fields.fmt f
    let lo := f.imm.toNat % 512
    let hi := f.imm.toNat / 65536
    let va := (c.wide f.a.toNat).toNat
    let elems := (upTo (countOf ty)).map (element ty va)
    let put := fun (c : Core) (r : BitVec 6) (at_ n v : Nat) =>
      c.setWide r.toNat (BitVec.ofNat 4096 (putBits (c.wide r.toNat).toNat at_ n v))
    (s.runs core [f.d.toNat, f.a.toNat] ∧ zeroElse f { mod := 0xFE, d := true, a := true, x := 0xF00000, imm := 0x1FF01FF } ∧ !isMx ty ∧ !isMx fmt
        ∧ cvtPlace ty lo ∧ cvtPlace fmt hi ∧ 8 * lo + cvtCount ty fmt * widthOf ty ≤ 4096 ∧ 8 * hi + cvtCount ty fmt * widthOf fmt ≤ 4096 →
      exec (.vcvt core f) s = .next (s.stepped core (put c f.d hi (cvtCount ty fmt * widthOf fmt / 8)
        (packElems (widthOf fmt) ((upTo (cvtCount ty fmt)).map fun i => encodeVal fmt rm sat (valOf ty (element ty (va / 2 ^ (8 * lo)) i)))))))
    ∧ (s.runs core [f.a.toNat] ∧ zeroElse f { mod := 0xFE, d := true, a := true } ∧ scalarFields [f.d] ∧ !isMx ty →
      let add := fun x y : Val => ofFp32 (encodeVal 0 rm sat (addVal rm x y))
      exec (.vrsum core f) s = .next ((s.setFree (s.free + 1)).stepped core (c.setS f.d.toNat (BitVec.ofNat 64 (if isInt ty
        then unsign 64 (elems.map (signed (widthOf ty))).sum
        else fp32 (sumAll add (Config.sumOrder s.free) elems.length (elems.map (valOf ty))))))))
    ∧ (s.runs core [f.a.toNat] ∧ zeroElse f { mod := 0xF0, d := true, a := true } ∧ scalarFields [f.d] ∧ !isMx ty ∧ !isInt ty →
      exec (.vrmax core f) s = .next (s.stepped core (c.setS f.d.toNat (BitVec.ofNat 64 (fp32 ((elems.map (valOf ty)).foldl maxVal .nan))))))
    ∧ (s.runs core [f.d.toNat, f.a.toNat, f.b.toNat]
        ∧ zeroElse f { mod := 0xFE, d := true, a := true, b := true, x := 0xF00000, imm := 0x1FF01FF }
        ∧ (ty = 0 ∨ ty = 2) ∧ isMx fmt ∧ lo + (if ty = 0 then 4 else 8) * (4 * widthOf fmt) ≤ 512 ∧ hi + (if ty = 0 then 4 else 8) ≤ 512 →
      let n := if ty = 0 then 4 else 8
      let blocks := (upTo n).map fun j => quantBlock fmt ((upTo 32).map fun i => valOf ty (element ty va (32 * j + i)))
      exec (.vqmx core f) s = .next (s.stepped core (put (put c f.d lo (n * (4 * widthOf fmt)) (packElems (widthOf fmt) (blocks.flatMap (·.2))))
        f.b hi n (packElems 8 (blocks.map (·.1))))))
    ∧ (let n := f.x.toNat % 256
       let body := if fmt = 8 then 32 else 16
       let from_ := (c.sreg f.a.toNat + BitVec.ofNat 64 (f.imm.toNat % 2 ^ 21)).toNat
       s.runs core [f.d.toNat, f.b.toNat] ∧ zeroElse f { d := true, a := true, b := true, x := 0xF000FF, imm := 0xFF800000001FFFFF }
        ∧ scalarFields [f.a] ∧ (fmt = 8 ∨ fmt = 12) ∧ n * body ≤ 512 ∧ f.imm.toNat / 2 ^ 55 + n ≤ 512 ∧ from_ + n * (body + 1) ≤ 2097152 →
      let block := fun j : Nat => ((c.ts.readBytes from_ (n * (body + 1))).drop (j * (body + 1))).take (body + 1)
      exec (.mxsplit core f) s = .next (s.stepped core (put (put c f.d 0 (n * body) (ofLe ((upTo n).flatMap fun j => (block j).drop 1)))
        f.b (f.imm.toNat / 2 ^ 55) n (ofLe ((upTo n).flatMap fun j => (block j).take 1)))))

/-- R294 to R297: MMA from two wide registers, and the tile instructions. Every element of the tile takes the exact sum of its K products, added to what
was there, or to zero, and rounded once. -/
def Obligations.MatrixAndTiles : Prop :=
  ∀ (core : Fin 32) (f : Fields) (s : State),
    let c := s.core core
    let t := tileOf f
    let tile := (c.tile t).toNat
    let gives := fun c : Core => Host.Outcome.next (s.stepped core c)
    let fa := f.x.toNat / 2 ^ 20
    let fb := f.x.toNat / 2 ^ 16 % 16
    let mx := isMx fa || isMx fb
    let at_ := (c.sreg f.a.toNat + f.imm).toNat
    (s.runs core ([f.a.toNat, f.b.toNat] ++ if mx then [f.c.toNat] else []) ∧ f.mod.toNat % 4 = 0
        ∧ zeroElse f { mod := 0xFC, a := true, b := true, c := mx, x := if mx then 0xFFE000 else 0xFF0000 }
        ∧ fa ≠ 15 ∧ fb ≠ 15 ∧ isInt fa = isInt fb →
      exec (.mma core f) s = gives (c.setTile t (buildTile fun r k =>
        mmaElem fa fb (min (groupK fa) (groupK fb)) (bitOf f.mod.toNat 2) (c.wide f.a.toNat).toNat (c.wide f.b.toNat).toNat
          ((c.wide f.c.toNat).toNat / 2 ^ (512 * (f.x.toNat / 2 ^ 13 % 8)))
          (tileElem (if bitOf f.mod.toNat 3 then 0 else tile) r k) r k)))
    ∧ (s.runs core (eightFrom f.d.toNat) ∧ zeroElse f { mod := 0xF0, d := true } ∧ f.d.toNat ≤ 56 →
      exec (.mvaw core f) s = gives ((upTo 8).foldl (fun c j => c.setWide (f.d.toNat + j) (BitVec.ofNat 4096 (tile / 2 ^ (4096 * j)))) c))
    ∧ (s.runs core (eightFrom f.a.toNat) ∧ zeroElse f { mod := 0xF0, a := true } ∧ f.a.toNat ≤ 56 →
      exec (.mvwa core f) s = gives (c.setTile t (packElems 4096 ((eightFrom f.a.toNat).map fun r => (c.wide r).toNat))))
    ∧ (s.runs core [] ∧ zeroElse f { mod := 0xF0, a := true, imm := allImm } ∧ scalarFields [f.a] ∧ at_ + 4096 ≤ 2097152 ∧ at_ % 64 = 0 →
      exec (.mvat core f) s = gives { c with ts := c.ts.writeBytes at_ (leBytes 4096 tile) }
      ∧ exec (.mvta core f) s = gives (c.setTile t (ofLe (c.ts.readBytes at_ 4096))))
    ∧ (s.runs core [] ∧ zeroElse f { mod := 0xF0 } → exec (.tclr core f) s = gives (c.setTile t 0))
    ∧ (s.runs core [] ∧ zeroElse f { mod := 0xF0, d := true } ∧ scalarFields [f.d] →
      let has := fun p : Nat → Bool => tileCount tile p
      exec (.tstat core f) s = gives (c.setS f.d.toNat (BitVec.ofNat 64 (has (fun b => decide (ofFp32 b = .nan))
        + has (fun b => decide (ofFp32 b = .inf false) || decide (ofFp32 b = .inf true)) * 2 ^ 16
        + has (fun b => decide (b = 0x7FFFFFFF) || decide (b = 0x80000000)) * 2 ^ 32))))

/-- R301 to R303: EXP2, the step of an online softmax, and the top-k record. The result of EXP2 element by element, where the last places of an FP32 2^x
that R302 leaves open are what Config.exp2Pick picks for it; of SMX the new m and l, the P registers and the rescaled tiles, each from its row's results;
the record that TKINIT writes; the record that TOPK leaves. R303: offering an element to a top-k record that has no more than K entries leaves no more
than K, does not change it for a NaN, and brings in nothing but the element offered. -/
def Obligations.SoftmaxAndTopkResults : Prop :=
  (
  ∀ (core : Fin 32) (f : Fields) (s : State),
    let c := s.core core
    let fmt := Fields.fmt f
    let at_ := (c.sreg f.a.toNat + f.imm).toNat
    let trec := (c.sreg f.c.toNat + f.imm).toNat
    let k := (c.sreg f.b.toNat).toNat
    let rk := c.load trec 4
    let rn := c.load (trec + 4) 4
    (s.runs core [f.d.toNat, f.a.toNat] ∧ zeroElse f { mod := 0xC0, d := true, a := true, x := 0xF00000 } →
      (fmt = 2 → exec (.exp2 core f) s = .next ((s.setFree (s.free + 1)).stepped core (c.setWide f.d.toNat (BitVec.ofNat 4096
        (packElems 16 ((upTo 256).map fun i => encodeVal 2 0 false (exp2Val (valOf 2 (element 2 (c.wide f.a.toNat).toNat i)))))))))
      ∧ (fmt = 0 → exec (.exp2 core f) s = .next ((s.setFree (s.free + 1)).stepped core (c.setWide f.d.toNat (BitVec.ofNat 4096
        (packElems 32 ((upTo 128).map fun i => exp2Fp32 (Config.exp2Pick s.free i) (valOf 0 (element 0 (c.wide f.a.toNat).toNat i)))))))))
    ∧ (let regs := if fmt = 3 then 2 else 4
       let ncol := f.imm.toNat / 65536
       s.runs core (f.a.toNat :: (upTo regs).map (f.d.toNat + ·))
        ∧ zeroElse f { mod := 0xF0, a := true, d := true, x := 0xF00000, imm := 0x3FFFFF } ∧ (fmt = 3 ∨ fmt = 2)
        ∧ bitOf f.imm.toNat (tileOf f) = false ∧ 1 ≤ ncol ∧ ncol ≤ 32 ∧ f.d.toNat + regs ≤ 64 →
       let ml := (c.wide f.a.toNat).toNat
       let rows := (upTo 32).map fun r => smxRow (fun i => Config.exp2Pick s.free (64 * r + i)) (valOf 0 (element 0 ml r))
         (valOf 0 (element 0 ml (32 + r))) ((upTo ncol).map fun i => ofFp32 (tileElem (c.tile (tileOf f)).toNat r i))
       let mlNew := BitVec.ofNat 4096 (putElems ml 32 (rows.map (fun x => fp32 x.1) ++ rows.map fun x => fp32 x.2.1))
       let scores := fun j : Nat => rows.flatMap fun x =>
         (upTo (32 / regs)).map fun i => encodeVal fmt 0 false (x.2.2.2.getD (j * (32 / regs) + i) (.fin false 0 0))
       let pNew := fun (c : Core) (j : Nat) => c.setWide (f.d.toNat + j) (BitVec.ofNat 4096 (packElems (widthOf fmt) (scores j)))
       let scaled := fun (c : Core) (t : Nat) => c.setTile t (buildTile fun r i =>
         fp32 (mulVal (ofFp32 (tileElem (c.tile t).toNat r i)) ((rows.map fun x => x.2.2.1).getD r .nan)))
       exec (.smx core f) s = .next ((s.setFree (s.free + 1)).stepped core
         (((upTo 16).filter (bitOf (f.imm.toNat % 65536))).foldl scaled ((upTo regs).foldl pNew (c.setWide f.a.toNat mlNew)))))
    ∧ (s.runs core [] ∧ zeroElse f { mod := 0xC0, a := true, b := true, imm := allImm } ∧ scalarFields [f.a, f.b] ∧ at_ % 64 = 0
        ∧ 1 ≤ k ∧ k ≤ 256 ∧ at_ + 64 + 8 * k ≤ 2097152 →
      exec (.tkinit core f) s = .next (s.stepped core { c with ts := c.ts.writeBytes at_ (leBytes 64 k) }))
    ∧ (s.runs core [f.a.toNat] ∧ zeroElse f { mod := 0xC0, a := true, b := true, c := true, x := 0xF00000, imm := allImm }
        ∧ scalarFields [f.b, f.c] ∧ (fmt = 0 ∨ fmt = 2) ∧ trec % 64 = 0 ∧ 1 ≤ rk ∧ rk ≤ 256 ∧ rn ≤ rk ∧ trec + 64 + 8 * rk ≤ 2097152 →
      let old := (upTo rn).map fun i => (c.load (trec + 64 + 8 * i) 4, c.load (trec + 68 + 8 * i) 4)
      let new := ((upTo (countOf fmt)).map fun i =>
        (element fmt (c.wide f.a.toNat).toNat i * (if fmt = 0 then 1 else 65536), (k + i) % 2 ^ 32)).foldl (topOffer rk) old
      exec (.topk core f) s = .next (s.stepped core ((c.store (trec + 4) 4 new.length).store (trec + 64) (8 * new.length)
        (packElems 64 (new.map fun e => e.1 + e.2 * 2 ^ 32))))))
  ∧ (
  ∀ (k : Nat) (l : List (Nat × Nat)) (x : Nat × Nat), l.length ≤ k →
    (topOffer k l x).length ≤ k
    ∧ (ofFp32 x.1 = .nan → topOffer k l x = l)
    ∧ (∀ e ∈ topOffer k l x, e ∈ l ∨ e = x))

/-- R304, R305: the stream instructions. SCFG takes a descriptor and leaves the context IDLE; SGO starts it from BASE, or after ABSENT or HELD lets it go
on; SWAIT completes when the bytes have moved or the context is not in RUN; SSTAT reads; SSTOP stops. R262, R307: STREAM_END and STREAM_STOP on a
core that stands. What is left of a running stream moves, up to its LENGTH or up to what it cannot pass; a step whose STEPEND waits for it then
ends. -/
def Obligations.StreamsRunAndEnd : Prop :=
  (
  ∀ (core : Fin 32) (f : Fields) (s : State), s.runs core [] →
    let c := s.core core
    let x := ctxOf f
    let t := c.stream x
    let gives := fun c : Core => Host.Outcome.next (s.stepped core c)
    let target := f.imm.toNat / 2 ^ 61 % 4
    let st := (c.sreg f.c.toNat).toNat
    let new : Stream := ⟨true, bitOf f.imm.toNat 63, (c.sreg f.a.toNat).toNat, (c.sreg f.b.toNat).toNat, st / 2 ^ 32, st % 2 ^ 32, target,
      f.imm.toNat % 2 ^ 21, ssIdle, 0, 0, [], none, none⟩
    let used := 0xE000000000000000 + (if target = 0 then 0 else if target = 1 then 63 else 0x1FFFFF)
    (zeroElse f { mod := 0xE0, a := true, b := true, c := true, imm := used }
        ∧ scalarFields [f.a, f.b, f.c] ∧ target ≠ 3 ∧ t.status ≠ ssRun ∧ new.valid → exec (.scfg core f) s = gives (c.setStream x new))
    ∧ (zeroElse f { mod := 0xE0 } ∧ t.configured →
      (t.status = ssIdle ∨ t.status = ssEnd ∨ t.status = ssPoison ∨ t.status = ssDenied → exec (.sgo core f) s
        = gives (c.setStream x { t with status := ssRun, moved := 0, feed := [], ready := 0, why := none, skip := none }))
      ∧ (t.status = ssAbsent ∨ t.status = ssHeld → exec (.sgo core f) s
        = gives (c.setStream x { t with status := ssRun, ready := 0, why := none, skip := if t.ready ≤ s.now then t.why else none })))
    ∧ (zeroElse f { mod := 0xE0, d := true, a := true } ∧ scalarFields [f.d, f.a]
        ∧ (t.status ≠ ssRun ∨ (c.sreg f.a.toNat).toNat ≤ t.moved) →
      exec (.swait core f) s = gives (c.setS f.d.toNat (BitVec.ofNat 64 (t.status * 2 ^ 60 + t.addrAt t.moved % 2 ^ 46))))
    ∧ (zeroElse f { mod := 0xE0, d := true, imm := 3 } ∧ scalarFields [f.d] →
      (f.imm = 0 → exec (.sstat core f) s = gives (c.setS f.d.toNat (BitVec.ofNat 64 (t.status * 2 ^ 60 + t.addrAt t.moved % 2 ^ 46))))
      ∧ (f.imm = 1 → exec (.sstat core f) s = gives (c.setS f.d.toNat (BitVec.ofNat 64 t.moved)))
      ∧ (f.imm = 2 → exec (.sstat core f) s
          = gives (c.setS f.d.toNat (BitVec.ofNat 64 (if t.ready < 2 ^ 64 - 1 then s.shown t.ready else t.ready)))))
    ∧ (zeroElse f { mod := 0xE0 } →
      exec (.sstop core f) s = gives (c.setStream x { t with status := ssIdle, feed := [], ready := 0, why := none })))
  ∧ (
  ∀ (core : Fin 32) (ctx : Fin 8) (s : State), (s.core core).running → ((s.core core).stream ctx).status = ssRun → s.coreGone core = false →
    let t := s.streamOut core ctx
    (((t.core core).stream ctx).status = ssEnd → exec (.streamEnd core ctx) s = .next (t.tryEnd core))
    ∧ (3 ≤ ((t.core core).stream ctx).status → exec (.streamStop core ctx) s = .next (t.tryEnd core))
    ∧ ((t.core core).ending = none → t.tryEnd core = t))

/- ## Requests to the object dictionary -/

/-- R36, R37, R41, R47: QUIET_ENTER begins the way into Quiet, QUIET_EXIT the exit, and POWER_CAP a cap that counts from the boundary at which a write at
this stamp counts. Each is answered OK. -/
def Obligations.PowerRequestsTakeEffect : Prop :=
  ∀ (rq : Rq) (p : List Byte) (s : State),
    let u := s.openSess rq.src
    let v := ofLe p
    (s.takes rq .quietEnter 0 0 p ∧ v = 1 ∧ u.serving ∧ u.power.quiet = .none ∧ u.quietFits →
      exec (.quietEnter rq p) s = .next ((u.setPower { u.power with quiet := .calls }).answers rq .quietEnter 0 0 rOk))
    ∧ (s.takes rq .quietExit 0 0 p ∧ v = 1 ∧ u.quieted → exec (.quietExit rq p) s = .next (u.startExit.2.answers rq .quietExit 0 0 rOk))
    ∧ (s.takes rq .powerCap 0 0 p ∧ 300 ≤ v ∧ v ≤ 650 →
      ∃ t : State, exec (.powerCap rq p) s = .next (t.answers rq .powerCap 0 0 rOk)
        ∧ t.val .powerCap 0 0 = v ∧ t.power = { u.power with capAt := u.decidedAt } ∧ t.pages = s.pages ∧ t.ports = s.ports)

/-- R117, R118, R108: CONFIG_COMMIT holds the staging copy until the boundary at which a write at this stamp counts; CONFIG_DISCARD empties it; ROOM_ERASE
of a room that is Off erases it. -/
def Obligations.RoomRequestsTakeEffect : Prop :=
  ∀ (rq : Rq) (p : List Byte) (k : Fin 64) (s : State), ofLe p = 1 →
    let u := s.openSess rq.src
    (s.takes rq .configCommit 0 0 p ∧ u.adm.commitAt = none →
      exec (.configCommit rq p) s = .next ((u.setAdm { u.adm with
        commitAt := some (4096 * (u.time.course + if u.time.pos ≤ 3968 then 1 else 2)), status := 1 }).answers rq .configCommit 0 0 rOk))
    ∧ (s.takes rq .configDiscard 0 0 p ∧ u.adm.commitAt = none →
      exec (.configDiscard rq p) s = .next ((u.setAdm { u.adm with staging := [] }).answers rq .configDiscard 0 0 rOk))
    ∧ (s.takes rq .roomErase k 0 p ∧ (u.fn (.room k)).state = .off ∧ ((u.eraseRoom k).fn (.room k)).cause ≠ 8 →
      exec (.roomErase rq k p) s = .next ((u.eraseRoom k).answers rq .roomErase k 0 rOk))

/-- R74, R104, R460: PORT_ROLE is written where another port stays a Companion; the role in force changes only when the port next starts. R457 to R459,
R47: a write to a function's entry. On or Off latches the request to the boundary at which it counts; Starting and Stopping take a pending flag at
once; the state itself does not change, and no other function's word does. -/
def Obligations.RolesAndFunctionRequests : Prop :=
  (
  ∀ (rq : Rq) (port : Fin 32) (p : List Byte) (s : State),
    let u := s.openSess rq.src
    s.takes rq .portRole port 0 p ∧ (ofLe p = 1 ∨ ((∃ q < 32, q ≠ port.val ∧ u.wantedRole q = .companion)
        ∧ (ofLe p = 2 ∨ ∀ k < 64, u.owns port k = false))) →
      ∃ t : State, exec (.portRole rq port p) s = .next (t.answers rq .portRole port 0 rOk)
        ∧ t.val .portRole port 0 = ofLe p ∧ t.ports = s.ports ∧ t.funcs = s.funcs)
  ∧ (
  ∀ (rq : Rq) (f : FnId) (s : State),
    let u := s.openSess rq.src
    let e := fnEnt f
    let w := u.fn f
    (s.takes rq e.1 e.2.1 e.2.2 (leBytes 2 1) →
      exec (.functionEnable rq f) s = .next ((u.setFn f (match w.state with
        | .starting => { w with want := true, pendDis := false }
        | .stopping => { w with want := true, pendEn := true }
        | _ => { w with want := true, latched := some (true, u.decidedAt) })).answers rq e.1 e.2.1 e.2.2 rOk))
    ∧ (s.takes rq e.1 e.2.1 e.2.2 (leBytes 2 0) ∧ (∀ p, f = .port p → u.lastCompanion p = false) →
      exec (.functionDisable rq f) s = .next ((u.setFn f (match w.state with
        | .starting => { w with want := false, pendDis := true }
        | .stopping => { w with want := false, pendEn := false }
        | _ => { w with want := false, latched := some (false, u.decidedAt) })).answers rq e.1 e.2.1 e.2.2 rOk))
    ∧ (∀ g : FnId, g ≠ f → ∀ w, (u.setFn f w).fn g = u.fn g))

/-- R66, R226, R249, R385: the windowed reads. Each answers OK with the block at the session's cursor and moves the cursor on. -/
def Obligations.WindowedReadsAnswer : Prop :=
  ∀ (rq : Rq) (s : State),
    let u := s.openSess rq.src
    let got := fun (e : Ent) (x : List Byte × State) => Host.Outcome.next (x.2.answers rq e 0 0 (0, x.1))
    (s.gives rq .tallyBlock 0 0 → exec (.tallyBlock rq) s = got .tallyBlock (getTallyBlock rq.src u) ∧ (getTallyBlock rq.src u).1.length = 256)
    ∧ (s.gives rq .manifestBlock 0 0 →
        exec (.manifestBlock rq) s = got .manifestBlock (getManifestBlock rq.src u) ∧ (getManifestBlock rq.src u).1.length = 256)
    ∧ (s.gives rq .crashBlock 0 0 ∧ (getCrashBlock rq.src u).1.length ≤ 256 → exec (.crashBlock rq) s = got .crashBlock (getCrashBlock rq.src u))
    ∧ (s.gives rq .rubbleBlock 0 0 →
        exec (.rubbleBlock rq) s = got .rubbleBlock (getRubbleBlock rq.src u) ∧ (getRubbleBlock rq.src u).1.length = 128)

/-- R202: a table image that checks fills the selected slot, unless it is bound; TABLE_BIND waits for the boundary at which it counts; TABLE_FREE empties a slot
that nothing binds. R205: PACKED_LOAD_GO starts a load of a room that is On, from one window into another that is neither sealed nor a view. -/
def Obligations.TableRequestsTakeEffect : Prop :=
  ∀ (rq : Rq) (room : Fin 64) (id : Fin 32) (p : List Byte) (s : State),
    let u := s.openSess rq.src
    let v := ofLe p
    let slot := u.sessVal rq.src .tableLoadSlot
    (s.takes rq .tableLoadImage 0 0 p ∧ p.length = 136 ∧ tableCheck p = 0 ∧ u.slotBound slot = false →
      exec (.tableLoadImage rq p) s
        = .next ((u.setCodec { u.codec with slots := Tbl.put u.codec.slots slot ⟨p, false⟩ }).answers rq .tableLoadImage 0 0 rOk))
    ∧ (s.takes rq .tableBind room id p ∧ u.tableCount room id = 0 ∧ u.val .roomTableMode room 0 = 0
        ∧ (bitOf v 15 = false ∨ (Tbl.find u.codec.slots (v % 4096)).isSome) →
      exec (.tableBind rq room id p) s = .next (((u.setVal .tableBind room id v).setCodec { u.codec with
        waiting := u.codec.waiting ++ [(u.decidedAt, 32 * room.val + id.val, if bitOf v 15 then some (v % 4096) else none)] }).answers rq .tableBind room id rOk))
    ∧ (s.takes rq .tableFree 0 0 p ∧ u.slotBound v = false ∧ v < 4096 →
      exec (.tableFree rq p) s = .next ((u.setCodec { u.codec with slots := Tbl.del u.codec.slots v }).answers rq .tableFree 0 0 rOk))
    ∧ (∀ w d, s.takes rq .packedLoadGo room 0 p ∧ v = 1 ∧ (u.load room).state ≠ 1 ∧ u.roomOn room →
      let src := u.val .packedLoadSrc room 0
      let dst := u.val .packedLoadDst room 0
      let n := u.val .packedLoadPages room 0
      u.windowAt room src = some w ∧ u.windowAt room dst = some d ∧ w ≠ d ∧ src % 64 = 0 ∧ dst % 4096 = 0
        ∧ dst + 4096 * n ≤ u.val .windowBase room d + u.val .windowSize room d
        ∧ src + 128 * n ≤ u.val .windowBase room w + u.val .windowSize room w ∧ attrSealed (u.attr room d) = false ∧ u.viewOf room d = none →
      exec (.packedLoadGo rq room p) s = .next ((u.setLoad room ⟨src, dst, n, 0, 1, 0, 0, 0⟩).answers rq .packedLoadGo room 0 rOk))

/-- R210 to R214, R219, R222: a shelf is allotted to a room, given ranges, and told to shelve, unshelve or release; what OUTCOME 0 answers is OK. -/
def Obligations.ShelfRequestsTakeEffect : Prop :=
  ∀ (rq : Rq) (p : List Byte) (s : State),
    let u := s.openSess rq.src
    let n := u.sessVal rq.src .shelfSelect
    let f := u.shelf n
    (s.takes rq .shelfRoom 0 0 p ∧ ofLe p < 64 ∧ f.room ≠ ofLe p ∧ f.vers = [] ∧ f.job = none →
      exec (.shelfRoom rq p) s = .next ((u.setShelf n { Shelf.init with
        room := ofLe p, recording := decide (u.recorders < 256), bases := f.bases,
        highest := f.bases.foldl (fun m b => max m b.version) 0 }).answers rq .shelfRoom 0 0 rOk))
    ∧ (let l := rangesOf 16 p
       let others := (u.shelves.filter fun e => decide (e.1 ≠ n) && decide (e.2.room = f.room)).flatMap fun e => e.2.ranges
       s.takes rq .shelfRanges 0 0 p ∧ p.length = 256 ∧ f.room ≠ 255 ∧ f.vers = [] ∧ f.job = none ∧ (∀ r ∈ l, r.1 % 4096 = 0 ∧ r.2 % 4096 = 0) ∧ apart l
        ∧ (∀ r ∈ l, others.any (rangesMeet r) = false ∧ u.meetsPool f.room r = false) ∧ u.rangesFit f.room l →
      exec (.shelfRanges rq p) s = .next ((u.setShelf n { f with ranges := l }).answers rq .shelfRanges 0 0 rOk))
    ∧ (∀ (op m ver : Nat) (t : State), s.takes rq .shelfCommand 0 0 p ∧ p = leBytes 1 op ++ [0] ++ leBytes 2 m ++ leBytes 4 ver
        ∧ 1 ≤ op ∧ op ≤ 3 ∧ m < 4096 ∧ ver < 2 ^ 32 ∧ (u.shelf m).room < 64
        ∧ (u.classOf rq.src = some .steward ∨ ∃ q, u.classOf rq.src = some (.tenant q) ∧ u.owns q (u.shelf m).room)
        ∧ u.shelfOp op m ver .od = (0, t) →
      exec (.shelve rq p) s = .next (t.answers rq .shelfCommand 0 0 rOk)
      ∧ exec (.unshelve rq p) s = .next (t.answers rq .shelfCommand 0 0 rOk)
      ∧ exec (.shelfRelease rq p) s = .next (t.answers rq .shelfCommand 0 0 rOk))

/-- R213, R214, R219, R343: what a shelf command sets going at a shelf without a job: a shelve that waits for its freeze, where slots, versions and version
numbers are left; an unshelve of a version the shelf retains, where its ranges fit the room and the room is On; a release of such a version, which is done
at once. A shelf with a job is busy. -/
def Obligations.ShelfJobsBegin : Prop :=
  ∀ (n version : Nat) (from_ : ShelfFrom) (v : ShelfVer) (s : State),
    let f := s.shelf n
    let job := fun op ver : Nat => s.setShelf n { f with job := some ⟨op, ver, from_, false, false, s.now, [], [], [], [], [], 0, 0, none⟩ }
    (f.job = none →
      (s.slotsLow = false ∧ f.vers.length < 32 ∧ f.highest ≠ 0xFFFFFFFF → s.shelfOp 1 n version from_ = (0, job 1 0))
      ∧ (f.vers.find? (fun x => x.version = version) = some v ∧ version ≠ 0 ∧ s.rangesFit f.room f.ranges ∧ s.roomOn f.room →
        s.shelfOp 2 n version from_ = (0, job 2 v.version))
      ∧ (f.vers.find? (fun x => x.version = version) = some v →
        let r := s.releaseShelf n v
        let at_ := r.2.shown r.2.now
        s.shelfOp 3 n version .od = (0, (r.2.updShelf n fun f => { f with result := shelfResult n 3 0 version at_ at_ v.pages.length 0 0 }).raise
          { code := 0x3803, sev := 0, unit := srcRoom f.room, args := leBytes 2 n ++ leBytes 4 version ++ leBytes 4 r.1 })))
    ∧ (f.job.isSome → ∀ op, s.shelfOp op n version from_ = (2, s))

/-- R234, R240, R246: HOST_FAILED takes the port's link down as a crash; a region is defined in whole pages of one durable publisher window while it has
no version, and deleted while none is open; a window becomes a view of a region of its own size. R274, R275: PROG_INSTALL of an image that its digest
and its layout pass puts it into the program store under its handle; PROG_REMOVE takes the handle's current image from new calls. -/
def Obligations.PublishAndProgramRequests : Prop :=
  (
  ∀ (rq : Rq) (p : List Byte) (s : State),
    let u := s.openSess rq.src
    let v := ofLe p
    (∀ x : Fin 32, s.takes rq .hostFailed 0 0 p ∧ v = x.val ∧ (u.roleOf x = .host ∨ u.roleOf x = .companion) ∧ (u.fn (.port x)).state ≠ .off →
      exec (.hostFailed rq p) s = .next (((((u.fnTo (.port x) { u.fn (.port x) with state := .stopping, cause := 0 }).portDown x 0 true)).answers
        rq .hostFailed 0 0 rOk).retryAll))
    ∧ (∀ (g sub : Byte) (e : Ent), (e = .pubRoom ∧ sub = 1) ∨ (e = .pubBase ∧ sub = 2) ∨ (e = .pubSize ∧ sub = 3) →
      let t := u.setVal e g.toNat 0 v
      let room := t.val .pubRoom g.toNat 0
      let base := t.val .pubBase g.toNat 0
      let size := t.val .pubSize g.toNat 0
      s.takes rq e g.toNat 0 p ∧ (u.pub g.toNat).vers = [] ∧ base % 4096 = 0 ∧ size % 4096 = 0
        ∧ (room = 255 ∨ (room < 64 ∧ u.rangeIn room (fun a => attrDurable a && attrPublisher a) 17 base size)) →
      exec (.pubDefine rq (0x5900 + g.setWidth 16) sub p) s = .next (t.answers rq e g.toNat 0 rOk))
    ∧ (∀ g : Byte, s.takes rq .pubDelete g.toNat 0 p ∧ v = 1 ∧ (∀ x ∈ (u.pub g.toNat).vers, u.openViews g.toNat x.version = []) →
      exec (.pubDelete rq g p) s = .next ((u.deleteRegion g.toNat).answers rq .pubDelete g.toNat 0 rOk))
    ∧ (∀ (room : Fin 64) (w : Fin 16), s.takes rq .viewRegion room w p →
      (v = 0 → exec (.viewRegion rq room w p) s = .next ((u.unbindView room w).answers rq .viewRegion room w rOk))
      ∧ (v / 256 = 128 ∧ u.val .windowSize room w ≠ 0 ∧ u.pubDefined (v % 256) ∧ u.val .windowSize room w = u.val .pubSize (v % 256) 0
          ∧ u.poolWindow room w = false ∧ u.val .viewRegion room w ≠ v ∧ (∀ e ∈ u.pages, pageRoom e.1 ≠ room.val) →
        exec (.viewRegion rq room w p) s
          = .next (((u.unbindView room w).setVal .viewRegion room w v).answers rq .viewRegion room w rOk))))
  ∧ (
  ∀ (rq : Rq) (p : List Byte) (s : State), ofLe p = 1 →
    let u := s.openSess rq.src
    let h := u.sessVal rq.src .progSelect
    let img := u.blob .progImage 0 0 []
    let retire := (u.setCores { u.cores with progs := u.cores.progs.map fun x => if x.handle = h then { x with current := false } else x })
    let t := retire.freeProgs
    (s.takes rq .progInstall 0 0 p ∧ sha384 img = fit 48 (u.blob .progDigest 0 0 []) ∧ imageOk img ∧ handleReserved h = false
        ∧ img.length ≤ t.progFree ∧ t.cores.progs.length < 256 →
      exec (.progInstall rq p) s = .next (((t.setCores { t.cores with
          progs := t.cores.progs ++ [⟨t.cores.nextProg, h, u.val .progRooms 0 0, img, true⟩]
          nextProg := t.cores.nextProg + 1
          status := Tbl.put t.cores.status h 1 }).raise
        { code := 0x8010, sev := 1, unit := 0, args := leBytes 4 h ++ leBytes 4 img.length }).answers rq .progInstall 0 0 rOk))
    ∧ (s.takes rq .progRemove 0 0 p ∧ u.cores.progs.any (fun x => x.current && decide (x.handle = h)) →
      ∃ x : State, exec (.progRemove rq p) s = .next (x.answers rq .progRemove 0 0 rOk)
        ∧ ∀ q ∈ x.cores.progs, q.handle = h → q.current = false))

/-- R314, R325, R391, R394: a write of the Store's set-point limit, of the bank masks or of the Cistern's reserve keeps the value, beside the one that a
decision of this boundary still uses (R47); CHECK_NOW asks for a check of the pack. R480, R510: the unit that LEDGER_CLEAR_COUNTS names is kept until
the next start clears its count, and INPUT_REARM re-arms the inputs it names, which were faulty and have been seen deasserted. R473, R479: SELFTEST_FULL, with the module started,
in Foundry or Returned, makes the report of the ten kinds of unit and fails each unit that failed and is not retired; BENCH_RESTORE in Returned puts back
a retired unit that passes, and leaves one that does not. -/
def Obligations.SettingsAndBenchRequests : Prop :=
  (
  ∀ (rq : Rq) (p : List Byte) (s : State),
    let u := s.openSess rq.src
    (s.takes rq .storeSetPointMax 0 0 p →
      exec (.storeSetPointMax rq p) s
        = .next (((u.keepLate .storeSetPointMax 0 0).setVal .storeSetPointMax 0 0 (ofLe p)).answers rq .storeSetPointMax 0 0 rOk))
    ∧ (s.takes rq .bankMask 0 0 p ∧ p.length = 16 ∧ masksOk (masksOf p) →
      exec (.bankMask rq p) s = .next ((u.setBlob .bankMask 0 0 p).answers rq .bankMask 0 0 rOk))
    ∧ (s.takes rq .checkNow 0 0 p ∧ ofLe p = 1 → exec (.checkNow rq p) s = .next (u.startCheck.answers rq .checkNow 0 0 rOk))
    ∧ (s.takes rq .cisternReserve 0 0 p →
      exec (.cisternReserve rq p) s
        = .next (((u.keepLate .cisternReserve 0 0).setVal .cisternReserve 0 0 (ofLe p)).answers rq .cisternReserve 0 0 rOk))
    ∧ (s.takes rq .ledgerClearCounts 0 0 p ∧ (ofLe p < 256 + 128 ∧ 256 ≤ ofLe p ∨ 512 ≤ ofLe p ∧ ofLe p < 512 + 32 ∨ 768 ≤ ofLe p ∧ ofLe p < 768 + 32) →
      exec (.ledgerClearCounts rq p) s
        = .next ((u.setStart { u.start with clears := u.start.clears ++ [ofLe p] }).answers rq .ledgerClearCounts 0 0 rOk))
    ∧ (s.takes rq .inputRearm 0 0 p ∧ 1 ≤ ofLe p ∧ ofLe p ≤ 3
        ∧ (∀ i < 2, bitOf (ofLe p) i → (u.input i).faulty ∧ (u.input i).seen) →
      exec (.inputRearm rq p) s = .next ((((upTo 2).filter fun i => bitOf (ofLe p) i).foldl (fun s i => s.rearm
        (match rq.src with | .port q => q.val | _ => 0) i) u).answers rq .inputRearm 0 0 rOk)))
  ∧ (
  ∀ (rq : Rq) (p : List Byte) (s : State),
    let u := s.openSess rq.src
    (∀ (failed untested : List (BitVec 12)), s.takes rq .selftestFull 0 0 p ∧ ofLe p = 1 ∧ (u.lifecycle = 0 ∨ u.lifecycle = 3) ∧ u.start.step = 14 →
      let gone := fun kind : Nat => (u.retired.filter fun x => decide (unitKind (x % 1024) = some kind)).length
      let row := fun kind : Nat => [kindCount kind - gone kind - ofKind kind untested, ofKind kind failed, ofKind kind untested, 0]
      let fails := fun (t : State) (x : BitVec 12) => match unitKind (x.toNat % 1024) with
        | some kind => if t.isRetired (x.toNat / 1024) (x.toNat % 1024) then t else t.failUnit kind (x.toNat / 1024) (x.toNat % 1024)
        | none => t
      exec (.selftestFull rq p failed untested) s = .next ((failed.foldl fails (u.setTest { u.test with
        report := (upTo 10).flatMap fun k => row (k + 1) })).answers rq .selftestFull 0 0 rOk))
    ∧ (∀ pass : Bool, s.takes rq .benchRestore 0 0 p ∧ u.lifecycle = 3 ∧ u.isRetired (ofLe p / 4096 % 4) (ofLe p % 1024) →
      exec (.benchRestore rq p pass) s
        = .next ((if pass then u.restoreUnit (ofLe p / 4096 % 4) (ofLe p % 1024) else u).answers rq .benchRestore 0 0 rOk)))

/-- R409, R410, R415 to R417, R428, R429, R412, R413: the security requests. LC_ADVANCE burns the next lifecycle state, writes LIFECYCLE_CHANGE and starts
the module again, from Fielded to Returned by an erase; a firmware image that passes R415 is staged, activated, and once it runs in trial committed; FW_RESTART starts the module again out
of Quiet; a release is noted; a response is set, not below what is set but from the bench; a room that waits for a key gets one. -/
def Obligations.SecurityRequestsTakeEffect : Prop :=
  ∀ (rq : Rq) (p : List Byte) (s : State),
    let u := s.openSess rq.src
    let v := ofLe p
    (s.takes rq .lcAdvance 0 0 p ∧ u.lcAllowed v ∧ u.sec.erasing = none ∧ ¬ (u.lifecycle = 2 ∧ v = 3) →
      exec (.lcAdvance rq p) s = .next ((((u.setSec { u.sec with log := u.sec.log ++ [v] }).raise
        { code := 0x1001, sev := 1, unit := 1, args := leBytes 1 u.lifecycle ++ leBytes 1 v ++ leBytes 1 1 }).startAsk 4).answers rq .lcAdvance 0 0 rOk))
    ∧ (s.takes rq .lcAdvance 0 0 p ∧ u.lcAllowed v ∧ u.sec.erasing = none ∧ u.lifecycle = 2 ∧ v = 3 →
      exec (.lcAdvance rq p) s = .next ((u.eraseNow 255 3).answers rq .lcAdvance 0 0 rOk))
    ∧ (∀ i, s.odLive rq.src ∧ (s.classOf rq.src).isSome ∧ u.barred rq.src .fwStage 0 0 (some v) noCalls = none
        ∧ lengthFits Ent.fwStage.row p.length ∧ u.stageSlot = some i →
      (fwCheck u.sec.counter p = 0 → ∃ t : State, exec (.fwStage rq p) s = .next (t.answers rq .fwStage 0 0 rOk)
        ∧ (i < u.sec.slots.length → (t.slot i).mode = .staged ∧ (t.slot i).svn = (imageByte p 1).toNat))
      ∧ (∀ why, fwCheck u.sec.counter p = why ∧ why ≠ 0 → ∃ t : State, exec (.fwStage rq p) s = .next (t.answers rq .fwStage 0 0 (rWhy stRefused why))
        ∧ (i < u.sec.slots.length → (t.slot i).mode = .empty)))
    ∧ (∀ i, s.takes rq .fwActivate 0 0 p ∧ v = 1 ∧ (upTo 2).find? (fun i => (u.slot i).mode = .staged) = some i →
      exec (.fwActivate rq p) s = .next ((u.setSlot i { u.slot i with mode := .trial }).answers rq .fwActivate 0 0 rOk))
    ∧ (s.takes rq .fwRestart 0 0 p ∧ v = 1 ∧ u.power.mode = .quiet →
      exec (.fwRestart rq p) s = .next ((u.startAsk 5).answers rq .fwRestart 0 0 rOk))
    ∧ (s.takes rq .fwCommit 0 0 p ∧ v = 1 ∧ (u.slot u.sec.running).mode = .trial ∧ u.start.step = 14 ∧ u.sec.running < 2 ∧ u.sec.slots.length = 2 →
      ∃ t : State, exec (.fwCommit rq p) s = .next (t.answers rq .fwCommit 0 0 rOk)
        ∧ (t.slot u.sec.running).mode = .committed ∧ t.sec.counter = max u.sec.counter (u.slot u.sec.running).svn ∧ t.sec.log = s.sec.log)
    ∧ (s.takes rq .lockRelease 0 0 p ∧ v = 1 ∧ u.sec.lockState ≠ 0 ∧ u.sec.hard &&& u.sec.tripped = 0 →
      exec (.lockRelease rq p) s = .next ((u.setSec { u.sec with
        release := some (match rq.src with | .port q => q.val | _ => 0) }).answers rq .lockRelease 0 0 rOk))
    ∧ (∀ k : Fin 6, s.takes rq .alarmResponse 0 k p ∧ (u.alarmSet k ≤ v ∨ rq.src = .uart) →
      exec (.alarmResponse rq k p) s = .next ((u.setVal .alarmResponse 0 k v).answers rq .alarmResponse 0 k rOk))
    ∧ (∀ k : Fin 64, s.takes rq .roomKeyGenerate k 0 p ∧ v = 1 ∧ u.keyWanted k →
      exec (.roomKeyGenerate rq k p) s = .next ((u.drawKey.2.loadKey k u.drawKey.1 1).answers rq .roomKeyGenerate k 0 rOk))
    ∧ (∀ k : Fin 64, s.takes rq .roomKeyImport k 0 p ∧ s.secured rq.src ∧ p.length = 64 ∧ u.keyWanted k
        ∧ keysEqual (BitVec.ofNat 512 v) = false →
      exec (.roomKeyImport rq k p) s = .next ((u.loadKey k (BitVec.ofNat 512 v) 2).answers rq .roomKeyImport k 0 rOk))

/-- R486, R498, R501: the vault's requests: a join that no pool conflict stands against checks the module itself, unless it is Joined, and tries every peer
that is not joined; a module that no page has moved from or to leaves; a Joined peer is declared failed; a gather calls the room's pages home. -/
def Obligations.VaultRequestsTakeEffect : Prop :=
  ∀ (rq : Rq) (p : List Byte) (s : State),
    let u := s.openSess rq.src
    (∀ views, s.takes rq .vaultJoin 0 0 p ∧ ofLe p = 1 ∧ u.poolConflict = false →
      exec (.vaultJoin rq p views) s = .next ((((if u.vault.mode = .joined then u else u.joinSelf).tryPeers State.notJoined views).retryAll).answers
        rq .vaultJoin 0 0 rOk))
    ∧ (s.takes rq .vaultLeave 0 0 p ∧ ofLe p = 1 ∧ u.vault.records = [] ∧ u.vault.here = [] ∧ u.vault.leaving = []
        ∧ u.vault.far.any (fun e => decide (e.2 = FarMode.landed)) = false →
      exec (.vaultLeave rq p) s = .next ((((u.vault.far.foldl (fun s e => s.dropReserve e.1) u).setVault { u.vault with
        mode := .standalone, peers := [], far := [], lostPages := [], lossSaid := [], again := [], gather := [] }).retryAll).answers rq .vaultLeave 0 0 rOk))
    ∧ (s.takes rq .peerFailed 0 0 p ∧ (u.peer (ofLe p)).st = .joined →
      exec (.peerFailed rq p) s = .next ((u.losePeer (ofLe p) 1).answers rq .peerFailed 0 0 rOk))
    ∧ (∀ room : Fin 64, s.takes rq .poolGather room 0 p ∧ ofLe p = 1 ∧ u.vault.mode = .joined →
      let ks := (u.vault.records.map (·.1)).filter fun k => decide (pageRoom k = room.val) && !u.vault.gather.contains k
      exec (.poolGather rq room p) s
        = .next ((((u.setVault { u.vault with gather := u.vault.gather ++ ks }).settleGather).retryAll).answers rq .poolGather room 0 rOk))

/-- R438, R439, R443: a WRITE of an entry whose only rule is that the value is kept sets it and answers OK; one to no entry answers NO_ENTRY; both leave
every other entry's value as it was. -/
def Obligations.WriteSetsAnEntry : Prop :=
  ∀ (rq : Rq) (index : BitVec 16) (sub : Byte) (p : List Byte) (s : State),
    let u := s.openSess rq.src
    (∀ e i j, Ent.at index.toNat sub.toNat = some (e, i, j) ∧ s.takes rq e i j p
        ∧ (e = .notifyMinSeverity ∨ e = .readDisturbLimit ∨ e = .rhThreshold ∨ e = .laneFecLimit ∨ e = .holdThreshold ∨ e = .braceLimit) →
      let t := (u.keepLate e i j).setVal e i j (ofLe p)
      exec (.write rq index sub p) s = .next (t.answers rq e i j rOk)
      ∧ t.val e i j = ofLe p
      ∧ ∀ e' i' j', e'.row.key i' j' ≠ e.row.key i j → t.val e' i' j' = s.val e' i' j')
    ∧ (Ent.at index.toNat sub.toNat = none ∧ s.odLive rq.src ∧ (s.classOf rq.src).isSome →
      exec (.write rq index sub p) s = .next (u.odAnswer rq index.toNat sub.toNat (1, [0])))

/-- R448: block transfers. BLOCK_START opens a transfer of so many bytes; BLOCK_DATA in order adds to it; BLOCK_READ answers up to 256 bytes from an
offset; BLOCK_END of a whole transfer does what a write of its bytes does. A transfer idle for 5,000,000 courses is given up. -/
def Obligations.BlockTransfers : Prop :=
  ∀ (rq : Rq) (index : BitVec 16) (sub : Byte) (p : List Byte) (e : Ent) (i j : Nat) (s : State),
    Ent.at index.toNat sub.toNat = some (e, i, j) → s.odLive rq.src → (s.classOf rq.src).isSome →
    let u := s.openSess rq.src
    let key := e.row.key i j
    (u.barred rq.src e i j (some 0) u.callRooms = none ∧ blockEntry e ∧ p.length = 4 ∧ octetsFit e (ofLe p) ∧ u.transferElsewhere rq.src key = false →
      exec (.blockStart rq index sub p) s
        = .next ((u.putTransfer rq.src ⟨key, ofLe p, [], (rq.seq.toNat + 1) % 65536, u.now⟩).odAnswer rq index.toNat sub.toNat rOk))
    ∧ (∀ t, u.power.keeperDown = false ∧ u.transfer rq.src key = some t ∧ p ≠ [] ∧ rq.seq.toNat = t.nextSeq ∧ t.got.length + p.length ≤ t.total →
      exec (.blockData rq index sub p) s = .next ((u.putTransfer rq.src { t with
        got := t.got ++ p, nextSeq := (t.nextSeq + 1) % 65536, last := u.now }).odAnswer rq index.toNat sub.toNat rOk))
    ∧ (∀ t, u.power.keeperDown = false ∧ u.transfer rq.src key = some t ∧ p = [] ∧ rq.seq.toNat = t.nextSeq ∧ t.got.length = t.total →
      let w := u.dropTransfer rq.src key
      let x := w.judgeWrite rq e i j t.got w.callRooms (actOf rq e i j t.got)
      exec (.blockEnd rq index sub p) s = .next (x.2.odAnswer rq index.toNat sub.toNat x.1))
    ∧ (p.length = 4 ∧ u.barred rq.src e i j none u.callRooms = none ∧ e.row.acc ≠ .wo ∧ e.row.acc ≠ .cmd →
      let x := readEnt rq.src e i j u
      exec (.blockRead rq index sub p) s = .next (x.2.odAnswer rq index.toNat sub.toNat (0, (x.1.drop (ofLe p)).take 256)))

/-- R448, R449, R454: what time ends: a block transfer idle for 5,000,000 courses, a rack session idle for 30 s; and a UART frame that a gap breaks off is
discarded. R449, R451, R452: I3C. Address assignment, enabling and disabling the in-band interrupt, the reads of identity, length limits and status,
and the private read, which takes the oldest frame that waits, cut to the read length; none of them touches anything but the I3C target and what is
sent. -/
def Obligations.TransportsEndAndI3c : Prop :=
  (
  ∀ (src : Arrival) (index : BitVec 16) (sub : Byte) (mac : BitVec 48) (s : State),
    (∀ t, s.transfer src (index.toNat * 256 + sub.toNat) = some t ∧ t.last + 5000000 * 4096 ≤ s.now →
      exec (.blockTransferTimeout src index sub) s = .next (s.dropTransfer src (index.toNat * 256 + sub.toNat)))
    ∧ (∀ x, s.sess (.rack mac) = some x ∧ x.last + 15000000 * 4096 ≤ s.now →
      exec (.sessionIdleTimeout mac) s = .next (s.endSess (.rack mac)) ∧ (s.endSess (.rack mac)).sess (.rack mac) = none)
    ∧ (s.board.bench ∧ s.odLive .uart → exec .uartFrameGap s = .next (s.discardFrame .uart)))
  ∧ (
  ∀ (a b : BitVec 7) (e : Byte) (n : BitVec 16) (s : State),
    let i := s.od.i3c
    let sets := fun x => Host.Outcome.next (s.setOd { s.od with i3c := x })
    exec (.entdaa a) s = .next (s.i3cAddress a.toNat)
    ∧ (b.toNat = s.val .i3cStaticAddr 0 0 → exec (.setdasa b a) s = .next (s.i3cAddress a.toNat))
    ∧ (s.auxIn ∧ i.addr = 0 → (s.i3cAddress a.toNat).od.i3c.addr = a.toNat)
    ∧ (s.auxIn →
      exec .rstdaa s = .next ((s.setOd { s.od with i3c := { i with addr := 0 } }).endSess .i3c)
      ∧ (e.getLsbD 0 → exec (.enec e) s = sets { i with irq := true } ∧ exec (.disec e) s = sets { i with irq := false })
      ∧ exec (.setmwl n) s = sets { i with mwl := min 268 n.toNat }
      ∧ exec (.setmrl n) s = sets { i with mrl := min 268 n.toNat }
      ∧ exec (.rstact e) s = sets { i with action := e.toNat })
    ∧ exec .getpid s = .next (s.i3cReads 6 Config.i3cPid.toNat)
    ∧ exec .getbcr s = .next (s.i3cReads 1 Config.i3cBcr.toNat)
    ∧ exec .getdcr s = .next (s.i3cReads 1 Config.i3cDcr.toNat)
    ∧ exec .getmwl s = .next (s.i3cReads 2 i.mwl)
    ∧ exec .getmrl s = .next (s.i3cReads 3 (i.mrl * 256 + 1))
    ∧ (∃ v, exec .getstatus s = .next (s.i3cReads 2 v))
    ∧ (s.i3cOn → exec .privateRead s = .next (s.i3cNext.2.send (.i3c (s.i3cNext.1.take i.mrl)))))

/- ## Time, the tally and power -/

/-- R60: the state that a measurement leads to, from each state: Free by value to Locked or Adrift; Holdover by value to Locked, Loose or Adrift; Locked
to Adrift on two in a row above 1 µs, else to Loose on four above 250 ns; Loose to Adrift on two above 1 µs, else to Locked on 16 within 250 ns;
Adrift to Loose on 16 within 1 µs. The runs count consecutive measurements. -/
def Obligations.TimeStateFollowsMeasurements : Prop :=
  ∀ (s : State) (off : Int) (src : TimeSource),
    let t := s.time
    let a := off.natAbs
    let near := if a ≤ (if t.mode = .adrift then 1000 else 250) then t.runNear + 1 else 0
    let past := if 250 < a then t.runOff + 1 else 0
    let far := if 1000 < a then t.runFar + 1 else 0
    let new : TimeMode := match t.mode with
      | .free => if a ≤ 250 then .locked else .adrift
      | .holdover => if a ≤ 250 then .locked else if a ≤ 1000 then .loose else .adrift
      | .locked => if 2 ≤ far then .adrift else if 4 ≤ past then .loose else .locked
      | .loose => if 2 ≤ far then .adrift else if 16 ≤ near then .locked else .loose
      | .adrift => if 16 ≤ near then .loose else .adrift
    (s.measured off src).time.mode = new
    ∧ (s.measured off src).time.offset = off ∧ (s.measured off src).time.source = src
    ∧ (s.measured off src).time.lastMeas = s.now
    ∧ (new = t.mode → (s.measured off src).tally = s.tally ∧ (s.measured off src).time.runNear = near)
    ∧ (new ≠ t.mode → (s.measured off src).time.runNear = 0 ∧ (s.measured off src).time.runOff = 0 ∧ (s.measured off src).time.runFar = 0)

/-- R58, R60, R66: the commands of the time base and the tally writer. A PTP measurement in PTP_DOMAIN is measured while time is kept. A beacon request
on an Up Peer port is answered; a reply is measured where no PTP arrives and its sender is Locked with a hop count of 2 or less. A round of beacons
goes to every port that is due one. At a boundary a second without a measurement takes Locked and Loose to Holdover, and an estimate above 1 µs takes
Holdover to Adrift. A tally page that is due is drained. An announcement in PTP_DOMAIN is kept where there is no master, or it is the master's own, or
a better one's, or the master has been silent for its time (Config.announceTimeout). -/
def Obligations.TimeAndTallyCommands : Prop :=
  ∀ (s : State),
    (∀ domain offset tai, s.timeless = false ∧ domain.toNat = s.val .ptpDomain 0 0 →
      let x := s.acquire offset.toInt tai.toNat
      exec (.ptpMeasurement domain offset tai) s
        = .next ((x.2.setTime { x.2.time with lastPtp := some x.2.now, hops := 0 }).measured x.1 .ptp))
    ∧ (∀ (port : Fin 32) (b : Beacon), s.dark = false ∧ s.isUp port ∧ s.roleOf port = .peer →
      let now : Word := BitVec.ofNat 64 (s.shown s.now)
      (b.reply = false → exec (.timeBeacon port b) s = .next (s.sendBeacon port (s.ownBeacon true b.t1 now now)))
      ∧ (b.reply = true ∧ s.timeless = false ∧ s.ptpActive = false ∧ b.locked ∧ b.hops.toNat ≤ 2 →
        let u := s.setTime { s.time with linkDelay := Tbl.put s.time.linkDelay port (beaconDelay b) }
        let x := u.acquire (beaconOffset b) (s.val .vaultEpoch 0 0 + (unitsToNs ((b.t3.toNat : Int) + beaconDelay b)).toNat)
        exec (.timeBeacon port b) s
          = .next ((x.2.setTime { x.2.time with hops := b.hops.toNat + 1 }).measured x.1 (.beacon port))))
    ∧ (s.dark = false → exec .beaconSend s = .next (s.beaconRound (upTo 32)))
    ∧ ((s.time.mode = .locked ∨ s.time.mode = .loose) ∧ s.time.lastMeas + 500000 * 4096 ≤ 4096 * s.time.course ∧ s.dark = false ∧ s.time.pos = 0 →
      ∃ t : State, exec .timeHoldover s = .next t ∧ t.time.mode = .holdover ∧ t.time.offset = s.time.offset ∧ t.od = s.od ∧ t.ports = s.ports)
    ∧ (s.time.mode = .holdover ∧ s.dark = false ∧ s.time.pos = 0
        ∧ 1000 * (500000 * 4096) < s.time.offset.natAbs * (500000 * 4096) + 100 * (4096 * s.time.course - s.time.lastMeas) →
      ∃ t : State, exec .holdoverEstimateAdrift s = .next t ∧ t.time.mode = .adrift ∧ t.od = s.od ∧ t.ports = s.ports)
    ∧ (s.dark = false ∧ s.pageDue →
      exec .tallyPageDrain s = .next ((s.setTally (s.tally.drain (min 128 s.tally.undrained))).overflowEnd.unhold))
    ∧ (∀ domain a, s.timeless = false ∧ domain.toNat = s.val .ptpDomain 0 0
        ∧ (s.time.master = none ∨ ∃ m st, s.time.master = some (m, st) ∧ (m.identity = a.identity ∨ announceBetter a m
          ∨ st + 4096 * Config.announceTimeout ≤ s.now)) →
      exec (.ptpAnnounce domain a) s = .next (s.setTime { s.time with master := some (a, s.now) }))

/-- R62, R65, R66: what an event does to a tally that takes entries: one entry more, with the stamp, the source, its next SEQUENCE and the event's fields,
and the source's SEQUENCE one higher; the entry is 32 bytes. Nothing but the tally, the notification queues and what is sent changes. R456: a
notification queue holds 256 entries at most, drops its oldest and counts what it drops. -/
def Obligations.EventsAndNotifications : Prop :=
  (
  ∀ (s : State) (e : Ev), s.tally.sealed = false → s.power.keeperDown = false → s.tally.held = [] → s.tally.infoOff = false →
    s.tally.noticeOff = false → 10 * s.tally.undrained + 10 < 9 * 2097152 →
    s.nextSeq e.region e.unit < 2 ^ 32 - 1 →
    let t := s.raise e
    t.tally.entries = s.tally.entries ++ [s.entryOf e]
    ∧ (s.entryOf e).stamp = 4096 * s.time.course + s.time.pos ∧ (s.entryOf e).seq = s.nextSeq e.region e.unit
    ∧ (s.entryOf e).code = e.code ∧ (s.entryOf e).sev = e.sev ∧ (s.entryOf e).args = e.args
    ∧ (s.entryOf e).bytes.length = 32
    ∧ t.nextSeq e.region e.unit = s.nextSeq e.region e.unit + 1
    ∧ t.tally.drained = s.tally.drained
    ∧ t.pages = s.pages ∧ t.ports = s.ports ∧ t.od = s.od ∧ t.power = s.power ∧ t.rooms = s.rooms ∧ t.cores = s.cores ∧ t.sec = s.sec ∧ t.pending = s.pending)
  ∧ (
  ∀ (q : NotifyQueue) (e : TallyEntry), q.queue.length ≤ 256 →
    (q.push e).queue.length ≤ 256
    ∧ (q.queue.length < 256 → (q.push e).queue = q.queue ++ [e] ∧ (q.push e).dropped = q.dropped)
    ∧ (q.queue.length = 256 → (q.push e).queue = q.queue.drop 1 ++ [e] ∧ (q.push e).dropped = q.dropped + 1))

/-- R35 to R37, R327, R398: the changes of power state that are events. Each happens under its rule's condition alone. -/
def Obligations.PowerStateEvents : Prop :=
  ∀ (s : State),
    let p := s.power
    (p.mode = .capped ∧ 1000 ≤ p.calmRun ∧ p.step = 0 → exec .cappedReturnFull s = .next (s.setPower { p with mode := .full }))
    ∧ (p.quiet = .writing ∧ s.time.pos = 0 ∧ (s.quietPages.map fun e => storedSize e.2.store).sum ≤ 5000000 →
      exec .quietFreeze s = .next (s.setPower { p with quiet := .frozen }))
    ∧ (p.quiet = .frozen ∧ s.reqs.opened.all (fun r => decide (r.why = .quiet)) ∧ s.quietPages = [] ∧ s.landing = []
        ∧ s.shelves.all (fun e => e.2.job.isNone) →
      ∃ t : State, exec .quietEntered s = .next t ∧ t.power.mode = .quiet ∧ t.power.quiet = .none ∧ t.store.frames = [] ∧ t.tier.fetches = [])
    ∧ (p.mode = .quiet ∧ p.exitAt.isSome →
      exec .quietExitEnd s = .next (((s.setPower { p with mode := .full, exitAt := none, exitOwed := false, zeroing := true, calmRun := 0 }).setStore
        { s.store with fronts := [(0, 0), (1, 0), (2, 0), (3, 0)], refresh := [] }).decideOpens.retryAll))
    ∧ (p.zeroing → exec .zeroingPassEnd s = .next ((((s.setPower { p with zeroing := false }).setStore { s.store with fronts := [] }).setInteg
        { s.integ with scrubFrom := s.now, passCorrected := 0, passUncorrected := 0 }).retryAll))
    ∧ (s.isRunning ∧ (s.input 0).faulty = false → exec .pwrfailNAsserted s = .next ((s.takeInput 0).startBrace .pwrfail))
    ∧ (s.isRunning → exec .inputBelow38v s = .next (s.startBrace .below38))
    ∧ (s.isRunning → ∀ r, exec (.regionFault r) s = .next ((s.assertFault.startBrace .failure).updPower fun p => { p with failure := true }))
    ∧ (p.mode = .brace ∧ s.reqs.opened = [] ∧ s.pubs.waiting = [] ∧ s.pubs.opens = [] → exec .braceEnd s = .next s.startFlush)
    ∧ (p.mode = .brace ∧ p.braceStamp + 4096 * s.val .braceLimit 0 0 ≤ s.now → exec .braceLimit s = .next s.failOpen.startFlush)
    ∧ (s.powerReturns → exec .powerReturn s = .next (s.startAsk 3))

/-- R35, R399, R400: what the last phase of a power loss leaves. A flush that completes keeps its list in its order, counts all of it programmed, writes
the durable manifest and seals the module, its record and its list. Rails that fall end Sealed, Brace, Flush and a start in Off. A Flush they break
before its list is programmed leaves no list, as Brace does; after that it leaves the list with its slots, and counts as programmed as many of its
images, from the first on, as had been. -/
def Obligations.FlushAndRailsEnd : Prop :=
  ∀ (s : State) (drawn : BitVec 32) (vol n : BitVec 40) (lost : List ZoneFail),
    (s.power.mode = .flush →
      ∃ t m, exec (.flushComplete drawn ⟨vol, lost⟩) s = .next t ∧ t.power.mode = .sealed ∧ t.power.sealedAt = s.now ∧ t.cistern.mode = .idle
        ∧ t.flush.sealed ∧ t.flush.listDone ∧ t.flush.done = s.flush.list.length
        ∧ t.flush.list.map (fun x => (x.slot, x.seq, x.page)) = s.flush.list.map (fun x => (x.slot, x.seq, x.page))
        ∧ t.flush.durable = some m ∧ m.kind = 0 ∧ m.seq = s.flush.seq ∧ m.entries = s.flush.list.length)
    ∧ (s.power.mode = .sealed ∨ s.power.mode = .off → exec (.railsFall true n) s = .next s.goOff ∧ exec (.railsFall false n) s = .next s.goOff)
    ∧ (s.power.mode = .brace ∨ s.power.mode = .flush →
      exec (.railsFall false n) s = .next ((s.setFlush { s.flush with listDone := false, list := [] }).goOff))
    ∧ (s.power.mode = .brace → exec (.railsFall true n) s = .next ((s.setFlush { s.flush with listDone := false, list := [] }).goOff))
    ∧ (s.power.mode = .flush → ∃ t : State, exec (.railsFall true n) s = .next t ∧ t.power.mode = .off ∧ t.flush.listDone ∧ t.flush.sealed = s.flush.sealed
        ∧ t.flush.done = min n.toNat s.flush.list.length
        ∧ t.flush.list.map (fun x => (x.slot, x.seq, x.page)) = s.flush.list.map (fun x => (x.slot, x.seq, x.page)))
    ∧ (s.power.mode = .starting →
      exec (.railsFall true n) s = .next ((s.setStart { s.start with step := 0, waiting := none }).goOff)
      ∧ exec (.railsFall false n) s = .next ((s.setStart { s.start with step := 0, waiting := none }).goOff))
    ∧ s.goOff.power.mode = .off

/-- R18, R26, R27, R31: in a module that is powered and not Sealed, a die that has been at its limit for 50 courses fails its cluster: the logic die the
module, a Loft die its eight bond blocks, a Store package its ranks, a Cellar package its two channels. The Keeper's watchdog restarts it, or within
10 minutes of a restart fails the module; a restart that ends takes up the events it held. -/
def Obligations.FailuresAndWatchdog : Prop :=
  ∀ (s : State) (d : Fin 53), s.dark = false →
    (50 ≤ Tbl.get s.board.hot d 0 →
      (d.val = 0 → exec (.dieAtLimit d) s = .next s.moduleFail)
      ∧ (1 ≤ d.val ∧ d.val < 5 → exec (.dieAtLimit d) s = .next ((upTo 8).foldl (fun s b => s.markRetired (d.val - 1) (0x280 + b) 1 6) s))
      ∧ (5 ≤ d.val ∧ d.val < 37 → exec (.dieAtLimit d) s = .next (((upTo 8).foldl
          (fun s i => s.retireRankAs ((d.val - 5) / 8) (8 * ((d.val - 5) % 8) + i) Config.packageCause 6)
          (s.markRetired ((d.val - 5) / 8) (0x1A0 + (d.val - 5) % 8) 1 6)).retryAll))
      ∧ (37 ≤ d.val ∧ (∀ c < 32, s.isRetired (c / 8) (cchanUnit c) = false) →
        exec (.dieAtLimit d) s = .next (if (s.retireCchan (2 * (d.val - 37)) 6).isRetired ((2 * (d.val - 37) + 1) / 8) (cchanUnit (2 * (d.val - 37) + 1))
          then s.retireCchan (2 * (d.val - 37)) 6 else (s.retireCchan (2 * (d.val - 37)) 6).retireCchan (2 * (d.val - 37) + 1) 6)))
    ∧ (s.isRunning ∨ s.power.mode = .brace ∨ s.power.mode = .flush →
      ((s.power.keeperRestart = none ∨ (∃ t, s.power.keeperRestart = some t ∧ t + 300000000 * 4096 ≤ s.now)) →
        exec .keeperWatchdog s = .next (s.setPower { s.power with keeperDown := true, keeperRestart := some s.now }))
      ∧ (∀ t, s.power.keeperRestart = some t ∧ s.now < t + 300000000 * 4096 → exec .keeperWatchdog s = .next s.moduleFail))
    ∧ (s.power.keeperDown → exec .keeperRestartDone s = .next (s.setPower { s.power with keeperDown := false }).unhold)

/-- R45, R48, R51: COURSE_BOUNDARY. What the ports still send in the course is sent; the next course begins at position 0; its readings are taken; but in
Sealed, the crash walks go on and what is decided of the course is decided. Off has no course, and takes the readings alone. R38: the governor's steps in their order: the cores down to 0.6 GHz, the Store's rate twice, the ports'
width, then the energy budget; and undone in the reverse order. One step changes one of them. -/
def Obligations.CoursesAndTheGovernor : Prop :=
  (
  ∀ (env : Env) (s : State),
    let w := s.pump s.time.pos 4096
    let u := (w.setTime { w.time with course := w.time.course + 1, pos := 0 }).readings env
    (s.power.mode = .off → exec (.courseBoundary env) s = .next (s.readings env))
    ∧ (s.power.mode ≠ .off → exec (.courseBoundary env) s = .next (if u.dark then u else u.walkScans.decideCourse))
    ∧ (s.power.mode = .sealed → u.dark ∧ u.time.course = s.time.course + 1 ∧ u.time.pos = 0 ∧ u.board.vin = env.vin.toNat ∧ u.board.aux = env.aux.toNat
      ∧ u.pages = s.pages ∧ u.reqs = s.reqs ∧ u.tally = s.tally))
  ∧ (
  ∀ (s : State),
    let p := s.power
    (p.core < 6 → s.governUp = s.setPower { p with core := p.core + 1 })
    ∧ (6 ≤ p.core ∧ p.store < 2 → s.governUp = s.setPower { p with store := p.store + 1 })
    ∧ (6 ≤ p.core ∧ 2 ≤ p.store ∧ p.x2 = false → s.governUp = (s.setPower { p with x2 := true }).retrainAt 4)
    ∧ (6 ≤ p.core ∧ 2 ≤ p.store ∧ p.x2 = true → ∃ n, s.governUp = s.setPower { p with cut := some n })
    ∧ (p.cut = none ∧ p.x2 = false ∧ p.store = 0 ∧ p.core ≠ 0 → s.governDown = s.setPower { p with core := p.core - 1 })
    ∧ (p.cut = none ∧ p.x2 = false ∧ p.store ≠ 0 → s.governDown = s.setPower { p with store := p.store - 1 })
    ∧ (p.cut = none ∧ p.x2 = true → s.governDown = (s.setPower { p with x2 := false }).retrainAt 2)
    ∧ (p.cut.isSome → s.governDown = s.setPower { p with cut := none }))

/- ## Link ports, line requests, calls and versions -/

/-- R77, R78, R81, R100: the link states follow the table: Detect to Equalise on a receiver within 500 courses, to Down after them, and to Detect again
after 5,000 courses in Down where a retry is due; Equalise to Configure, at its limit with the lanes that agreed, if any; Configure to Up where the roles
match and the width suffices, else to Down; Up to Retrain, on 512 flits without an acknowledgement and on a lane past its limit among others, and within
250 courses back to Up, or to Down where the width does not suffice or the time is over. A NACK has the flits after the one it names sent again. -/
def Obligations.LinkStatesFollowTheTable : Prop :=
  ∀ (s : State) (p : Fin 32),
    let q := s.port p
    (∀ lanes : BitVec 4, q.link = .detect ∧ s.goodLanes p lanes.toNat ≠ 0 ∧ s.now ≤ q.since + 500 * 4096 →
      ∃ t : State, exec (.receiverDetected p lanes) s = .next t ∧ (t.port p).link = .equalise ∧ (t.port p).lanes = s.goodLanes p lanes.toNat
        ∧ (∀ r : Nat, r ≠ p.val → t.port r = s.port r) ∧ t.funcs = s.funcs ∧ t.tally = s.tally ∧ t.pages = s.pages)
    ∧ (q.link = .detect ∧ q.since + 500 * 4096 ≤ s.now → exec (.detectTimeout p) s = .next (s.portDown p 5 false))
    ∧ (q.link = .down ∧ q.retry ∧ (s.fn (.port p)).state = .starting ∧ q.since + 5000 * 4096 ≤ s.now →
      exec (.detectRetry p) s = .next (s.setPort p { q with link := .detect, since := s.now }))
    ∧ (q.link = .equalise ∧ s.now ≤ q.since + 2500 * 4096 → exec (.equaliseDone p) s = .next (s.setPort p { q with link := .configure, since := s.now }))
    ∧ (∀ agreed : BitVec 4, q.link = .equalise ∧ q.since + 2500 * 4096 ≤ s.now →
      (s.goodLanes p (q.lanes &&& agreed.toNat) = 0 → exec (.equaliseLimit p agreed) s = .next ((s.portDown p 4 false).portFailed p))
      ∧ (s.goodLanes p (q.lanes &&& agreed.toNat) ≠ 0 → ∃ t : State, exec (.equaliseLimit p agreed) s = .next t
          ∧ t.port p = { q with link := .configure, since := s.now, lanes := s.goodLanes p (q.lanes &&& agreed.toNat) }))
    ∧ (∀ (r : Partner) (rev : Bool) (pol : BitVec 4), q.link = .configure ∧ s.now ≤ q.since + 500 * 4096 →
      let w := linkWidth (s.goodLanes p q.lanes) (s.mostLanes p)
      (r.role ≠ q.role → ∃ t : State, exec (.configureExchange p r rev pol) s = .next t
          ∧ t.port p = { q with link := .down, since := s.now } ∧ t.funcs = s.funcs)
      ∧ (r.role = q.role ∧ w.1 < s.val .portMinWidth p 0 → exec (.configureExchange p r rev pol) s = .next (s.portDown p 4 false))
      ∧ (r.role = q.role ∧ s.val .portMinWidth p 0 ≤ w.1 → exec (.configureExchange p r rev pol) s = .next (s.portUp p r rev pol.toNat w.1 w.2)))
    ∧ (q.link = .configure ∧ q.since + 500 * 4096 ≤ s.now → exec (.configureTimeout p) s = .next ((s.portDown p 6 false).portFailed p))
    ∧ (∀ cause : RetrainCause, q.link = .up → ∃ t : State, exec (.retrain p cause) s = .next t ∧ (t.port p).link = .retrain
        ∧ (t.port p).retrains = q.retrains + 1 ∧ (t.port p).spent = q.spent ∧ (t.port p).rx = q.rx ∧ (t.port p).acked = q.acked
        ∧ (∀ r : Nat, r ≠ p.val → t.port r = s.port r) ∧ t.reqs = s.reqs)
    ∧ (∀ lanes : BitVec 4, q.link = .retrain ∧ s.now ≤ q.since + 250 * 4096 →
      let w := linkWidth (s.goodLanes p lanes.toNat) (min (if q.trigger = 2 then 4 else q.oldWidth) (s.mostLanes p))
      let u := s.raise { code := 0x1103, sev := 1, region := p.val / 8, unit := 0x060 + p.val % 8, args := leBytes 1 p ++ leBytes 1 q.oldWidth ++ leBytes 1 w.1 ++ leBytes 1 q.trigger }
      (w.1 < max 1 (u.val .portMinWidth p 0) → exec (.retrainDone p lanes) s = .next ((u.portDown p 4 false).retryAll))
      ∧ (max 1 (u.val .portMinWidth p 0) ≤ w.1 → ∃ t : State, exec (.retrainDone p lanes) s = .next t ∧ (t.port p).link = .up ∧ (t.port p).width = w.1))
    ∧ (q.link = .retrain ∧ q.since + 250 * 4096 ≤ s.now → exec (.retrainTimeout p) s = .next (((s.retrained p 0).portDown p 1 false).retryAll))
    ∧ (∀ seq : BitVec 12, q.link = .up → exec (.nack p seq) s = .next (s.nacked p seq.toNat))
    ∧ (512 ≤ q.sinceAck ∧ q.link = .up → ∃ t : State, exec (.ackTimeout p) s = .next t ∧ (t.port p).link = .retrain ∧ (t.port p).trigger = 0)
    ∧ (∀ lane : Fin 4, s.val .laneFecLimit 0 0 < laneCount q.fec lane ∧ s.isLinked p →
      exec (.laneFecLimit p lane) s = .next (((s.retireUnit (p.val / 8) (0x040 + 4 * (p.val % 8) + lane.val) 2).updPort p
        fun x => { x with fec := Tbl.keep x.fec fun k _ => decide (k % 4 ≠ lane.val) }).startRetrain p 1))

/-- R80, R81: a flit received on an Up port. A good PAYLOAD flit with the expected sequence number is taken and the number counts on; one with another
number, or one that does not check, is answered with a NACK of the last good one and counted; an IDLE flit brings its acknowledgement and credits, a
NACK has flits sent again, a RETRAIN starts a Retrain. -/
def Obligations.FlitsAreTakenOrReplayed : Prop :=
  ∀ (s : State) (p : Fin 32) (flit corr : List Byte) (fecOk : Bool), s.isUp p →
    let u := s.fecCounted p corr
    let w := ofLe (flit.take 8)
    let good := flitGood flit fecOk
    (good = false → exec (.flitReceived p flit corr fecOk) s = .next (u.nackFlit p))
    ∧ (good = true ∧ bitsOf w 63 60 = 0 ∧ bitsOf w 59 48 ≠ (u.port p).rxSeq → exec (.flitReceived p flit corr fecOk) s = .next (u.nackFlit p))
    ∧ (good = true ∧ bitsOf w 63 60 = 0 ∧ bitsOf w 59 48 = (u.port p).rxSeq →
      let v := (u.updPort p fun q => { q with rxSeq := (q.rxSeq + 1) % 4096, nackSent := 0, ackDue := true }).ackIn p (bitsOf w 47 36)
      exec (.flitReceived p flit corr fecOk) s
        = .next (((v.framingCredits p w).takeSlots p (bitsOf w 35 22) ((flit.drop 8).take 224)).returnCredits p))
    ∧ (good = true ∧ bitsOf w 63 60 = 1 → exec (.flitReceived p flit corr fecOk) s = .next ((u.ackIn p (bitsOf w 47 36)).framingCredits p w))
    ∧ (good = true ∧ bitsOf w 63 60 = 2 → exec (.flitReceived p flit corr fecOk) s = .next ((u.framingCredits p w).nacked p (bitsOf w 47 36)))
    ∧ (good = true ∧ bitsOf w 63 60 = 3 → exec (.flitReceived p flit corr fecOk) s = .next (u.startRetrain p 4))
    ∧ ((u.port p).nackSent < 7 → (u.nackFlit p).out = s.out ++ [.nack p (((u.port p).rxSeq + 4095) % 4096)]
        ∧ ((u.nackFlit p).port p).replays = (s.port p).replays + 1 ∧ (u.nackFlit p).reqs = s.reqs ∧ (u.nackFlit p).pages = s.pages)

/-- R88, R89, R90, R97, R99: the four line requests. One that no check of R88 turns away and that meets neither a Brace nor a Hold of its own is tried; in
Brace and Flush it is Held with no ready time; a re-issue before its Hold's ready stamp is Held again with the same stamp. -/
def Obligations.LineRequestsAreTried : Prop :=
  ∀ (s : State) (p : Fin 32) (tag : BitVec 12) (room : Fin 64) (line : BitVec 40) (poison : Bool) (mask : BitVec 64) (data : WriteData),
    let form : List (Instr × Nat × OpenReq) :=
      [(.rdLine p tag room line, 1, newReq s p tag.toNat .rd room line.toNat 0 0 false),
       (.rdOwn p tag room line, 2, newReq s p tag.toNat .own room line.toNat 0 0 false),
       (.wrLine p tag room line poison data, 3, { newReq s p tag.toNat .wr room line.toNat data.bits (-1) poison with parity := data.parity }),
       (.wrMask p tag room line mask data, 4, { newReq s p tag.toNat .mask room line.toNat data.bits mask false with parity := data.parity })]
    ∀ f ∈ form,
      let mine (h : HeldReq) : Bool := decide (h.port = p.val) && decide (h.op = f.2.2.op) && decide (h.room = room.val) && decide (h.line = line.toNat)
      s.turned f.2.1 p tag.toNat room line.toNat = none →
      ((s.power.mode = .brace ∨ s.power.mode = .flush) → exec f.1 s = .next (s.respond p tag.toNat 1 none (2 ^ 64 - 1)))
      ∧ (s.power.mode ≠ .brace ∧ s.power.mode ≠ .flush →
        (s.reqs.held.find? mine = none → exec f.1 s = .next (s.run f.2.2 none))
        ∧ (∀ h, s.reqs.held.find? mine = some h →
          (s.now < h.ready → exec f.1 s = .next (s.respond p tag.toNat 1 none h.ready))
          ∧ (h.ready ≤ s.now → exec f.1 s = .next ((s.setHeld (s.reqs.held.erase h)).run
              { f.2.2 with heldFor := if s.now ≤ h.ready + 64 * 4096 then some h.why else none } none))))

/-- R88, R106: what turns a line request away: a role that is neither Host nor Companion, a Host that does not own the room, no window of the room over
the line, a room that is not On: DENIED, and nothing else happens; a TAG still outstanding: DENIED, and PORT_PROTOCOL_ERROR. -/
def Obligations.RequestsAreDenied : Prop :=
  ∀ (s : State) (p : Fin 32) (tag : BitVec 12) (room : Fin 64) (line : BitVec 40), s.isUp p →
    let used := s.tagOpen p tag.toNat
    let bad := (s.roleOf p ≠ .host ∧ s.roleOf p ≠ .companion) ∨ (s.roleOf p = .host ∧ bitOf (s.val .roomOwnerPorts room 0) p = false)
      ∨ s.windowAt room (line.toNat * 64) = none ∨ (s.fn (.room room)).state ≠ .on ∨ s.sec.locked = true
    (used = false ∧ bad → ∀ t : State, t = s.respond p tag.toNat 4 none 0 →
      exec (.rdLine p tag room line) s = .next t ∧ exec (.rdOwn p tag room line) s = .next t
      ∧ (∀ poison data, exec (.wrLine p tag room line poison data) s = .next t) ∧ (∀ mask data, exec (.wrMask p tag room line mask data) s = .next t)
      ∧ (∀ w args, exec (.call p tag room line w args) s = .next t)
      ∧ t.reqs = s.reqs ∧ t.pages = s.pages ∧ t.landing = s.landing ∧ t.dir = s.dir ∧ t.tally = s.tally)
    ∧ (used = true → exec (.rdLine p tag room line) s = .next ((s.respond p tag.toNat 4 none 0).raise (protocolEv p 1 tag.toNat 1)))
    ∧ (used = false ∧ ¬ bad → s.turned 1 p tag.toNat room line.toNat = none)

/-- R94 to R96, R98, R101: what time does to a request that is open. Past HOLD_THRESHOLD on a hold-capable port it is Held, unless its link has gone Down
or it is a re-issue after a Hold for what it still waits for; 500 courses after its admission it is answered FATAL, where its link still stands, and
COMPLETION_TIMEOUT is written; a Held request's pin and reservation lapse 64 courses past its ready stamp; a recall is answered, or takes its port Down
after 500 courses; a recall answer of no TAG is a violation. -/
def Obligations.OpenRequestsEnd : Prop :=
  ∀ (s : State) (p : Fin 32) (tag : BitVec 12),
    (∀ r : OpenReq, s.openOf p tag.toNat = some r →
      let u := s.setOpen (s.reqs.opened.erase r)
      let due := s.holdCapable p ∧ r.gone = false ∧ r.heldFor ≠ some r.why ∧ r.admitted + 4096 * s.val .holdThreshold p 0 ≤ s.now
      (due ∧ r.why ≠ .far →
        exec (.holdThresholdPassed p tag) s = .next (u.holdNow r r.why (if s.now < r.ready then r.ready else boundaryAfter s.now)))
      ∧ (due ∧ r.why = .far →
        exec (.holdThresholdPassed p tag) s = .next (u.respond p tag.toNat 1 none (2 ^ 64 - 1)))
      ∧ (r.admitted + 500 * 4096 ≤ s.now →
        let v := u.dropOwn p r.room r.line
        exec (.completionTimeout p tag) s = .next ((if r.gone then v else v.respond p tag.toNat 8 none 0).raise
          { code := 0x1106, sev := 2, region := p.val / 8, unit := 0x060 + p.val % 8,
            args := leBytes 1 p ++ leBytes 1 r.room ++ leBytes 2 tag.toNat ++ leBytes 5 r.line })))
    ∧ (∀ (room : Fin 64) (line : BitVec 40) (h : HeldReq),
      s.reqs.held.find? (fun h => decide (h.port = p.val) && decide (h.room = room.val) && decide (h.line = line.toNat)
        && decide (h.ready + 64 * 4096 ≤ s.now)) = some h →
      exec (.pinLapse p room line) s = .next (((s.setHeld (s.reqs.held.erase h)).dropOwn p room line.toNat).retryAll))
    ∧ (∀ r, s.dir.recalls.find? (fun r => decide (r.port = p.val) && decide (r.tag = tag.toNat)) = some r →
      (∀ data, exec (.backInvAnswer p tag data) s = .next ((s.answerRecall r data).retryAll))
      ∧ (r.since + 500 * 4096 ≤ s.now → exec (.backInvTimeout p tag) s = .next ((s.portDown p 3 false).retryAll)))
    ∧ (s.dir.recalls.find? (fun r => decide (r.port = p.val) && decide (r.tag = tag.toNat)) = none ∧ s.isUp p →
      ∀ data, exec (.backInvAnswer p tag data) s = .next ((s.violation p 0x3D tag.toNat 4).retryAll))

/-- R93, R263, R264, R267: a Call of an installed program is accepted with the next CALL_ID, READY, with the header's core limit and step budget; a PARKED
call becomes READY at its stamp; a READY or PARKED call of a program past CALL_TIMEOUT ends FATAL, detail 5; an ENDING call of which no step runs, and
which has no digest line left to write, is ENDED once its completion line is written. -/
def Obligations.CallsRunTheirCourse : Prop :=
  ∀ (s : State) (p : Fin 32) (tag : BitVec 12) (room : Fin 64) (line : BitVec 40) (w : Word) (args : List Byte) (id : BitVec 32),
    (∀ x : Prog, s.turned 0x10 p tag.toNat room line.toNat = none ∧ s.power.mode ≠ .brace ∧ s.power.mode ≠ .flush ∧ s.quieted = false
        ∧ s.power.exitAt = none ∧ s.power.quiet = .none ∧ 1 ≤ bitsOf w.toNat 9 5 ∧ bitsOf w.toNat 9 5 ≤ 16
        ∧ args.length = 16 * bitsOf w.toNat 9 5 ∧ bitsOf w.toNat 31 26 ≤ 32 ∧ w.toNat % 32 = 0
        ∧ bitsOf w.toNat 63 32 < 0xFFFFFF01 ∧ s.progFor (bitsOf w.toNat 63 32) room = some x ∧ s.callsOpen < 1024 →
      ∃ t c, exec (.call p tag room line w args) s = .next t ∧ t.cores.calls = s.cores.calls ++ [c] ∧ c.id = s.cores.nextId ∧ c.mode = .ready
        ∧ c.handle = bitsOf w.toNat 63 32 ∧ c.prog = some x.serial ∧ c.args = args ∧ c.accepted = s.now
        ∧ c.cores = (if bitsOf w.toNat 31 26 = 0 then 32 else bitsOf w.toNat 31 26)
        ∧ c.budget = (if bitsOf w.toNat 25 10 = 0 then 65536 else bitsOf w.toNat 25 10)
        ∧ t.cores.nextId = (s.cores.nextId + 1) % 2 ^ 32 ∧ t.pages = s.pages ∧ t.reqs = s.reqs)
    ∧ (∀ c, s.call id.toNat = some c →
      (c.mode = .parked ∧ s.ofShown c.kept ≤ s.now → exec (.callUnpark id) s = .next (s.updCall c.id fun c => { c with mode := .ready }))
      ∧ (c.prog.isSome ∧ c.accepted + 4096 * s.val .callTimeout 0 0 ≤ s.now ∧ (c.mode = .ready ∨ c.mode = .parked) →
        exec (.callTimeout id) s = .next ((s.endCall c.id ⟨6, 32, s.time.course, 8, 5, 0, []⟩).raise
          { code := 0x8003, sev := 2, unit := srcRoom c.room, args := leBytes 4 c.id ++ leBytes 1 c.mode.code ++ leBytes 4 c.steps }))
      ∧ (∀ e u, c.mode = .ending ∧ c.ending = some e ∧ s.callRuns id.toNat = false ∧ c.digest = none
          ∧ s.ownWrite c.room c.line (lineFrom (c.completion e)) = (true, u) →
        exec (.callCompletion id) s = .next (((u.paidLine c).updCall id.toNat fun c => { c with mode := .ended }).freeProgs.retryAll)))

/-- R117, R242 to R244, R247: a Publish that no check turns away waits for its boundary, and is decided there in the order of admission, ties by port; at a
boundary a version all of whose data have come is sealed, and one that nothing retains is released; an Open that no check turns away is decided; at its
boundary a committed change is checked, and takes effect, or is refused and leaves the rooms as they were. -/
def Obligations.VersionsAndConfiguration : Prop :=
  ∀ (s : State) (p : Fin 32) (tag : BitVec 12) (room : Fin 64) (line : BitVec 40) (g : Byte) (v : BitVec 32),
    (s.turned 0x30 p tag.toNat room line.toNat = none ∧ s.power.mode ≠ .brace ∧ s.power.mode ≠ .flush ∧ s.quieted = false ∧ s.power.exitAt = none →
      exec (.publish p tag room line g v) s
        = .next (s.setPubs { s.pubs with waiting := s.pubs.waiting ++ [⟨p, tag.toNat, room, g.toNat, v.toNat, s.now, false⟩] }))
    ∧ (s.power.mode ≠ .brace ∧ s.power.mode ≠ .flush ∧ s.quieted = false ∧ s.power.exitAt = none →
      let due (q : PubReq) : Bool := decide (q.region = g.toNat) && decide (decisionAt q.admitted ≤ s.now)
      let l := sortBy (fun a b => decide (a.admitted < b.admitted ∨ (a.admitted = b.admitted ∧ a.port < b.port))) (s.pubs.waiting.filter due)
      exec (.publishDecide g) s = .next (l.foldl (fun s q => s.decidePub q)
        (s.setPubs { s.pubs with waiting := s.pubs.waiting.filter fun q => !due q })))
    ∧ (∀ x, s.pubVer g.toNat v.toNat = some x →
      (x.isSealed = false ∧ s.time.pos = 0 ∧ s.stillAwaits x.awaits = false ∧ s.bringing g.toNat x.version = false →
        exec (.pubSealed g v) s = .next (s.sealVersion g.toNat x))
      ∧ (s.retains g.toNat x = false ∧ s.time.pos = 0 →
        let r := s.releaseVersion g.toNat x.version
        exec (.pubReleased g v) s = .next (r.2.raise { code := 0x5814, sev := 0, unit := srcRoom (r.2.val .pubRoom g.toNat 0), args := leBytes 1 g.toNat ++ leBytes 4 x.version ++ leBytes 4 r.1 })))
    ∧ (∀ c, s.turned 0x31 p tag.toNat room line.toNat = none ∧ s.power.mode ≠ .brace ∧ s.power.mode ≠ .flush ∧ s.quieted = false
        ∧ s.power.exitAt = none →
      exec (.openView p tag room line g v c) s = .next (s.decideOpen ⟨p, tag.toNat, room, line.toNat, v.toNat, c, false⟩))
    ∧ (∀ t, s.adm.commitAt = some t ∧ t ≤ s.now ∧ s.time.pos = 0 →
      (∀ st k c w, s.commitCheck = some (st, k, c, w) → ∃ u : State, exec .configApply s = .next u ∧ u.adm.status = st ∧ u.adm.staging = s.adm.staging
        ∧ u.adm.commitAt = none ∧ u.adm.detail = k * 2 ^ 24 + c * 2 ^ 16 + w * 2 ^ 8 + st ∧ u.rooms = s.rooms ∧ u.funcs = s.funcs)
      ∧ (s.commitCheck = none → exec .configApply s = .next ((s.applied.raise { code := 0x4001, sev := 1, unit := srcAdmission, args := leBytes 4 (s.adm.commitNo + 1) ++ leBytes 8 s.stagedRooms }).retryAll)))

/-- R92, R166: what a line write makes of a brick's plaintext and its poison mask. A WrLine without POISON leaves its data in its line and clears the
line's bit; with POISON it sets the bit and leaves none of its data; a WrMask writes the bytes of its mask, but of a poisoned line it does not cover
it answers POISON and writes nothing. The brick's other lines and bits stand. -/
def Obligations.LineWritesMerge : Prop :=
  ∀ (data : List Byte) (j pm : Nat) (d : BitVec 512) (mask : BitVec 64), data.length = 256 → j < 4 → pm < 16 →
    let wr (op : LineOp) (poison : Bool) (m : Nat) := mergeWrite op poison j (lineBytes d) m data pm
    let rest (x : Nat × List Byte × Nat) : Prop := x.2.1.length = 256 ∧ x.2.2 < 16
      ∧ ∀ i < 4, i ≠ j → lineOf x.2.1 i = lineOf data i ∧ bitOf x.2.2 i = bitOf pm i
    (∀ op p m, rest (wr op p m))
    ∧ (∀ m, (wr .wr false m).1 = 0 ∧ lineOf (wr .wr false m).2.1 j = d ∧ bitOf (wr .wr false m).2.2 j = false)
    ∧ (∀ m, (wr .wr true m).1 = 0 ∧ lineOf (wr .wr true m).2.1 j = 0 ∧ bitOf (wr .wr true m).2.2 j = true)
    ∧ wr .mask false fullMask = wr .wr false fullMask
    ∧ (mask.toNat ≠ fullMask ∧ bitOf pm j = true → wr .mask false mask.toNat = (2, data, pm))
    ∧ (mask.toNat ≠ fullMask ∧ bitOf pm j = false → (wr .mask false mask.toNat).1 = 0 ∧ (wr .mask false mask.toNat).2.2 = pm
      ∧ ∀ i < 64, (lineOf (wr .mask false mask.toNat).2.1 j).extractLsb' (8 * i) 8
        = if bitOf mask.toNat i then d.extractLsb' (8 * i) 8 else (lineOf data j).extractLsb' (8 * i) 8)

/- ## The tiers, the Store and the Cellar -/

/-- R133, R145, R149, R153, R192 to R194: the landing, the Store and the Cellar serve pages. A fetch that has begun lands where bays are found for it and
what waited goes on; a page that is idle, or dirty too long, is queued for write-back, and one dirty twice as long is told of; a landing slot past its
dwell is queued, one whose fill ends holds the brick's plaintext, or poison where that is lost, and one that is stored is freed, a marked slot left
behind before the one that followed it; a Store read answers what waits for it; a timed stair step that is due is issued. -/
def Obligations.PagesMoveThroughTheTiers : Prop :=
  ∀ (s : State) (page : PageId) (brick : BrickId) (faults : ReadFaults),
    let k := pageIdKey page
    let p := s.page k
    let bk := brickIdKey brick
    (∀ f i start, s.fetchOf k = some f ∧ p.slot.bind s.image = some i ∧ f.begun.isSome ∧ (p.mode = .cellar ∨ p.mode = .demoted) →
      let u := s.setTier { s.tier with fetches := s.tier.fetches.erase f }
      u.findRun (u.frameRegion (loftRegion p)) (baysFor i.bricks (u.footingOf k i.bricks)) = some start →
      exec (.fetchComplete page) s = .next (u.landFetched k f i start).retryAll)
    ∧ (p.lastTouch + s.val .writebackIdle 0 0 ≤ s.time.course → exec (.writebackIdle page) s = .next (s.queueWriteBack k 4))
    ∧ (p.mode = .dirty ∧ p.dirtySince + 4096 * s.val .writebackAgeMax 0 0 ≤ s.now → exec (.writebackAgeMax page) s = .next (s.queueWriteBack k 4))
    ∧ (p.mode = .dirty ∧ p.dirtySince + 8192 * s.val .writebackAgeMax 0 0 ≤ s.now ∧ s.quiet64 s.tier.lagAt →
      ∃ t : State, exec (.writebackLag page) s = .next t ∧ t.tier = { s.tier with lagAt := some s.now } ∧ t.pages = s.pages ∧ t.landing = s.landing)
    ∧ (∀ l, s.slotOf bk = some l →
      (l.filling = false ∧ l.last + 4096 * s.val .landingDwell 0 0 ≤ s.now → exec (.landingDwell brick) s = .next (s.queueSlot bk))
      ∧ (l.filling = true ∧ s.brickStored bk ∧ s.sec.keysOff = false →
        (∀ d u, s.readBrick bk faults = (.ok d, u) → exec (.landingFillDone brick faults) s
          = .next ((u.putSlot bk { l with
            data := d, poison := recMask ((u.page (bk / 16)).brick (bk % 16)).record, written := 0, filling := false, last := u.now }).retryAll))
        ∧ (∀ r u, s.readBrick bk faults = (r, u) ∧ (r = .once ∨ r = .poisoned) → exec (.landingFillDone brick faults) s
          = .next ((u.putSlot bk { l with
            data := List.replicate 256 0, poison := 15, written := 0, filling := false, last := u.now }).retryAll)))
      ∧ (∀ twice u, l.filling = false ∧ s.sec.keysOff = false ∧ (s.page (bk / 16)).inStore →
        (l.under = none ∧ l.queued = true ∧ s.storeSlot bk l twice = some u →
          exec (.landingSlotFreed brick twice) s = .next (u.copyDemoted (bk / 16)).retryAll)
        ∧ (∀ d pm, l.under = some (d, pm) ∧ s.storeSlot bk { l with data := d, poison := pm } twice = some u → exec (.landingSlotFreed brick twice) s
          = .next ((u.putSlot bk { l with under := none, queued := false, lane := none }).copyDemoted (bk / 16)).retryAll)))
    ∧ (s.brickStored bk ∧ s.sec.keysOff = false →
      (∀ d u, s.readBrick bk faults = (.ok d, u) → exec (.storeReadComplete brick faults) s = .next (u.retryWith (some (bk, d))))
      ∧ (∀ u, s.readBrick bk faults = (.once, u) → exec (.storeReadComplete brick faults) s = .next ((u.poisonReads bk).retryAll))
      ∧ (∀ u, s.readBrick bk faults = (.poisoned, u) → exec (.storeReadComplete brick faults) s = .next u.retryAll))
    ∧ (∀ (t : Fin 256) (m : Byte), s.stairRuns t ∧ s.stairTimed t ∧ s.stairDue t m.toNat →
      exec (.stairDeadlinePrefetch t m) s = .next (s.issueStep t m.toNat false))

/-- R203, R205, R214, R216 to R219, R234, R235: tables, loads, shelves and crash scans. A first pass ends with tables that a builder may choose from the next
boundary on; a load whose room has left On fails, one whose pages are all placed is done, and one whose next page reads, checks, fits and is paid for
places it; a shelve freezes at its boundary, and commits the version when its pages and its manifest are programmed; an unshelve switches at its boundary
in its turn, and ends OK when all its pages are verified and the digest agrees; the scan after a port's crash begins at or after its stamp, where the walk
stands, and ends when it has passed every set. -/
def Obligations.TablesShelvesAndScans : Prop :=
  ∀ (s : State) (room : Fin 64) (n : BitVec 12) (p : Fin 32),
    let f := s.shelf n.toNat
    let l := s.load room
    (∀ (w : Fin 16) (a b : List Byte) (e : Nat × Nat), s.codec.queue.find? (fun x => x.2 = 16 * room.val + w.val) = some e
        ∧ s.codec.queue.find? (fun x => x.1 = e.1) = some e →
      ∃ t : State, exec (.tableBuilt room w a b) s = .next t ∧ t.codec.queue = s.codec.queue.erase e
        ∧ t.codec.usable = Tbl.put s.codec.usable (16 * room.val + w.val) (boundaryAfter s.now) ∧ t.pages = s.pages)
    ∧ (l.state = 1 ∧ s.sec.keysOff = false →
      (s.roomOn room = false → exec (.packedLoadPage room) s = .next (s.endLoad room 3 5 0))
      ∧ (s.roomOn room = true ∧ l.total ≤ l.done → exec (.packedLoadPage room) s = .next (s.endLoad room 2 0 0))
      ∧ (∀ hdr data n t u, s.roomOn room = true ∧ l.done < l.total ∧ s.inWindow room l.src 128 ∧ s.roomBytes room l.src 128 = some (.ok hdr) →
        let recs := (upTo 16).map fun b => ofLe ((hdr.drop (8 * b)).take 8)
        let size := 128 + 32 * (recs.map recSectors).sum
        let k := pageKey room (l.dst / 4096 + l.done)
        let q := s.page k
        let bs := bricksOf data
        let v := t.setLoad room { l with paid := l.paid + n }
        let w := u.setLoad room { l with done := l.done + 1, src := (l.src + size + 63) / 64 * 64, paid := 0 }
        (s.windowOf k).isSome ∧ recs.all packedRecordOk ∧ s.inWindow room l.src size ∧ s.roomBytes room l.src size = some (.ok data)
          ∧ (∀ b < 16, ∃ d, s.expandCoded k b (bs.getD b Stored.blank) noFooting = .ok d)
          ∧ (q.mode = .new → s.quotaRefuses room (attrDurable (s.pageAttr k)) = false)
          ∧ (attrDurable (s.pageAttr k) = true → s.fits (if q.mode = .dirty then size - storedSize q.store else size + 8))
          ∧ s.dir.entries.filter (fun e => decide (linePage e.1 = k)) = []
          ∧ s.chargeUp room (s.pageClass k) (ceilDiv size 64 - l.paid) = (n, t) ∧ ceilDiv size 64 ≤ l.paid + n
          ∧ v.isShared k = false ∧ v.replacePage k bs = some u →
        exec (.packedLoadPage room) s = .next (if l.done + 1 = l.total then w.endLoad room 2 0 0 else w).retryAll))
    ∧ (∀ j, f.job = some j →
      (j.op = 1 ∧ j.begun = false ∧ boundaryAfter j.start ≤ s.now → exec (.shelveFreeze n) s = .next (s.freezeShelf n.toNat f j))
      ∧ (j.op = 1 ∧ s.pagesDone f j ∧ j.manifest = some 0 →
        let entry := fun q : ManPage => match s.image q.slot with | some i => manPage q.page q.slot i | none => q
        let pages := sortBy (fun a b => decide (a.page < b.page)) (j.pages.map entry)
        let lost := (pages.map fun q => ((upTo 16).filter fun b => bitOf q.mask b).length).sum
        let v : ShelfVer := ⟨j.version, s.shown j.start, s.shown (stampOf s.time.course 0), digestOf pages, f.ranges, if f.recording then f.order else [], pages⟩
        let t := ((s.setShelf n.toNat { f with vers := v :: f.vers, job := some { j with poisoned := lost } }).settleOverdraft f.room).endJob
          n.toNat 0 pages.length (some (digestOf pages))
        exec (.shelveCommit n) s = .next (if bitOf f.flags 0 then t.evict f else t).retryAll)
      ∧ (∀ v, f.vers.find? (fun v => v.version = j.version) = some v →
        (j.op = 2 ∧ j.begun = false ∧ boundaryAfter j.start ≤ s.now ∧ (s.unshelveQueue.take (64 - s.unshelving)).contains n.toNat →
          exec (.unshelveSwitch n) s = .next (s.switchShelf n.toNat f j v).retryAll)
        ∧ (j.op = 2 ∧ j.begun ∧ j.todo = [] →
          let seen (e : ManPage) : ManPage := (j.found.find? fun x => x.page = e.page).getD e
          digestOf (v.pages.map seen) = v.digest →
          exec (.unshelveEnd n) s = .next ((s.endStair n.toNat).endJob n.toNat 0 v.pages.length (some v.digest)))))
    ∧ (∀ c, s.dir.downs.find? (fun c => decide (c.port = p.val) && decide (c.start ≤ s.now)) = some c →
      ∃ t : State, exec (.hostCrashScanStart p) s = .next t ∧ t.dir.scans = s.dir.scans ++ [{ c with first := s.walkAt c.start }]
        ∧ t.dir.downs = s.dir.downs.filter (fun x => x.port ≠ p.val) ∧ t.pages = s.pages ∧ t.reqs = s.reqs)
    ∧ (∀ c, s.dir.scans.find? (fun c => c.port = p.val) = some c ∧ 2 ^ 20 ≤ c.walked → exec (.hostCrashScanEnd p) s = .next (s.endScan c).retryAll)

/-- R319 to R323, R325, R326, R328 to R330, R371: the Store controller. From position 3,277 of a course a rank that still owes a refresh takes a forced
one. A row that no command has reached for ROW_IDLE cycles is closed. Every channel's urgencies are set again. A channel with 48 writes queued or no reads issues writes down to 16. A row at
the row-hammer limit has its neighbours refreshed and its count goes back to the spill count; every 16,000 courses the counts are cleared. A sweep
that is due begins at a boundary; one that ends well is the channel's training from then on, and one that fails retires the channel's ranks. A wave
takes its channels to the new point, and a paused channel resumes at it. A rank migration that waits begins at a boundary where the region has none;
when all its bays are copied the slot maps to the spare and the rank it left is retired; a dead slot whose frames have all been copied leaves its rank
retired. Both carry the marks of the units that could not be corrected, but not over a bay written since. -/
def Obligations.StoreControllerEvents : Prop :=
  ∀ (s : State) (ch : Fin 128) (rank : Fin 2) (bank : Fin 16) (g : Fin 4),
    let c := s.chan ch
    ((s.rankRefresh ch rank).need ≠ 0 ∧ 3277 ≤ s.time.pos → ∃ t : State, exec (.refreshForced ch rank) s = .next t
      ∧ (t.chan ch).forced = c.forced + 1 ∧ (t.rankRefresh ch rank).need = (s.rankRefresh ch rank).need - 1
      ∧ (t.rankRefresh ch rank).balance = (s.rankRefresh ch rank).balance - 1000 ∧ t.pages = s.pages ∧ t.reqs = s.reqs)
    ∧ (∀ row last, Tbl.find s.store.rows (bankKey ch rank bank) = some (row, last) →
      exec (.rowIdle ch rank bank) s = .next (if s.val .rowIdle 0 0 * 4096 ≤ (s.now - last) * 2400
        then s.setStore { s.store with rows := Tbl.del s.store.rows (bankKey ch rank bank) } else s))
    ∧ exec .urgencyUpdate s = .next (s.setStore { s.store with chans := Tbl.each s.store.chans fun _ c => c.reurge s.now })
    ∧ (c.mode = .serving ∧ c.sweep = none ∧ (48 ≤ c.writes.length ∨ c.reads = []) →
      exec (.writeQueueDrain ch) s = .next (s.issueWrites ch (c.writes.length - 16)))
    ∧ (∀ (row : BitVec 18) n, Tbl.find (Tbl.get s.store.hammer (bankKey ch rank bank) ⟨[], 0, 0⟩).counts row.toNat = some n ∧ s.val .rhThreshold 0 0 ≤ n →
      ∃ t : State, exec (.rowHammerRefresh ch rank bank row) s = .next t
        ∧ Tbl.find (Tbl.get t.store.hammer (bankKey ch rank bank) ⟨[], 0, 0⟩).counts row.toNat
          = some (Tbl.get s.store.hammer (bankKey ch rank bank) ⟨[], 0, 0⟩).spill
        ∧ (t.chan ch).rhRefreshes = c.rhRefreshes + (if row.toNat + 2 < 2 ^ 18 then 2 else if row.toNat + 1 < 2 ^ 18 then 1 else 0) + min 2 row.toNat
        ∧ t.pages = s.pages)
    ∧ (s.store.clearedAt + 16000 * 4096 ≤ s.now → exec .rhTableClear s = .next (s.setStore { s.store with
      hammer := Tbl.each s.store.hammer fun _ h => { h with counts := [], spill := 0 }, clearedAt := s.now }))
    ∧ (∀ cause, s.sweepDue ch = some cause ∧ c.mode = .serving ∧ c.sweep = none ∧ s.packageSweeps ch = false ∧ s.waveNow ch = false ∧ s.time.pos = 0 →
      ∃ point, exec (.trainingSweep ch) s = .next (s.setChan ch { c with sweep := some ⟨s.now, point, cause⟩ })
        ∧ (c.trained.getD c.point 0 = 0 → point = c.point))
    ∧ (∀ (w : Sweep) (narrow : BitVec 16) (bad : BitVec 2), c.sweep = some w →
      let e : Ev := { code := 0x6005, sev := 0, region := ch.val / 32, unit := 0x180 + ch.val % 32, args := leBytes 1 ch ++ leBytes 1 w.point ++ leBytes 1 w.cause ++ leBytes 2 narrow.toNat ++ leBytes 1 bad.toNat }
      (bad = 0 → exec (.trainingSweepEnd ch narrow bad) s = .next ((s.setChan ch { c with sweep := none, trained := c.trained.set w.point s.now, sweptTemp := s.packageTemp (ch.val / 4), dueChange := c.dueChange || c.deferred, deferred := false }).raise e))
      ∧ (bad ≠ 0 → exec (.trainingSweepEnd ch narrow bad) s
          = .next (((s.setChan ch { c with sweep := none, dueChange := c.dueChange || c.deferred, deferred := false }).raise e).retireChannelRanks ch 4)))
    ∧ (∀ (w : Fin 4) q, s.store.changes.find? (fun p => decide (p.at_ + w.val * 4096 = stampOf s.time.course 0)) = some q →
      exec (.setPointWave w) s = .next ((upTo 32).foldl (fun s i => s.waveChan q (4 * i + w.val)) s))
    ∧ (c.mode = .paused → exec (.setPointResume ch) s = .next ((s.setChan ch { c with mode := .serving, point := c.target }).endChanges ch))
    ∧ (∀ w, s.store.waiting.find? (fun w => w.1 = g.val) = some w ∧ Tbl.find s.store.migrations g = none ∧ s.time.pos = 0 →
      exec (.rankMigrationStart g) s = .next ((s.setStore { s.store with waiting := s.store.waiting.erase w }).startMigration g w.2.1 w.2.2))
    ∧ (∀ m, Tbl.find s.store.migrations g = some m ∧ s.copyDone g m = true →
      let marks := fun l : List BayUnit => (l.filter fun x => x.bay.toNat % 62 = m.slot).foldl (fun s x => s.markUnit g x.bay.toNat x.unit) s
      (∀ marked q, m.spare = some q →
        let u := marks (marked.filter fun x => !m.written.contains (x.bay.toNat / 62))
        ∃ t : State, exec (.rankMigrationEnd g marked) s = .next t ∧ t.pages = u.pages
          ∧ t.store = { u.store with
              migrations := Tbl.del u.store.migrations g
              map := Tbl.put u.store.map (64 * g.val + m.slot) q
              ranks := Tbl.put u.store.ranks (64 * g.val + m.source) .retired })
      ∧ (∀ marked u, m.spare = none ∧ (marks marked).copyFrames (fun b => decide (b % 62 = m.slot)) ((marks marked).framesIn g) = (true, u) →
        exec (.slotDeadCopyEnd ⟨g, marked⟩) s = .next ((u.setStore { u.store with migrations := Tbl.del u.store.migrations g }).setRank g m.source .retired)))

/-- R339, R341, R346, R351, R353, R354, R356, R357, R358, R337, R366: the Cellar controller. A row that has waited 500 courses since its first image closes; a row
programmed counts in its superblock, which is sealed at its last row, and a page whose read for it met parity errors twice is left out; one that fails
leaves its block out of service, its items are placed again and the superblock is relocated, and a die with more than 204 such blocks is retired. An
erased superblock counts an erase. Below 48 erased superblocks the victim of R351 is relocated. A block with a plane at its read limit, and a sealed
superblock that the patrol, whose reads count too, finds worn, is relocated. A codeword that is recovered counts on its channel; one that is lost
marks every image that shares it. A rebuild that ends leaves the list, and those that may now run begin. The oldest changed map page is
checkpointed, and a channel's training is repeated every 150,000,000 courses. -/
def Obligations.CellarControllerEvents : Prop :=
  ∀ (s : State) (set reloc : Bool) (way : Fin 8) (block : BitVec 12) (ch : Fin 32),
    let key := rowKey (bit01 set) reloc
    (∀ r, Tbl.find s.cellar.rows key = some r ∧ r.first + 500 * 4096 ≤ s.now → exec (.rowProgramTimer set reloc) s = .next (s.closeRow key))
    ∧ (∀ r, s.firstProgram key = some r →
      let u := s.endProgram key r
      let b := u.super r.sb
      let last := b.rows + 1 = rowsPerSb
      let w := u.setSuper r.sb { b with
        rows := b.rows + 1, mode := if last then .sealed else b.mode, sealedAt := if last then s.now else b.sealedAt }
      let v := if last then w.setCellar { w.cellar with open_ := Tbl.del w.cellar.open_ key } else w
      (∀ f, exec (.rowProgramDone set reloc (.failed f)) s = .next ((((v.failBlock r.sb f 1).replace key r.items).relocate r.sb).wornDie f))
      ∧ (∀ parity w q, v.rowParity r parity = (w, q) → exec (.rowProgramDone set reloc (.passed parity)) s
        = .next ((((w.setCellar { w.cellar with
            rowSeq := w.cellar.rowSeq + 1, programmed := w.cellar.programmed + (if reloc then 0 else q.added) }).rowItems q q.items).boundMap.eraseVictims).wearCheck)))
    ∧ (let k := sbKey (bit01 set) way block.toNat
      (s.super k).mode = .erasing →
        ∀ failed, ∃ u t : State, exec (.superblockEraseDone set way block failed) s = .next (if t.isZone k then t.setCistern { t.cistern with due := some 3 } else t)
          ∧ (failed = none → t = u ∧ u.pages = s.pages) ∧ (∀ f, failed = some f → t = u.wornDie f)
          ∧ (u.super k).mode = .erased ∧ (u.super k).rows = 0 ∧ (u.super k).erases = (s.super k).erases + 1)
    ∧ (∀ k, s.erasedTlc (bit01 set) < 48 ∧ s.pickVictim (bit01 set) = some k → exec (.relocationStart set) s = .next (s.makeVictim k))
    ∧ (let k := sbKey (ch.val % 2) way block.toNat
      s.val .readDisturbLimit 0 0 * (if s.isZone k then 5 else 1) ≤ ((upTo 4).map fun x => Tbl.get s.cellar.senses (senseKey ch way block.toNat x) 0).foldl max 0
        ∧ (s.super k).mode = .sealed →
      exec (.readDisturbRelocate ch way block) s = .next ((s.makeVictim k).raise { code := 0x6809, sev := 0, unit := 0x2C4, args := leBytes 1 (ch.val % 2) ++ leBytes 2 block.toNat ++ leBytes 1 way }))
    ∧ ((s.super (sbKey (bit01 set) way block.toNat)).mode = .sealed →
      exec (.patrol set way block false) s = .next (s.sensePatrol (sbKey (bit01 set) way block.toNat))
      ∧ exec (.patrol set way block true) s = .next ((s.sensePatrol (sbKey (bit01 set) way block.toNat)).makeVictim (sbKey (bit01 set) way block.toNat)))
    ∧ (∀ (slot : BitVec 34) (bits : BitVec 32) i l, s.image slot.toNat = some i ∧ i.loc = some l →
      let c := s.cchan (s.imageChannel i)
      (∀ how, how ≠ .lost ∧ how ≠ .rebuilt → exec (.cellarReadRecovered slot how bits) s
        = .next (s.setCchan (s.imageChannel i) { c with recoveries := c.recoveries + 1, corrected := c.corrected + bits.toNat }))
      ∧ (∃ t : State, exec (.cellarReadRecovered slot .rebuilt bits) s = .next t
        ∧ (t.cchan (s.imageChannel i)).recoveries = c.recoveries + 1 ∧ (t.cchan (s.imageChannel i)).corrected = c.corrected + bits.toNat ∧ t.pages = s.pages ∧ t.cellar.images = s.cellar.images)
      ∧ (∃ t : State, exec (.cellarReadRecovered slot .lost bits) s = .next t ∧ t.pages = s.pages
        ∧ t.cellar.images = Tbl.each s.cellar.images fun k i' => if (s.sharing i).contains k then { i' with lost := true } else i'))
    ∧ (∀ r rest, Tbl.get s.cellar.rebuilds (bit01 set) [] = r :: rest ∧ s.rebuildRuns r →
      ∃ t : State, t.cellar.rebuilds = Tbl.put s.cellar.rebuilds (bit01 set) rest ∧ t.pages = s.pages
        ∧ exec (.cellarRebuildEnd set) s = .next (t.takeRebuilds s.rebuildRuns))
    ∧ exec .mapCheckpoint s = .next (s.setCellar { s.cellar with map := s.cellar.map.drop 1 })
    ∧ (((s.cchan ch).mode = .serving ∨ (s.cchan ch).mode = .rebuilding) ∧ (s.cchan ch).trainedAt + 150000000 * 4096 ≤ s.now →
      exec (.cellarChannelTraining ch) s = .next (s.setCchan ch { s.cchan ch with trainedAt := s.now }))

/-- R367, R375, R376, R379, R380, R383, R384: scrubbing and repair. A scrub pass of the Loft takes what it counted and what it found bad; one of the Store
ends with its totals at zero and a new pass begun. A repair of a brick whose page has left the Store is dropped; one of a brick in the Store writes
the verified plaintext of its written lines through the landing. A lost image with a CLEAN copy of a page in the Store is replaced by it; without one
it is poisoned with its referrers. A repeat entry older than 43,200,000,000 courses expires. A row with a unit counted three times is taken out of
use, and where the rubble list is full its rank is retired; a row already listed is left as it is. -/
def Obligations.ScrubbingAndRepair : Prop :=
  ∀ (s : State),
    (∀ counts bad, s.dark = false ∧ s.integ.loftFrom + 500000 * 4096 ≤ s.now → exec (.loftScrubPass counts bad) s
      = .next (bad.foldl State.loftBad (counts.foldl State.loftCount (s.setInteg { s.integ with loftFrom := s.now }))))
    ∧ (∀ finds, (s.fn .scrubber).state = .on ∧ s.power.mode ≠ .quiet ∧ s.power.zeroing = false → ∃ t : State, exec (.scrubPass finds) s = .next t
        ∧ t.integ.scrubFrom = s.now ∧ t.integ.passCorrected = 0 ∧ t.integ.passUncorrected = 0)
    ∧ (∀ (b : BrickId) r, let bk := brickIdKey b
      s.integ.repairs.find? (fun r => r.brick = bk) = some r →
        ((s.page (bk / 16)).inStore = false → exec (.brickRepair b) s = .next (s.setInteg { s.integ with repairs := s.integ.repairs.erase r }))
        ∧ (∀ old pm, (s.page (bk / 16)).inStore = true ∧ s.baseOf bk = .ready old pm
          ∧ ((s.slotOf bk).isSome ∨ s.landingFull = false ∧ (attrDurable (s.pageAttr (bk / 16)) → s.fits 264)) →
          ∃ t u : State, exec (.brickRepair b) s = .next t.retryAll
            ∧ u = ((s.putSlot bk { Landing.init s.now with
                data := (upTo 4).foldl (fun d j => if bitOf pm j then mergeLine d j ((r.plain.drop (64 * j)).take 64) fullMask else d) old,
                written := pm }).requeue bk false).pageWritten (bk / 16)
            ∧ t.landing = u.landing ∧ t.pages = u.pages ∧ t.integ.repaired = s.integ.repaired + 1))
    ∧ (∀ (slot : BitVec 34) i, s.image slot.toNat = some i ∧ i.lost = true →
      let l := s.pages.filter fun e => e.2.slot = some slot.toNat
      (∀ k p, l.find? (fun e => e.2.mode = .clean) = some (k, p) → ∃ t u : State, exec (.referrerSearchEnd slot) s = .next t
          ∧ u = ((s.setCellar { s.cellar with images := Tbl.put s.cellar.images slot.toNat { imageOf k p.form i.loc i.refs with lost := false } }).updPage k
            fun p => { p with mode := .dirty, dirtySince := s.now }).queueWriteBack k 1
          ∧ t.pages = u.pages ∧ t.cellar = u.cellar)
      ∧ (l.find? (fun e => e.2.mode = .clean) = none → exec (.referrerSearchEnd slot) s = .next (s.poisonReferrers slot.toNat i)))
    ∧ (∀ (g : Fin 4) (bay : BitVec 31) (unit : Fin 8), let t := Tbl.get s.integ.repeats g []
      exec (.repeatEntryExpire g bay unit) s = .next (s.setInteg { s.integ with repeats := Tbl.put s.integ.repeats g (t.filter fun e =>
        !(decide (e.bay = bay.toNat) && decide (e.unit = unit.val) && decide (e.course + 43200000000 < s.time.course))) })
      ∧ ((∃ e ∈ t, e.bay = bay.toNat ∧ e.unit = unit.val ∧ 3 ≤ e.count) →
        let u := s.setInteg { s.integ with repeats := Tbl.put s.integ.repeats g (t.filter fun e => !(decide (e.bay = bay.toNat) && decide (e.unit = unit.val))) }
        let at_ := u.unitRow g bay.toNat unit
        let listed := (u.rubble g).contains (rowWord (rankChannel g at_.1) (at_.1 % 2) at_.2.1 at_.2.2)
        (listed = true → exec (.rowWeak g bay unit) s = .next u)
        ∧ (listed = false ∧ 4096 ≤ (u.rubble g).length → exec (.rowWeak g bay unit) s = .next (u.retireRank g at_.1 1))
        ∧ (listed = false ∧ (u.rubble g).length < 4096 → exec (.rowWeak g bay unit) s = .next (u.rowRetired g at_.1 at_.2.1 at_.2.2))))

/- ## The Cistern, security, the start, the vault and the board -/

/-- R389, R391 to R393: the Cistern. The ceiling is recomputed at a boundary that owes it or at a thousandth; a full pack is Ready; a Ready pack with a
cell below 3.76 V charges again where it may; a fault stands until every cell has been within its limits for 1,000 courses; a check waits for the
dirty total to fit, is deferred by a day past its deadline, discharges, and measures every cell. -/
def Obligations.CisternEvents : Prop :=
  ∀ (s : State),
    let c := s.cistern
    (s.time.pos = 0 ∧ c.mode ≠ .idle ∧ (c.due.isSome ∨ s.time.course % 1000 = 0) → exec .ceilingRecompute s = .next (s.recomputeCeiling false))
    ∧ (c.mode = .charging ∧ c.full → exec .chargeComplete s = .next (s.setCistern { c with mode := .ready }))
    ∧ (∀ steps, c.mode = .ready ∧ c.cells.any (fun x => decide (x.mv < 3760)) ∧ c.mayCharge ∧ c.phase = .none →
      ∃ t : State, exec (.chargeResume steps) s = .next t ∧ t.cistern.mode = .charging ∧ t.cistern.ceiling = c.ceiling ∧ t.pages = s.pages)
    ∧ (∀ (cell : Byte) cause, c.mode ≠ .idle ∧ s.dark = false ∧ c.fault = none →
      ∃ t : State, exec (.cisternFault cell cause) s = .next t
        ∧ t.cistern = { c with fault := some (cell.toNat, cause), okRun := 0, phase := .none, asked := false, due := some 2 } ∧ t.pages = s.pages)
    ∧ (c.fault.isSome ∧ 1000 ≤ c.okRun → ∃ t : State, exec .cisternFaultClear s = .next t ∧ t.cistern.fault = none
        ∧ t.cistern.mode = (if c.full then .ready else .charging) ∧ t.cistern.due = some 2)
    ∧ (c.mode ≠ .idle ∧ c.nextCheck ≤ s.time.course ∧ s.dark = false → exec .checkInterval s = .next s.startCheck)
    ∧ (∀ t, c.phase = .waiting t →
      (c.due = none ∧ s.dirtyStored ≤ s.ceiling → exec .checkDischargeStart s = .next (s.setCistern { c with phase := .discharging }))
      ∧ (t ≤ s.time.course ∧ s.ceiling < s.dirtyStored → exec .checkDefer s
        = .next (s.setCistern { c with phase := .none, nextCheck := s.time.course + 43200000000, due := some 1 })))
    ∧ (∀ cells, c.phase = .discharging → ∃ t : State, exec (.cisternCheck cells) s = .next t ∧ t.cistern.phase = .none ∧ t.cistern.mode = .charging
        ∧ t.cistern.lastCheck = s.now ∧ t.cistern.nextCheck = s.time.course + s.val .checkInterval 0 0 ∧ t.cistern.due = some 1)

/-- R409, R420, R428, R430: an alarm is taken as its sensors and the lifecycle have it; an erase that ends burns one lifecycle entry, counts SEAL_EPOCH on
by one up to 32, unlocks and starts the module again. The SPDM requests (their layouts are the model's, log entries 29 and 30): one that SPDM_MESSAGE
takes is answered OK, does what its code does, and its response waits in the session: outside a secured message an ERROR where its version is not that of
its code; for a session that is not the open one an ERROR; in the session that is established, a sealed response. -/
def Obligations.AlarmsErasesAndSpdm : Prop :=
  ∀ (s : State) (rq : Rq) (sid : Option (BitVec 32)) (msg : List Byte),
    (∀ (m : BitVec 6) lid, exec (.alarm m lid) s = .next (s.alarmed m.toNat lid))
    ∧ (∀ sensor target, s.sec.erasing = some (sensor, target) → ∃ t u : State, exec .eraseDone s = .next (t.startAsk (if sensor = 255 then 4 else 6))
        ∧ u = s.setSec { s.sec with erasing := none, epoch := min 32 (s.sec.epoch + 1), log := s.sec.log ++ [if 31 ≤ s.sec.log.length then 4 else target], lockState := 0, locked := false, keysOff := false, hard := 0, release := none }
        ∧ t.sec = u.sec ∧ t.pages = s.pages ∧ t.power = s.power)
    ∧ (s.odLive rq.src ∧ (s.classOf rq.src).isSome ∧ ((s.openSess rq.src).barred rq.src .spdmMessage 0 0 (some (ofLe msg)) noCalls).isNone
        ∧ lengthFits Ent.spdmMessage.row msg.length →
      let u := s.openSess rq.src
      let done (act : SpdmAct) : State := ((State.spdmTake rq sid msg act u).2.answers rq .spdmMessage 0 0 rOk)
      exec (.getVersion rq sid msg) s = .next (done (spdmGetVersion rq.src msg))
      ∧ exec (.getCapabilities rq sid msg) s = .next (done (spdmGetCapabilities rq.src msg))
      ∧ exec (.negotiateAlgorithms rq sid msg) s = .next (done (spdmNegotiate rq.src msg))
      ∧ exec (.getDigests rq sid msg) s = .next (done spdmGetDigests)
      ∧ exec (.getCertificate rq sid msg) s = .next (done (spdmGetCertificate msg))
      ∧ exec (.challenge rq sid msg) s = .next (done (spdmChallenge msg))
      ∧ exec (.getMeasurements rq sid msg) s = .next (done (spdmGetMeasurements msg))
      ∧ exec (.keyExchange rq sid msg) s = .next (done (spdmKeyExchange rq.src msg))
      ∧ exec (.finish rq sid msg) s = .next (done (spdmFinish rq.src sid msg))
      ∧ exec (.heartbeat rq sid msg) s = .next (done spdmHeartbeat)
      ∧ exec (.keyUpdate rq sid msg) s = .next (done (spdmKeyUpdate msg))
      ∧ exec (.endSession rq sid msg) s = .next (done (spdmEndSession rq.src))
      ∧ exec (.getPqChain rq sid msg) s = .next (done (spdmPqChain msg))
      ∧ exec (.getPqSignature rq sid msg) s = .next (done (spdmPqSignature msg))
      ∧ exec (.spdmUnsupportedRequest rq sid msg) s = .next (done fun x s => (spdmErr 0x07 (field msg 1 1), x, s))
      ∧ (∀ act, sid = none ∧ field msg 0 1 = (if field msg 1 1 = 0x84 then 0x10 else 0x13) →
        let r := act (u.spdmOf rq.src) u
        done act = ((r.2.2.putSpdm r.2.1).updSess rq.src fun y => { y with spdm := r.1 }).answers rq .spdmMessage 0 0 rOk)
      ∧ (∀ act, sid = none ∧ field msg 0 1 ≠ (if field msg 1 1 = 0x84 then 0x10 else 0x13) →
        done act = ((u.putSpdm (u.spdmOf rq.src)).updSess rq.src fun y => { y with spdm := spdmErr 0x41 0 }).answers rq .spdmMessage 0 0 rOk)
      ∧ (∀ act i, sid = some i ∧ field msg 0 1 = (if field msg 1 1 = 0x84 then 0x10 else 0x13) →
        let x := u.spdmOf rq.src
        (x.session = 0 ∨ x.sid ≠ i.toNat →
          done act = ((u.putSpdm x).updSess rq.src fun y => { y with spdm := errDecrypt }).answers rq .spdmMessage 0 0 rOk)
        ∧ (x.session = 2 ∧ x.sid = i.toNat →
          let r := act { x with reqSeq := x.reqSeq + 1 } u
          let y := sealAnswer { x with reqSeq := x.reqSeq + 1 } r.2.1 r.1
          done act = ((r.2.2.putSpdm y.2).updSess rq.src fun z => { z with spdm := y.1 }).answers rq .spdmMessage 0 0 rOk)))

/-- R457 to R459, R464 to R466, R474 to R476: functions, the start and the self-test. A Starting function that has come up is On, or is stopped at its
safe point where a disable is pending; a Stopping one that has drained is Off; a start begins with its cause where the board lets it; a step that runs
ends as its work ended, or at its limit as its rule says; the next slice that has headroom begins at a boundary at which a slice is due and nothing bars
it, and takes a Loft group's pages out of the Loft; it ends after its courses, and one that fails is kept with what was measured. -/
def Obligations.FunctionsStartsAndSlices : Prop :=
  ∀ (s : State) (f : FnId) (e : StepEnd) (n : Fin 14) (late : List (BitVec 8)) (measured limit : BitVec 32),
    let w := s.fn f
    (w.state = .starting ∧ w.pendDis = false ∧ s.startedNow f → exec (.functionStarted f) s = .next (s.fnOn f).retryAll)
    ∧ (w.state = .starting ∧ w.pendDis = true → exec (.functionSafePoint f) s = .next (s.fnStop f 0))
    ∧ (w.state = .stopping ∧ s.stoppedNow f → exec (.functionStopped f) s = .next (s.fnOff f).retryAll)
    ∧ (∀ c, s.startCause = some c ∧ s.mayStart ∧ s.sec.erasing = none → exec .startBegin s = .next (s.startBegin c))
    ∧ (s.stepRuns (endNo e) →
      (e = .s01 true → exec (.startStep e) s = .next s.endS01) ∧ (e = .s01 false → exec (.startStep e) s = .next (s.stepFailed 1))
      ∧ (∀ ok, e = .s02 ok → exec (.startStep e) s = .next (s.endS02 ok)) ∧ (∀ l, e = .s03 l → exec (.startStep e) s = .next (s.endS03 l))
      ∧ (∀ l, e = .s04 l → exec (.startStep e) s = .next (s.endS04 l)) ∧ (∀ l, e = .s05 l → exec (.startStep e) s = .next (s.endS05 l))
      ∧ (∀ l, e = .s06 l → exec (.startStep e) s = .next (s.endS06 l)) ∧ (∀ l, e = .s07 l → exec (.startStep e) s = .next (s.endS07 l))
      ∧ (∀ a b c d, e = .s08 a b c d → exec (.startStep e) s = .next (s.endS08 a b c d))
      ∧ (e = .s09 → exec (.startStep e) s = .next (s.recoverFlush.passOn 9)) ∧ (e = .s10 → exec (.startStep e) s = .next (s.passOn 10))
      ∧ (e = .s11 ∧ s.time.acquired → exec (.startStep e) s = .next (s.passOn 11)) ∧ (∀ v, e = .s12 v → exec (.startStep e) s = .next (s.endS12 v))
      ∧ (∀ r, e = .s13 r → exec (.startStep e) s = .next (s.goS13 r)))
    ∧ (∀ l, s.stepLimit n = some l ∧ s.stepRuns n ∧ (s.startRec.step n).start + 4096 * l ≤ s.now →
      exec (.startStepLimit n late) s = .next (s.stepLate n late))
    ∧ (∀ x, s.time.pos = 0 ∧ (s.lifecycle = 1 ∨ s.lifecycle = 2) ∧ s.decided .selftestEnable 0 0 = 1 ∧ s.power.keeperDown = false
        ∧ (s.power.mode = .full ∨ s.power.mode = .capped) ∧ s.test.running = none ∧ s.power.step = 0
        ∧ s.test.last + 4096 * s.decided .sliceInterval 0 0 ≤ s.now
        ∧ s.slicesLeft.find? (fun x => s.headroom x.kind && !s.recoveryIn x.region) = some x →
      let u := (s.setTest { s.test with running := some (x, s.now), last := s.now, aborting := none }).loopPort x true
      exec .sliceStart s = .next (if x.kind = 8 then (u.groupPages x.region (x.unit - 0x240)).foldl State.dropLoft u
        else if x.kind = 2 ∨ x.kind = 3 then u.settleLanes else u))
    ∧ (∀ x since, s.test.running = some (x, since) ∧ since + 4096 * sliceCourses x.kind ≤ s.now →
      let u := (s.setTest { s.test with running := none, aborting := none, done := s.test.done ++ [x], fails := s.test.fails + 0 }).loopPort x false
      exec (.sliceEnd true measured limit) s
        = .next (if x.kind = 9 then u.setTest { u.test with deaf := u.test.deaf.filter (· ≠ x.region) } else u).endRound
      ∧ ∃ t : State, exec (.sliceEnd false measured limit) s = .next t.endRound ∧ t.test.failed = some (x, measured.toNat, limit.toNat)
        ∧ t.test.done = s.test.done ++ [x] ∧ t.test.fails = s.test.fails + 1 ∧ t.test.running = none)

/-- R486 to R489, R492 to R498: the vault's events and the PageMove messages. Every 500,000 courses the members that are to be tried are tried; Alive goes
to each member of a pool that has been sent nothing for 256 courses; a Joined member not heard for VAULT_LOSS_COURSES is Lost; what a BUSY answer put off is
sent again. A message with a free TAG on an Up Peer port, while the module is up and neither in Quiet nor on its way out of it, is heard and answered OK
at link level. Where its sender is one that is heeded for its kind, and what it says applies here, it is acted on (a page for which no run of bays is free is
answered BUSY in place of OK: the model's choice, log entry 130); from a sender that is Fenced, each but
Alive and Relay is answered MoveRefused, cause 3, and nothing more. -/
def Obligations.VaultEventsAndMessages : Prop :=
  ∀ (s : State) (port : Fin 32) (tag src : BitVec 12) (room : Fin 64) (page : BitVec 34) (w epoch : Word) (m : BitVec 12),
    let k := pageKey room page.toNat
    let p := s.peer m.toNat
    (∀ views, s.vault.triedAt + 500000 * 4096 ≤ s.now →
      let u := (if s.vault.mode = .joining ∧ s.power.mode ≠ .starting then s.joinSelf else s).tryPeers (fun s i => decide ((s.peer i).st = .unknown) || decide ((s.peer i).st = .refused)
        || (s.peer i).again && (decide ((s.peer i).st = .lost) || decide ((s.peer i).st = .fenced))) views
      exec (.joinRetry views) s = .next ((u.setVault { u.vault with triedAt := s.now }).retryAll))
    ∧ (s.vault.mode = .joined ∨ s.vault.mode = .fenced → exec .aliveSend s = .next (s.poolPeers.foldl (fun s i =>
        if (s.peer i).sent + 256 * 4096 ≤ s.now then s.tell i 11 s.ownIndex 0 0 (leBytes 8 (s.val .vaultEpoch 0 0)) else s) s))
    ∧ (p.st = .joined ∧ p.heard + 4096 * s.val .vaultLossCourses 0 0 ≤ s.now → exec (.peerSilence m) s = .next (s.losePeer m.toNat 0))
    ∧ exec .pageMoveResend s = .next ((s.vault.again.filter fun e => decide (e.1 ≤ s.now)).foldl (fun s e => s.sendMove e.2)
        (s.setVault { s.vault with again := s.vault.again.filter fun e => !decide (e.1 ≤ s.now) }))
    ∧ (s.isUp port ∧ s.roleOf port = .peer ∧ s.quieted = false ∧ s.power.exitAt = none ∧ s.vaultLive
        ∧ s.tagOpen port tag.toNat = false →
      let u := (s.hear src.toNat).respond port tag.toNat 0 none 0
      let fenced := (u.peer src.toNat).st = .fenced
      (¬ fenced →
        exec (.moveReq port tag src room page) s = .next (u.orderMove k src.toNat).retryAll
        ∧ (∀ target, u.heeds src.toNat 2 ∧ u.isPool k ∧ u.homedHere k ∧ u.baseModule k = src.toNat ∧ Tbl.find u.vault.leaving k = none →
          exec (.moveOrder port tag src room page target) s = .next (u.freezePage k target.toNat).retryAll)
        ∧ (∀ gen data, u.heeds src.toNat 3 ∧ u.awaited k → exec (.moveData port tag src room page gen data) s
          = .next (if u.pageFits k gen.toNat data then (u.landPage k gen.toNat (some data)).retryAll else s.respond port tag.toNat 7 none 0))
        ∧ (u.heeds src.toNat 4 ∧ u.awaited k → exec (.moveEmpty port tag src room page) s = .next (u.landPage k 0 none).retryAll)
        ∧ (u.heeds src.toNat 5 ∧ u.awaited k → exec (.moveSoon port tag src room page w) s
          = .next (u.setVault { u.vault with far := Tbl.put u.vault.far k (.soon (u.stampIn w)) }).retryAll)
        ∧ (∀ r, u.heeds src.toNat 6 ∧ Tbl.find u.vault.records k = some r ∧ r.target = some src.toNat →
          exec (.moveAck port tag src room page w) s = .next (u.commitMove k (u.stampIn w)).retryAll)
        ∧ (u.baseModule k = src.toNat ∧ (Tbl.find u.vault.leaving k).isSome →
          exec (.moveRelease port tag src room page true) s = .next (u.releaseOld k).retryAll
          ∧ exec (.moveRelease port tag src room page false) s = .next (u.unfreeze k).retryAll)
        ∧ (∀ done, u.baseModule k = src.toNat ∧ (Tbl.find u.vault.leaving k).isNone ∧ (Tbl.find u.vault.far k).isSome →
          exec (.moveRelease port tag src room page done) s = .next (u.confirm k done).retryAll)
        ∧ (∀ cause, u.heeds src.toNat 8 ∧ u.awaited k ∧ u.baseModule k = src.toNat →
          exec (.moveDefer port tag src room page cause w) s = .next (u.putOff k u.ownIndex cause.toNat (u.stampIn w)).retryAll)
        ∧ (∀ cause, u.heeds src.toNat 9 → exec (.moveRefused port tag src room page cause) s = .next (u.moveRefused k src.toNat cause.toNat).retryAll)
        ∧ (u.heeds src.toNat 10 → exec (.moveQuery port tag src room page) s = .next (u.moveQuery k src.toNat).retryAll))
      ∧ (fenced → ∀ t : State, t = u.tell src.toNat 9 0 3 0 [] →
        exec (.moveReq port tag src room page) s = .next t
        ∧ (∀ target, exec (.moveOrder port tag src room page target) s = .next t)
        ∧ (∀ gen data, exec (.moveData port tag src room page gen data) s = .next t)
        ∧ exec (.moveEmpty port tag src room page) s = .next t
        ∧ exec (.moveSoon port tag src room page w) s = .next t
        ∧ exec (.moveAck port tag src room page w) s = .next t
        ∧ (∀ done, exec (.moveRelease port tag src room page done) s = .next t)
        ∧ (∀ cause, exec (.moveDefer port tag src room page cause w) s = .next t
          ∧ exec (.moveRefused port tag src room page cause) s = .next t)
        ∧ exec (.moveQuery port tag src room page) s = .next t)
      ∧ exec (.alive port tag src epoch) s = .next (u.aliveFrom src.toNat epoch.toNat).retryAll
      ∧ (∀ frame, exec (.relay port tag src frame) s = .next (u.frameIn (.relay src) true frame).retryAll))

/-- R427, R503 to R511: the board. The inputs act as they are asserted and deasserted; one that toggles counts as asserted; one that stands too long while
its reading is good is declared faulty and no longer heeded; overvoltage opens the input switch; the IEEE 1149.1 instructions run while RESET_N is
asserted, and shift out what their register captures (the model's own length and values, log entry 65). -/
def Obligations.BoardEvents : Prop :=
  ∀ (s : State),
    exec .thermTripNAsserted s = .next s.thermTrip
    ∧ exec .resetNAsserted s = .next s.resetAsserted ∧ exec .resetNDeasserted s = .next s.resetDeasserted
    ∧ exec .seatLost s = .next s.unseated
    ∧ (s.power.mode = .starting → s.resetAsserted.power.mode = .off)
    ∧ (∀ (i : Fin 5) (edges : BitVec 16), 8 < edges.toNat ∧ (s.input i).toggling = false →
      let u := (s.setInput i { s.input i with toggling := true }).boardEvent 0xC001 2 (leBytes 1 i ++ leBytes 2 edges.toNat)
      exec (.inputToggling i edges) s = .next (if (s.input i).taken then u else u.inputAsserted i))
    ∧ (∀ i : Fin 2, (s.input i).taken ∧ (s.input i).faulty = false ∧ (s.input i).since + 5000000 * 4096 ≤ s.now
        ∧ (if i.val = 0 then s.vinIn else s.diesCool) ∧ s.dark = false →
      ∃ t : State, exec (.inputFaulty i) s = .next t ∧ (t.input i).faulty = true ∧ (t.input i).seen = false ∧ t.power = s.power ∧ t.pages = s.pages)
    ∧ (∀ peak : BitVec 16, s.board.switchOpen = false ∧ 63000 < peak.toNat → exec (.inputOvervoltage peak) s
      = .next (((s.setBoard { s.board with switchOpen := true }).boardEvent 0xC006 2 (leBytes 2 peak.toNat)).powerLoss .below38))
    ∧ exec .inputSwitchClose s = .next (s.setBoard { s.board with switchOpen := false })
    ∧ (∀ mv : BitVec 16, (s.setBoard { s.board with aux := mv.toNat }).auxIn = false ∧ s.board.auxLost = false →
      ∃ t : State, exec (.auxLost mv) s = .next t ∧ t.board = { s.board with aux := mv.toNat, auxLost := true } ∧ t.od.i3c.addr = 0 ∧ t.pages = s.pages)
    ∧ exec .benchEnNAsserted s = .next ((s.setBoard { s.board with bench := true }).openSess .uart)
    ∧ exec .benchEnNDeasserted s = .next ((s.setBoard { s.board with bench := false }).endSess .uart)
    ∧ (let u := s.takeInput 3
      exec .presentNAsserted s = .next (u.setBoard { u.board with seatLost := false }))
    ∧ (∀ i : Fin 5, i.val ≠ 2 ∧ i.val ≠ 3 ∧ (s.input i).taken → exec (.inputDeasserted i) s
      = .next (s.setInput i { s.input i with taken := false, toggling := false, seen := (s.input i).seen || (s.input i).faulty, since := s.now }))
    ∧ exec (.inputDeasserted 2) s = .next s.resetDeasserted ∧ exec (.inputDeasserted 3) s = .next s.unseated
    ∧ (s.inReset → exec .bypass s = .next ((s.setBoard { s.board with jtag := .bypass }).send (.jtag 0))
      ∧ exec .idcode s = .next ((s.setBoard { s.board with jtag := .idcode }).send (.jtag Config.idcode.toNat))
      ∧ (∀ data, ∃ t : State, exec (.samplePreload data) s = .next t ∧ t.board = { s.board with jtag := .sample, scan := data }
        ∧ t.out = s.out ++ [.jtag (Config.boundarySample s.free).toNat] ∧ t.pages = s.pages)
      ∧ exec .extest s = .next ((s.setBoard { s.board with jtag := .extest }).send (.jtag s.board.scan.toNat)))

/- ## The machine as a whole -/

/-- A step of the block. The command at the front of the queue runs on the state with the rest of the queue. On an empty queue one unit of the sub-course
position passes, up to the last of the course, with what the ports send in it and what the crash walks reach in it, and none in Off; that an empty queue
lets time pass is the model's choice (log entry 1). -/
def Obligations.StepRunsTheFrontCommand : Prop :=
  ∀ (s : State),
    (∀ (c : Instr) (rest : List Instr), s.pending = c :: rest → step s = exec c (s.setPending rest))
    ∧ (s.pending = [] ∧ s.power.mode = .off → step s = .next s)
    ∧ (s.pending = [] ∧ s.power.mode ≠ .off → step s = .next
      (((s.pump s.time.pos (min 4095 (s.time.pos + 1))).setTime { s.time with pos := min 4095 (s.time.pos + 1) }).walkOn))

/-- R35, R60, R107, R132, R437, R457: what reset leaves, as far as the spec gives it: a module that is Off, time Free, every entry of the dictionary at
its default, every function Off, every port Down, every page New and reading zero, an empty queue; and no tile store is out of its form. -/
def Obligations.ResetValues : Prop :=
  State.reset.power.mode = .off ∧ State.reset.time.mode = .free ∧ State.reset.pending = []
  ∧ (∀ (e : Ent) (i j : Nat), State.reset.val e i j = e.row.dflt ∧ State.reset.written e i j = false)
  ∧ (∀ f : FnId, (State.reset.fn f).state = .off) ∧ (∀ p, (State.reset.port p).link = .down)
  ∧ (∀ k, (State.reset.page k).mode = .new) ∧ State.reset.sec.log = [] ∧ State.reset.lifecycle = 0 ∧ State.reset.tally.entries = []
  ∧ State.reset.tilesWf = true ∧ step State.reset = .next State.reset

/-- R444: a frame laid out and read back. Whatever the request's opcode, index, sub-index, sequence and payload of up to 256 bytes, the frame that carries
them is read as them, with zeros after it where the transport delivers whole slots; where it does not, bytes after it discard it. -/
def Obligations.FramesAreReadBack : Prop :=
  ∀ (op idx sub seq n : Nat) (payload : List Byte), 1 ≤ op → op ≤ 6 → idx < 2 ^ 16 → sub < 2 ^ 8 → seq < 2 ^ 16 → payload.length ≤ 256 →
    let f := odFrame op idx sub seq payload
    f.length = 12 + payload.length
    ∧ frameOf false f = some ⟨op, idx, sub, seq, payload⟩
    ∧ frameOf true (f ++ List.replicate n 0) = some ⟨op, idx, sub, seq, payload⟩
    ∧ (0 < n → frameOf false (f ++ List.replicate n 0) = none)

/-- R409, R410: fuses stay burnt. From every state with SEAL_EPOCH at most 32, whatever the step, the lifecycle log keeps every entry it has, in its
place, and SEAL_EPOCH never falls and stays at most 32. -/
def Obligations.FusesStayBurnt : Prop :=
  ∀ (s t : State), s.sec.epoch ≤ 32 → step s = .next t →
    s.sec.log <+: t.sec.log ∧ s.sec.epoch ≤ t.sec.epoch ∧ t.sec.epoch ≤ 32

/-- R171: the expansion of a FILL brick. Plaintext byte i is pattern byte i mod 8, whose pattern stands in bytes 0 to 7 of its one sector; bytes 8 to 31
that are not all zero are a size mismatch of cause 7. -/
def Obligations.FillBricksExpand : Prop :=
  ∀ (v : ExpandEnv) (b : Stored), recMode b.record = .fill → recordOk b.record → b.body.length = 32 →
    let plain := (upTo 256).map fun i => b.body.getD (i % 8) 0
    recSectors b.record = 1
    ∧ ((∀ i, 8 ≤ i → i < 32 → b.body.getD i 0 = 0) → crc32c plain = recCrc b.record → expand v b = .ok plain)
    ∧ ((∃ i, 8 ≤ i ∧ i < 32 ∧ b.body.getD i 0 ≠ 0) → ∃ e, expand v b = .error e ∧ e.cause = 7)

/-- R412: a Keeper restart does not touch the Keystone: its state is as it was, keys, latches and lifecycle among it, and every alarm keeps its response. -/
def Obligations.KeeperRestartLeavesTheKeystone : Prop :=
  ∀ (s : State),
    (s.isRunning ∧ (s.power.keeperRestart = none ∨ ∃ t, s.power.keeperRestart = some t ∧ t + 300000000 * 4096 ≤ s.now) →
      ∃ t : State, exec .keeperWatchdog s = .next t ∧ t.power.keeperDown ∧ t.sec = s.sec ∧ ∀ i, t.val .alarmResponse 0 i = s.val .alarmResponse 0 i)
    ∧ (s.power.keeperDown → ∃ t : State, exec .keeperRestartDone s = .next t ∧ t.power.keeperDown = false ∧ t.sec = s.sec
      ∧ ∀ i, t.val .alarmResponse 0 i = s.val .alarmResponse 0 i)

/-- R485: the firmware compatibility band is bits [31:16] of RELEASE in the image of the running slot. -/
def Obligations.CompatibilityBand : Prop :=
  ∀ (s : State) (x : FwSlot), s.sec.slots[s.sec.running]? = some x → x.release < 2 ^ 32 → s.compatBand = bitsOf x.release 31 16
end

