-- ==== Sys2Proof/Laws/Dispatch.lean ====
section
/-!
SUPPORT. Sys2Proof/Laws/Dispatch.lean: the meaning that each command is dispatched to.
-/

namespace Sys2Proof.Machine

@[simp] theorem exec_courseBoundary (env s) : exec (.courseBoundary env) s = execCourseBoundary env s := rfl
@[simp] theorem exec_cappedReturnFull (s) : exec (.cappedReturnFull) s = execCappedReturnFull s := rfl
@[simp] theorem exec_dieAtLimit (die s) : exec (.dieAtLimit die) s = execDieAtLimit die s := rfl
@[simp] theorem exec_regionFault (region s) : exec (.regionFault region) s = execRegionFault region s := rfl
@[simp] theorem exec_keeperWatchdog (s) : exec (.keeperWatchdog) s = execKeeperWatchdog s := rfl
@[simp] theorem exec_keeperRestartDone (s) : exec (.keeperRestartDone) s = execKeeperRestartDone s := rfl
@[simp] theorem exec_quietEnter (rq payload s) : exec (.quietEnter rq payload) s = execQuietEnter rq payload s := rfl
@[simp] theorem exec_quietFreeze (s) : exec (.quietFreeze) s = execQuietFreeze s := rfl
@[simp] theorem exec_quietEntered (s) : exec (.quietEntered) s = execQuietEntered s := rfl
@[simp] theorem exec_quietExit (rq payload s) : exec (.quietExit rq payload) s = execQuietExit rq payload s := rfl
@[simp] theorem exec_quietExitEnd (s) : exec (.quietExitEnd) s = execQuietExitEnd s := rfl
@[simp] theorem exec_zeroingPassEnd (s) : exec (.zeroingPassEnd) s = execZeroingPassEnd s := rfl
@[simp] theorem exec_powerCap (rq payload s) : exec (.powerCap rq payload) s = execPowerCap rq payload s := rfl
@[simp] theorem exec_pwrfailNAsserted (s) : exec (.pwrfailNAsserted) s = execPwrfailNAsserted s := rfl
@[simp] theorem exec_inputBelow38v (s) : exec (.inputBelow38v) s = execInputBelow38v s := rfl
@[simp] theorem exec_braceEnd (s) : exec (.braceEnd) s = execBraceEnd s := rfl
@[simp] theorem exec_braceLimit (s) : exec (.braceLimit) s = execBraceLimit s := rfl
@[simp] theorem exec_flushComplete (drawn zone s) : exec (.flushComplete drawn zone) s = execFlushComplete drawn zone s := rfl
@[simp] theorem exec_railsFall (listed programmed s) : exec (.railsFall listed programmed) s = execRailsFall listed programmed s := rfl
@[simp] theorem exec_powerReturn (s) : exec (.powerReturn) s = execPowerReturn s := rfl
@[simp] theorem exec_ptpMeasurement (domain offset tai s) : exec (.ptpMeasurement domain offset tai) s = execPtpMeasurement domain offset tai s := rfl
@[simp] theorem exec_timeBeacon (port b s) : exec (.timeBeacon port b) s = execTimeBeacon port b s := rfl
@[simp] theorem exec_beaconSend (s) : exec (.beaconSend) s = execBeaconSend s := rfl
@[simp] theorem exec_timeHoldover (s) : exec (.timeHoldover) s = execTimeHoldover s := rfl
@[simp] theorem exec_holdoverEstimateAdrift (s) : exec (.holdoverEstimateAdrift) s = execHoldoverEstimateAdrift s := rfl
@[simp] theorem exec_tallyPageDrain (s) : exec (.tallyPageDrain) s = execTallyPageDrain s := rfl
@[simp] theorem exec_tallyBlock (rq s) : exec (.tallyBlock rq) s = execTallyBlock rq s := rfl
@[simp] theorem exec_portRole (rq port payload s) : exec (.portRole rq port payload) s = execPortRole rq port payload s := rfl
@[simp] theorem exec_receiverDetected (port lanes s) : exec (.receiverDetected port lanes) s = execReceiverDetected port lanes s := rfl
@[simp] theorem exec_detectTimeout (port s) : exec (.detectTimeout port) s = execDetectTimeout port s := rfl
@[simp] theorem exec_detectRetry (port s) : exec (.detectRetry port) s = execDetectRetry port s := rfl
@[simp] theorem exec_equaliseDone (port s) : exec (.equaliseDone port) s = execEqualiseDone port s := rfl
@[simp] theorem exec_equaliseLimit (port agreed s) : exec (.equaliseLimit port agreed) s = execEqualiseLimit port agreed s := rfl
@[simp] theorem exec_configureExchange (port partner reversed polarity s) : exec (.configureExchange port partner reversed polarity) s = execConfigureExchange port partner reversed polarity s := rfl
@[simp] theorem exec_configureTimeout (port s) : exec (.configureTimeout port) s = execConfigureTimeout port s := rfl
@[simp] theorem exec_retrain (port cause s) : exec (.retrain port cause) s = execRetrain port cause s := rfl
@[simp] theorem exec_retrainDone (port lanes s) : exec (.retrainDone port lanes) s = execRetrainDone port lanes s := rfl
@[simp] theorem exec_retrainTimeout (port s) : exec (.retrainTimeout port) s = execRetrainTimeout port s := rfl
@[simp] theorem exec_flitReceived (port flit corrected fecOk s) : exec (.flitReceived port flit corrected fecOk) s = execFlitReceived port flit corrected fecOk s := rfl
@[simp] theorem exec_nack (port ackSeq s) : exec (.nack port ackSeq) s = execNack port ackSeq s := rfl
@[simp] theorem exec_ackTimeout (port s) : exec (.ackTimeout port) s = execAckTimeout port s := rfl
@[simp] theorem exec_laneFecLimit (port lane s) : exec (.laneFecLimit port lane) s = execLaneFecLimit port lane s := rfl
@[simp] theorem exec_rdLine (port tag room line s) : exec (.rdLine port tag room line) s = execRdLine port tag room line s := rfl
@[simp] theorem exec_rdOwn (port tag room line s) : exec (.rdOwn port tag room line) s = execRdOwn port tag room line s := rfl
@[simp] theorem exec_wrLine (port tag room line poison data s) : exec (.wrLine port tag room line poison data) s = execWrLine port tag room line poison data s := rfl
@[simp] theorem exec_wrMask (port tag room line mask data s) : exec (.wrMask port tag room line mask data) s = execWrMask port tag room line mask data s := rfl
@[simp] theorem exec_holdThresholdPassed (port tag s) : exec (.holdThresholdPassed port tag) s = execHoldThresholdPassed port tag s := rfl
@[simp] theorem exec_pinLapse (port room line s) : exec (.pinLapse port room line) s = execPinLapse port room line s := rfl
@[simp] theorem exec_completionTimeout (port tag s) : exec (.completionTimeout port tag) s = execCompletionTimeout port tag s := rfl
@[simp] theorem exec_backInvAnswer (port tag data s) : exec (.backInvAnswer port tag data) s = execBackInvAnswer port tag data s := rfl
@[simp] theorem exec_backInvTimeout (port tag s) : exec (.backInvTimeout port tag) s = execBackInvTimeout port tag s := rfl
@[simp] theorem exec_call (port tag room line w1 args s) : exec (.call port tag room line w1 args) s = execCall port tag room line w1 args s := rfl
@[simp] theorem exec_publish (port tag room line region base s) : exec (.publish port tag room line region base) s = execPublish port tag room line region base s := rfl
@[simp] theorem exec_publishDecide (region s) : exec (.publishDecide region) s = execPublishDecide region s := rfl
@[simp] theorem exec_pubSealed (region version s) : exec (.pubSealed region version) s = execPubSealed region version s := rfl
@[simp] theorem exec_pubReleased (region version s) : exec (.pubReleased region version) s = execPubReleased region version s := rfl
@[simp] theorem exec_openView (port tag room line region version close s) : exec (.openView port tag room line region version close) s = execOpenView port tag room line region version close s := rfl
@[simp] theorem exec_configCommit (rq payload s) : exec (.configCommit rq payload) s = execConfigCommit rq payload s := rfl
@[simp] theorem exec_configApply (s) : exec (.configApply) s = execConfigApply s := rfl
@[simp] theorem exec_configDiscard (rq payload s) : exec (.configDiscard rq payload) s = execConfigDiscard rq payload s := rfl
@[simp] theorem exec_roomErase (rq room payload s) : exec (.roomErase rq room payload) s = execRoomErase rq room payload s := rfl
@[simp] theorem exec_fetchComplete (page s) : exec (.fetchComplete page) s = execFetchComplete page s := rfl
@[simp] theorem exec_writebackIdle (page s) : exec (.writebackIdle page) s = execWritebackIdle page s := rfl
@[simp] theorem exec_writebackAgeMax (page s) : exec (.writebackAgeMax page) s = execWritebackAgeMax page s := rfl
@[simp] theorem exec_writebackLag (page s) : exec (.writebackLag page) s = execWritebackLag page s := rfl
@[simp] theorem exec_landingDwell (brick s) : exec (.landingDwell brick) s = execLandingDwell brick s := rfl
@[simp] theorem exec_landingFillDone (brick faults s) : exec (.landingFillDone brick faults) s = execLandingFillDone brick faults s := rfl
@[simp] theorem exec_landingSlotFreed (brick parity s) : exec (.landingSlotFreed brick parity) s = execLandingSlotFreed brick parity s := rfl
@[simp] theorem exec_storeReadComplete (brick faults s) : exec (.storeReadComplete brick faults) s = execStoreReadComplete brick faults s := rfl
@[simp] theorem exec_stairDeadlinePrefetch (stair step s) : exec (.stairDeadlinePrefetch stair step) s = execStairDeadlinePrefetch stair step s := rfl
@[simp] theorem exec_tableLoadImage (rq payload s) : exec (.tableLoadImage rq payload) s = execTableLoadImage rq payload s := rfl
@[simp] theorem exec_tableBind (rq room id payload s) : exec (.tableBind rq room id payload) s = execTableBind rq room id payload s := rfl
@[simp] theorem exec_tableFree (rq payload s) : exec (.tableFree rq payload) s = execTableFree rq payload s := rfl
@[simp] theorem exec_tableBuilt (room window byteImage expImage s) : exec (.tableBuilt room window byteImage expImage) s = execTableBuilt room window byteImage expImage s := rfl
@[simp] theorem exec_packedLoadGo (rq room payload s) : exec (.packedLoadGo rq room payload) s = execPackedLoadGo rq room payload s := rfl
@[simp] theorem exec_packedLoadPage (room s) : exec (.packedLoadPage room) s = execPackedLoadPage room s := rfl
@[simp] theorem exec_shelfRoom (rq payload s) : exec (.shelfRoom rq payload) s = execShelfRoom rq payload s := rfl
@[simp] theorem exec_shelfRanges (rq payload s) : exec (.shelfRanges rq payload) s = execShelfRanges rq payload s := rfl
@[simp] theorem exec_shelve (rq payload s) : exec (.shelve rq payload) s = execShelve rq payload s := rfl
@[simp] theorem exec_shelveFreeze (shelf s) : exec (.shelveFreeze shelf) s = execShelveFreeze shelf s := rfl
@[simp] theorem exec_shelveCommit (shelf s) : exec (.shelveCommit shelf) s = execShelveCommit shelf s := rfl
@[simp] theorem exec_unshelve (rq payload s) : exec (.unshelve rq payload) s = execUnshelve rq payload s := rfl
@[simp] theorem exec_unshelveSwitch (shelf s) : exec (.unshelveSwitch shelf) s = execUnshelveSwitch shelf s := rfl
@[simp] theorem exec_unshelveEnd (shelf s) : exec (.unshelveEnd shelf) s = execUnshelveEnd shelf s := rfl
@[simp] theorem exec_shelfRelease (rq payload s) : exec (.shelfRelease rq payload) s = execShelfRelease rq payload s := rfl
@[simp] theorem exec_manifestBlock (rq s) : exec (.manifestBlock rq) s = execManifestBlock rq s := rfl
@[simp] theorem exec_hostFailed (rq payload s) : exec (.hostFailed rq payload) s = execHostFailed rq payload s := rfl
@[simp] theorem exec_hostCrashScanStart (port s) : exec (.hostCrashScanStart port) s = execHostCrashScanStart port s := rfl
@[simp] theorem exec_hostCrashScanEnd (port s) : exec (.hostCrashScanEnd port) s = execHostCrashScanEnd port s := rfl
@[simp] theorem exec_crashBlock (rq s) : exec (.crashBlock rq) s = execCrashBlock rq s := rfl
@[simp] theorem exec_pubDefine (rq index sub payload s) : exec (.pubDefine rq index sub payload) s = execPubDefine rq index sub payload s := rfl
@[simp] theorem exec_pubDelete (rq region payload s) : exec (.pubDelete rq region payload) s = execPubDelete rq region payload s := rfl
@[simp] theorem exec_viewRegion (rq room window payload s) : exec (.viewRegion rq room window payload) s = execViewRegion rq room window payload s := rfl
@[simp] theorem exec_callUnpark (call s) : exec (.callUnpark call) s = execCallUnpark call s := rfl
@[simp] theorem exec_callTimeout (call s) : exec (.callTimeout call) s = execCallTimeout call s := rfl
@[simp] theorem exec_callCompletion (call s) : exec (.callCompletion call) s = execCallCompletion call s := rfl
@[simp] theorem exec_progInstall (rq payload s) : exec (.progInstall rq payload) s = execProgInstall rq payload s := rfl
@[simp] theorem exec_progRemove (rq payload s) : exec (.progRemove rq payload) s = execProgRemove rq payload s := rfl
@[simp] theorem exec_nop (core f s) : exec (.nop core f) s = execNop core f s := rfl
@[simp] theorem exec_j (core f s) : exec (.j core f) s = execJ core f s := rfl
@[simp] theorem exec_jal (core f s) : exec (.jal core f) s = execJal core f s := rfl
@[simp] theorem exec_jr (core f s) : exec (.jr core f) s = execJr core f s := rfl
@[simp] theorem exec_br (core f s) : exec (.br core f) s = execBr core f s := rfl
@[simp] theorem exec_fence (core f s) : exec (.fence core f) s = execFence core f s := rfl
@[simp] theorem exec_stepend (core f s) : exec (.stepend core f) s = execStepend core f s := rfl
@[simp] theorem exec_cyc (core f s) : exec (.cyc core f) s = execCyc core f s := rfl
@[simp] theorem exec_stamp (core f s) : exec (.stamp core f) s = execStamp core f s := rfl
@[simp] theorem exec_add (core f s) : exec (.add core f) s = execAdd core f s := rfl
@[simp] theorem exec_sub (core f s) : exec (.sub core f) s = execSub core f s := rfl
@[simp] theorem exec_mul (core f s) : exec (.mul core f) s = execMul core f s := rfl
@[simp] theorem exec_mulh (core f s) : exec (.mulh core f) s = execMulh core f s := rfl
@[simp] theorem exec_mulhu (core f s) : exec (.mulhu core f) s = execMulhu core f s := rfl
@[simp] theorem exec_div (core f s) : exec (.div core f) s = execDiv core f s := rfl
@[simp] theorem exec_divu (core f s) : exec (.divu core f) s = execDivu core f s := rfl
@[simp] theorem exec_rem (core f s) : exec (.rem core f) s = execRem core f s := rfl
@[simp] theorem exec_remu (core f s) : exec (.remu core f) s = execRemu core f s := rfl
@[simp] theorem exec_and (core f s) : exec (.and core f) s = execAnd core f s := rfl
@[simp] theorem exec_or (core f s) : exec (.or core f) s = execOr core f s := rfl
@[simp] theorem exec_xor (core f s) : exec (.xor core f) s = execXor core f s := rfl
@[simp] theorem exec_shl (core f s) : exec (.shl core f) s = execShl core f s := rfl
@[simp] theorem exec_shr (core f s) : exec (.shr core f) s = execShr core f s := rfl
@[simp] theorem exec_sar (core f s) : exec (.sar core f) s = execSar core f s := rfl
@[simp] theorem exec_slt (core f s) : exec (.slt core f) s = execSlt core f s := rfl
@[simp] theorem exec_sltu (core f s) : exec (.sltu core f) s = execSltu core f s := rfl
@[simp] theorem exec_min (core f s) : exec (.min core f) s = execMin core f s := rfl
@[simp] theorem exec_max (core f s) : exec (.max core f) s = execMax core f s := rfl
@[simp] theorem exec_li (core f s) : exec (.li core f) s = execLi core f s := rfl
@[simp] theorem exec_fadd (core f s) : exec (.fadd core f) s = execFadd core f s := rfl
@[simp] theorem exec_fmul (core f s) : exec (.fmul core f) s = execFmul core f s := rfl
@[simp] theorem exec_fmax (core f s) : exec (.fmax core f) s = execFmax core f s := rfl
@[simp] theorem exec_lds (core f s) : exec (.lds core f) s = execLds core f s := rfl
@[simp] theorem exec_sts (core f s) : exec (.sts core f) s = execSts core f s := rfl
@[simp] theorem exec_ldw (core f s) : exec (.ldw core f) s = execLdw core f s := rfl
@[simp] theorem exec_stw (core f s) : exec (.stw core f) s = execStw core f s := rfl
@[simp] theorem exec_mvw (core f s) : exec (.mvw core f) s = execMvw core f s := rfl
@[simp] theorem exec_wins (core f s) : exec (.wins core f) s = execWins core f s := rfl
@[simp] theorem exec_wext (core f s) : exec (.wext core f) s = execWext core f s := rfl
@[simp] theorem exec_vadd (core f s) : exec (.vadd core f) s = execVadd core f s := rfl
@[simp] theorem exec_vsub (core f s) : exec (.vsub core f) s = execVsub core f s := rfl
@[simp] theorem exec_vmul (core f s) : exec (.vmul core f) s = execVmul core f s := rfl
@[simp] theorem exec_vfma (core f s) : exec (.vfma core f) s = execVfma core f s := rfl
@[simp] theorem exec_vmax (core f s) : exec (.vmax core f) s = execVmax core f s := rfl
@[simp] theorem exec_vmin (core f s) : exec (.vmin core f) s = execVmin core f s := rfl
@[simp] theorem exec_vbcast (core f s) : exec (.vbcast core f) s = execVbcast core f s := rfl
@[simp] theorem exec_vcvt (core f s) : exec (.vcvt core f) s = execVcvt core f s := rfl
@[simp] theorem exec_vrsum (core f s) : exec (.vrsum core f) s = execVrsum core f s := rfl
@[simp] theorem exec_vrmax (core f s) : exec (.vrmax core f) s = execVrmax core f s := rfl
@[simp] theorem exec_vqmx (core f s) : exec (.vqmx core f) s = execVqmx core f s := rfl
@[simp] theorem exec_mxsplit (core f s) : exec (.mxsplit core f) s = execMxsplit core f s := rfl
@[simp] theorem exec_mma (core f s) : exec (.mma core f) s = execMma core f s := rfl
@[simp] theorem exec_mvaw (core f s) : exec (.mvaw core f) s = execMvaw core f s := rfl
@[simp] theorem exec_mvwa (core f s) : exec (.mvwa core f) s = execMvwa core f s := rfl
@[simp] theorem exec_mvat (core f s) : exec (.mvat core f) s = execMvat core f s := rfl
@[simp] theorem exec_mvta (core f s) : exec (.mvta core f) s = execMvta core f s := rfl
@[simp] theorem exec_tclr (core f s) : exec (.tclr core f) s = execTclr core f s := rfl
@[simp] theorem exec_tstat (core f s) : exec (.tstat core f) s = execTstat core f s := rfl
@[simp] theorem exec_smx (core f s) : exec (.smx core f) s = execSmx core f s := rfl
@[simp] theorem exec_exp2 (core f s) : exec (.exp2 core f) s = execExp2 core f s := rfl
@[simp] theorem exec_tkinit (core f s) : exec (.tkinit core f) s = execTkinit core f s := rfl
@[simp] theorem exec_topk (core f s) : exec (.topk core f) s = execTopk core f s := rfl
@[simp] theorem exec_scfg (core f s) : exec (.scfg core f) s = execScfg core f s := rfl
@[simp] theorem exec_sgo (core f s) : exec (.sgo core f) s = execSgo core f s := rfl
@[simp] theorem exec_swait (core f s) : exec (.swait core f) s = execSwait core f s := rfl
@[simp] theorem exec_sstat (core f s) : exec (.sstat core f) s = execSstat core f s := rfl
@[simp] theorem exec_sstop (core f s) : exec (.sstop core f) s = execSstop core f s := rfl
@[simp] theorem exec_streamEnd (core ctx s) : exec (.streamEnd core ctx) s = execStreamEnd core ctx s := rfl
@[simp] theorem exec_streamStop (core ctx s) : exec (.streamStop core ctx) s = execStreamStop core ctx s := rfl
@[simp] theorem exec_refreshForced (channel rank s) : exec (.refreshForced channel rank) s = execRefreshForced channel rank s := rfl
@[simp] theorem exec_rowIdle (channel rank bank s) : exec (.rowIdle channel rank bank) s = execRowIdle channel rank bank s := rfl
@[simp] theorem exec_urgencyUpdate (s) : exec (.urgencyUpdate) s = execUrgencyUpdate s := rfl
@[simp] theorem exec_writeQueueDrain (channel s) : exec (.writeQueueDrain channel) s = execWriteQueueDrain channel s := rfl
@[simp] theorem exec_rowHammerRefresh (channel rank bank row s) : exec (.rowHammerRefresh channel rank bank row) s = execRowHammerRefresh channel rank bank row s := rfl
@[simp] theorem exec_rhTableClear (s) : exec (.rhTableClear) s = execRhTableClear s := rfl
@[simp] theorem exec_trainingSweep (channel s) : exec (.trainingSweep channel) s = execTrainingSweep channel s := rfl
@[simp] theorem exec_trainingSweepEnd (channel narrowest failedLanes s) : exec (.trainingSweepEnd channel narrowest failedLanes) s = execTrainingSweepEnd channel narrowest failedLanes s := rfl
@[simp] theorem exec_storeSetPointMax (rq payload s) : exec (.storeSetPointMax rq payload) s = execStoreSetPointMax rq payload s := rfl
@[simp] theorem exec_setPointWave (wave s) : exec (.setPointWave wave) s = execSetPointWave wave s := rfl
@[simp] theorem exec_setPointResume (channel s) : exec (.setPointResume channel) s = execSetPointResume channel s := rfl
@[simp] theorem exec_rankMigrationStart (region s) : exec (.rankMigrationStart region) s = execRankMigrationStart region s := rfl
@[simp] theorem exec_rankMigrationEnd (region marked s) : exec (.rankMigrationEnd region marked) s = execRankMigrationEnd region marked s := rfl
@[simp] theorem exec_slotDeadCopyEnd (copy s) : exec (.slotDeadCopyEnd copy) s = execSlotDeadCopyEnd copy s := rfl
@[simp] theorem exec_bankMask (rq payload s) : exec (.bankMask rq payload) s = execBankMask rq payload s := rfl
@[simp] theorem exec_rowProgramTimer (set relocation s) : exec (.rowProgramTimer set relocation) s = execRowProgramTimer set relocation s := rfl
@[simp] theorem exec_rowProgramDone (set relocation ends s) : exec (.rowProgramDone set relocation ends) s = execRowProgramDone set relocation ends s := rfl
@[simp] theorem exec_superblockEraseDone (set way block failed s) : exec (.superblockEraseDone set way block failed) s = execSuperblockEraseDone set way block failed s := rfl
@[simp] theorem exec_relocationStart (set s) : exec (.relocationStart set) s = execRelocationStart set s := rfl
@[simp] theorem exec_readDisturbRelocate (channel way block s) : exec (.readDisturbRelocate channel way block) s = execReadDisturbRelocate channel way block s := rfl
@[simp] theorem exec_patrol (set way block worn s) : exec (.patrol set way block worn) s = execPatrol set way block worn s := rfl
@[simp] theorem exec_cellarReadRecovered (slot how bits s) : exec (.cellarReadRecovered slot how bits) s = execCellarReadRecovered slot how bits s := rfl
@[simp] theorem exec_cellarRebuildEnd (set s) : exec (.cellarRebuildEnd set) s = execCellarRebuildEnd set s := rfl
@[simp] theorem exec_mapCheckpoint (s) : exec (.mapCheckpoint) s = execMapCheckpoint s := rfl
@[simp] theorem exec_cellarChannelTraining (channel s) : exec (.cellarChannelTraining channel) s = execCellarChannelTraining channel s := rfl
@[simp] theorem exec_loftScrubPass (counts bad s) : exec (.loftScrubPass counts bad) s = execLoftScrubPass counts bad s := rfl
@[simp] theorem exec_scrubPass (finds s) : exec (.scrubPass finds) s = execScrubPass finds s := rfl
@[simp] theorem exec_brickRepair (brick s) : exec (.brickRepair brick) s = execBrickRepair brick s := rfl
@[simp] theorem exec_referrerSearchEnd (slot s) : exec (.referrerSearchEnd slot) s = execReferrerSearchEnd slot s := rfl
@[simp] theorem exec_repeatEntryExpire (region bay unit s) : exec (.repeatEntryExpire region bay unit) s = execRepeatEntryExpire region bay unit s := rfl
@[simp] theorem exec_rowWeak (region bay unit s) : exec (.rowWeak region bay unit) s = execRowWeak region bay unit s := rfl
@[simp] theorem exec_ceilingRecompute (s) : exec (.ceilingRecompute) s = execCeilingRecompute s := rfl
@[simp] theorem exec_chargeComplete (s) : exec (.chargeComplete) s = execChargeComplete s := rfl
@[simp] theorem exec_chargeResume (steps s) : exec (.chargeResume steps) s = execChargeResume steps s := rfl
@[simp] theorem exec_cisternFault (cell cause s) : exec (.cisternFault cell cause) s = execCisternFault cell cause s := rfl
@[simp] theorem exec_cisternFaultClear (s) : exec (.cisternFaultClear) s = execCisternFaultClear s := rfl
@[simp] theorem exec_checkNow (rq payload s) : exec (.checkNow rq payload) s = execCheckNow rq payload s := rfl
@[simp] theorem exec_checkInterval (s) : exec (.checkInterval) s = execCheckInterval s := rfl
@[simp] theorem exec_checkDischargeStart (s) : exec (.checkDischargeStart) s = execCheckDischargeStart s := rfl
@[simp] theorem exec_checkDefer (s) : exec (.checkDefer) s = execCheckDefer s := rfl
@[simp] theorem exec_cisternCheck (cells s) : exec (.cisternCheck cells) s = execCisternCheck cells s := rfl
@[simp] theorem exec_cisternReserve (rq payload s) : exec (.cisternReserve rq payload) s = execCisternReserve rq payload s := rfl
@[simp] theorem exec_lcAdvance (rq payload s) : exec (.lcAdvance rq payload) s = execLcAdvance rq payload s := rfl
@[simp] theorem exec_alarm (sensors lidLoop s) : exec (.alarm sensors lidLoop) s = execAlarm sensors lidLoop s := rfl
@[simp] theorem exec_eraseDone (s) : exec (.eraseDone) s = execEraseDone s := rfl
@[simp] theorem exec_lockRelease (rq payload s) : exec (.lockRelease rq payload) s = execLockRelease rq payload s := rfl
@[simp] theorem exec_alarmResponse (rq sensor payload s) : exec (.alarmResponse rq sensor payload) s = execAlarmResponse rq sensor payload s := rfl
@[simp] theorem exec_fwStage (rq image s) : exec (.fwStage rq image) s = execFwStage rq image s := rfl
@[simp] theorem exec_fwActivate (rq payload s) : exec (.fwActivate rq payload) s = execFwActivate rq payload s := rfl
@[simp] theorem exec_fwRestart (rq payload s) : exec (.fwRestart rq payload) s = execFwRestart rq payload s := rfl
@[simp] theorem exec_fwCommit (rq payload s) : exec (.fwCommit rq payload) s = execFwCommit rq payload s := rfl
@[simp] theorem exec_roomKeyGenerate (rq room payload s) : exec (.roomKeyGenerate rq room payload) s = execRoomKeyGenerate rq room payload s := rfl
@[simp] theorem exec_roomKeyImport (rq room payload s) : exec (.roomKeyImport rq room payload) s = execRoomKeyImport rq room payload s := rfl
@[simp] theorem exec_getVersion (rq sid msg s) : exec (.getVersion rq sid msg) s = execGetVersion rq sid msg s := rfl
@[simp] theorem exec_getCapabilities (rq sid msg s) : exec (.getCapabilities rq sid msg) s = execGetCapabilities rq sid msg s := rfl
@[simp] theorem exec_negotiateAlgorithms (rq sid msg s) : exec (.negotiateAlgorithms rq sid msg) s = execNegotiateAlgorithms rq sid msg s := rfl
@[simp] theorem exec_getDigests (rq sid msg s) : exec (.getDigests rq sid msg) s = execGetDigests rq sid msg s := rfl
@[simp] theorem exec_getCertificate (rq sid msg s) : exec (.getCertificate rq sid msg) s = execGetCertificate rq sid msg s := rfl
@[simp] theorem exec_challenge (rq sid msg s) : exec (.challenge rq sid msg) s = execChallenge rq sid msg s := rfl
@[simp] theorem exec_getMeasurements (rq sid msg s) : exec (.getMeasurements rq sid msg) s = execGetMeasurements rq sid msg s := rfl
@[simp] theorem exec_keyExchange (rq sid msg s) : exec (.keyExchange rq sid msg) s = execKeyExchange rq sid msg s := rfl
@[simp] theorem exec_finish (rq sid msg s) : exec (.finish rq sid msg) s = execFinish rq sid msg s := rfl
@[simp] theorem exec_heartbeat (rq sid msg s) : exec (.heartbeat rq sid msg) s = execHeartbeat rq sid msg s := rfl
@[simp] theorem exec_keyUpdate (rq sid msg s) : exec (.keyUpdate rq sid msg) s = execKeyUpdate rq sid msg s := rfl
@[simp] theorem exec_endSession (rq sid msg s) : exec (.endSession rq sid msg) s = execEndSession rq sid msg s := rfl
@[simp] theorem exec_getPqChain (rq sid msg s) : exec (.getPqChain rq sid msg) s = execGetPqChain rq sid msg s := rfl
@[simp] theorem exec_getPqSignature (rq sid msg s) : exec (.getPqSignature rq sid msg) s = execGetPqSignature rq sid msg s := rfl
@[simp] theorem exec_spdmUnsupportedRequest (rq sid msg s) : exec (.spdmUnsupportedRequest rq sid msg) s = execSpdmUnsupportedRequest rq sid msg s := rfl
@[simp] theorem exec_write (rq index sub payload s) : exec (.write rq index sub payload) s = execWrite rq index sub payload s := rfl
@[simp] theorem exec_blockStart (rq index sub payload s) : exec (.blockStart rq index sub payload) s = execBlockStart rq index sub payload s := rfl
@[simp] theorem exec_blockData (rq index sub payload s) : exec (.blockData rq index sub payload) s = execBlockData rq index sub payload s := rfl
@[simp] theorem exec_blockEnd (rq index sub payload s) : exec (.blockEnd rq index sub payload) s = execBlockEnd rq index sub payload s := rfl
@[simp] theorem exec_blockRead (rq index sub payload s) : exec (.blockRead rq index sub payload) s = execBlockRead rq index sub payload s := rfl
@[simp] theorem exec_blockTransferTimeout (src index sub s) : exec (.blockTransferTimeout src index sub) s = execBlockTransferTimeout src index sub s := rfl
@[simp] theorem exec_sessionIdleTimeout (mac s) : exec (.sessionIdleTimeout mac) s = execSessionIdleTimeout mac s := rfl
@[simp] theorem exec_uartFrameGap (s) : exec (.uartFrameGap) s = execUartFrameGap s := rfl
@[simp] theorem exec_entdaa (addr s) : exec (.entdaa addr) s = execEntdaa addr s := rfl
@[simp] theorem exec_setdasa (target addr s) : exec (.setdasa target addr) s = execSetdasa target addr s := rfl
@[simp] theorem exec_rstdaa (s) : exec (.rstdaa) s = execRstdaa s := rfl
@[simp] theorem exec_enec (events s) : exec (.enec events) s = execEnec events s := rfl
@[simp] theorem exec_disec (events s) : exec (.disec events) s = execDisec events s := rfl
@[simp] theorem exec_getpid (s) : exec (.getpid) s = execGetpid s := rfl
@[simp] theorem exec_getbcr (s) : exec (.getbcr) s = execGetbcr s := rfl
@[simp] theorem exec_getdcr (s) : exec (.getdcr) s = execGetdcr s := rfl
@[simp] theorem exec_getmwl (s) : exec (.getmwl) s = execGetmwl s := rfl
@[simp] theorem exec_setmwl (len s) : exec (.setmwl len) s = execSetmwl len s := rfl
@[simp] theorem exec_getmrl (s) : exec (.getmrl) s = execGetmrl s := rfl
@[simp] theorem exec_setmrl (len s) : exec (.setmrl len) s = execSetmrl len s := rfl
@[simp] theorem exec_getstatus (s) : exec (.getstatus) s = execGetstatus s := rfl
@[simp] theorem exec_rstact (action s) : exec (.rstact action) s = execRstact action s := rfl
@[simp] theorem exec_privateRead (s) : exec (.privateRead) s = execPrivateRead s := rfl
@[simp] theorem exec_functionEnable (rq fn s) : exec (.functionEnable rq fn) s = execFunctionEnable rq fn s := rfl
@[simp] theorem exec_functionDisable (rq fn s) : exec (.functionDisable rq fn) s = execFunctionDisable rq fn s := rfl
@[simp] theorem exec_functionStarted (fn s) : exec (.functionStarted fn) s = execFunctionStarted fn s := rfl
@[simp] theorem exec_functionSafePoint (fn s) : exec (.functionSafePoint fn) s = execFunctionSafePoint fn s := rfl
@[simp] theorem exec_functionStopped (fn s) : exec (.functionStopped fn) s = execFunctionStopped fn s := rfl
@[simp] theorem exec_startBegin (s) : exec (.startBegin) s = execStartBegin s := rfl
@[simp] theorem exec_startStep (e s) : exec (.startStep e) s = execStartStep e s := rfl
@[simp] theorem exec_startStepLimit (step unfinished s) : exec (.startStepLimit step unfinished) s = execStartStepLimit step unfinished s := rfl
@[simp] theorem exec_ledgerClearCounts (rq payload s) : exec (.ledgerClearCounts rq payload) s = execLedgerClearCounts rq payload s := rfl
@[simp] theorem exec_sliceStart (s) : exec (.sliceStart) s = execSliceStart s := rfl
@[simp] theorem exec_sliceEnd (pass measured limit s) : exec (.sliceEnd pass measured limit) s = execSliceEnd pass measured limit s := rfl
@[simp] theorem exec_selftestFull (rq payload failed untested s) : exec (.selftestFull rq payload failed untested) s = execSelftestFull rq payload failed untested s := rfl
@[simp] theorem exec_benchRestore (rq payload pass s) : exec (.benchRestore rq payload pass) s = execBenchRestore rq payload pass s := rfl
@[simp] theorem exec_vaultJoin (rq payload views s) : exec (.vaultJoin rq payload views) s = execVaultJoin rq payload views s := rfl
@[simp] theorem exec_vaultLeave (rq payload s) : exec (.vaultLeave rq payload) s = execVaultLeave rq payload s := rfl
@[simp] theorem exec_peerFailed (rq payload s) : exec (.peerFailed rq payload) s = execPeerFailed rq payload s := rfl
@[simp] theorem exec_poolGather (rq room payload s) : exec (.poolGather rq room payload) s = execPoolGather rq room payload s := rfl
@[simp] theorem exec_joinRetry (views s) : exec (.joinRetry views) s = execJoinRetry views s := rfl
@[simp] theorem exec_aliveSend (s) : exec (.aliveSend) s = execAliveSend s := rfl
@[simp] theorem exec_peerSilence (member s) : exec (.peerSilence member) s = execPeerSilence member s := rfl
@[simp] theorem exec_pageMoveResend (s) : exec (.pageMoveResend) s = execPageMoveResend s := rfl
@[simp] theorem exec_moveReq (port tag src room page s) : exec (.moveReq port tag src room page) s = execMoveReq port tag src room page s := rfl
@[simp] theorem exec_moveOrder (port tag src room page target s) : exec (.moveOrder port tag src room page target) s = execMoveOrder port tag src room page target s := rfl
@[simp] theorem exec_moveData (port tag src room page generation data s) : exec (.moveData port tag src room page generation data) s = execMoveData port tag src room page generation data s := rfl
@[simp] theorem exec_moveEmpty (port tag src room page s) : exec (.moveEmpty port tag src room page) s = execMoveEmpty port tag src room page s := rfl
@[simp] theorem exec_moveSoon (port tag src room page landing s) : exec (.moveSoon port tag src room page landing) s = execMoveSoon port tag src room page landing s := rfl
@[simp] theorem exec_moveAck (port tag src room page pinEnd s) : exec (.moveAck port tag src room page pinEnd) s = execMoveAck port tag src room page pinEnd s := rfl
@[simp] theorem exec_moveRelease (port tag src room page done s) : exec (.moveRelease port tag src room page done) s = execMoveRelease port tag src room page done s := rfl
@[simp] theorem exec_moveDefer (port tag src room page cause retry s) : exec (.moveDefer port tag src room page cause retry) s = execMoveDefer port tag src room page cause retry s := rfl
@[simp] theorem exec_moveRefused (port tag src room page cause s) : exec (.moveRefused port tag src room page cause) s = execMoveRefused port tag src room page cause s := rfl
@[simp] theorem exec_moveQuery (port tag src room page s) : exec (.moveQuery port tag src room page) s = execMoveQuery port tag src room page s := rfl
@[simp] theorem exec_alive (port tag src epoch s) : exec (.alive port tag src epoch) s = execAlive port tag src epoch s := rfl
@[simp] theorem exec_relay (port tag src frame s) : exec (.relay port tag src frame) s = execRelay port tag src frame s := rfl
@[simp] theorem exec_thermTripNAsserted (s) : exec (.thermTripNAsserted) s = execThermTripNAsserted s := rfl
@[simp] theorem exec_resetNAsserted (s) : exec (.resetNAsserted) s = execResetNAsserted s := rfl
@[simp] theorem exec_resetNDeasserted (s) : exec (.resetNDeasserted) s = execResetNDeasserted s := rfl
@[simp] theorem exec_seatLost (s) : exec (.seatLost) s = execSeatLost s := rfl
@[simp] theorem exec_inputToggling (input edges s) : exec (.inputToggling input edges) s = execInputToggling input edges s := rfl
@[simp] theorem exec_inputFaulty (input s) : exec (.inputFaulty input) s = execInputFaulty input s := rfl
@[simp] theorem exec_inputRearm (rq payload s) : exec (.inputRearm rq payload) s = execInputRearm rq payload s := rfl
@[simp] theorem exec_inputOvervoltage (peak s) : exec (.inputOvervoltage peak) s = execInputOvervoltage peak s := rfl
@[simp] theorem exec_inputSwitchClose (s) : exec (.inputSwitchClose) s = execInputSwitchClose s := rfl
@[simp] theorem exec_auxLost (mv s) : exec (.auxLost mv) s = execAuxLost mv s := rfl
@[simp] theorem exec_benchEnNAsserted (s) : exec (.benchEnNAsserted) s = execBenchEnNAsserted s := rfl
@[simp] theorem exec_benchEnNDeasserted (s) : exec (.benchEnNDeasserted) s = execBenchEnNDeasserted s := rfl
@[simp] theorem exec_ptpAnnounce (domain a s) : exec (.ptpAnnounce domain a) s = execPtpAnnounce domain a s := rfl
@[simp] theorem exec_rubbleBlock (rq s) : exec (.rubbleBlock rq) s = execRubbleBlock rq s := rfl
@[simp] theorem exec_presentNAsserted (s) : exec (.presentNAsserted) s = execPresentNAsserted s := rfl
@[simp] theorem exec_inputDeasserted (input s) : exec (.inputDeasserted input) s = execInputDeasserted input s := rfl
@[simp] theorem exec_bypass (s) : exec (.bypass) s = execBypass s := rfl
@[simp] theorem exec_idcode (s) : exec (.idcode) s = execIdcode s := rfl
@[simp] theorem exec_samplePreload (data s) : exec (.samplePreload data) s = execSamplePreload data s := rfl
@[simp] theorem exec_extest (s) : exec (.extest) s = execExtest s := rfl

end Sys2Proof.Machine
end

