-- ==== Sys2Proof/Laws/State.lean ====
section
/-!
SUPPORT. Sys2Proof/Laws/State.lean: what each update of the state does to each field.
-/

namespace Sys2Proof.Machine

@[simp] theorem State.setPending_pending (s : State) (v : List Instr) : (s.setPending v).pending = v := rfl
@[simp] theorem State.setPending_time (s : State) (v : List Instr) : (s.setPending v).time = s.time := rfl
@[simp] theorem State.setPending_tally (s : State) (v : List Instr) : (s.setPending v).tally = s.tally := rfl
@[simp] theorem State.setPending_notify (s : State) (v : List Instr) : (s.setPending v).notify = s.notify := rfl
@[simp] theorem State.setPending_od (s : State) (v : List Instr) : (s.setPending v).od = s.od := rfl
@[simp] theorem State.setPending_funcs (s : State) (v : List Instr) : (s.setPending v).funcs = s.funcs := rfl
@[simp] theorem State.setPending_power (s : State) (v : List Instr) : (s.setPending v).power = s.power := rfl
@[simp] theorem State.setPending_board (s : State) (v : List Instr) : (s.setPending v).board = s.board := rfl
@[simp] theorem State.setPending_cistern (s : State) (v : List Instr) : (s.setPending v).cistern = s.cistern := rfl
@[simp] theorem State.setPending_flush (s : State) (v : List Instr) : (s.setPending v).flush = s.flush := rfl
@[simp] theorem State.setPending_rooms (s : State) (v : List Instr) : (s.setPending v).rooms = s.rooms := rfl
@[simp] theorem State.setPending_adm (s : State) (v : List Instr) : (s.setPending v).adm = s.adm := rfl
@[simp] theorem State.setPending_ports (s : State) (v : List Instr) : (s.setPending v).ports = s.ports := rfl
@[simp] theorem State.setPending_pages (s : State) (v : List Instr) : (s.setPending v).pages = s.pages := rfl
@[simp] theorem State.setPending_tier (s : State) (v : List Instr) : (s.setPending v).tier = s.tier := rfl
@[simp] theorem State.setPending_landing (s : State) (v : List Instr) : (s.setPending v).landing = s.landing := rfl
@[simp] theorem State.setPending_reqs (s : State) (v : List Instr) : (s.setPending v).reqs = s.reqs := rfl
@[simp] theorem State.setPending_stairs (s : State) (v : List Instr) : (s.setPending v).stairs = s.stairs := rfl
@[simp] theorem State.setPending_codec (s : State) (v : List Instr) : (s.setPending v).codec = s.codec := rfl
@[simp] theorem State.setPending_store (s : State) (v : List Instr) : (s.setPending v).store = s.store := rfl
@[simp] theorem State.setPending_retired (s : State) (v : List Instr) : (s.setPending v).retired = s.retired := rfl
@[simp] theorem State.setPending_retirements (s : State) (v : List Instr) : (s.setPending v).retirements = s.retirements := rfl
@[simp] theorem State.setPending_cellar (s : State) (v : List Instr) : (s.setPending v).cellar = s.cellar := rfl
@[simp] theorem State.setPending_shelves (s : State) (v : List Instr) : (s.setPending v).shelves = s.shelves := rfl
@[simp] theorem State.setPending_dir (s : State) (v : List Instr) : (s.setPending v).dir = s.dir := rfl
@[simp] theorem State.setPending_pubs (s : State) (v : List Instr) : (s.setPending v).pubs = s.pubs := rfl
@[simp] theorem State.setPending_integ (s : State) (v : List Instr) : (s.setPending v).integ = s.integ := rfl
@[simp] theorem State.setPending_vault (s : State) (v : List Instr) : (s.setPending v).vault = s.vault := rfl
@[simp] theorem State.setPending_sec (s : State) (v : List Instr) : (s.setPending v).sec = s.sec := rfl
@[simp] theorem State.setPending_start (s : State) (v : List Instr) : (s.setPending v).start = s.start := rfl
@[simp] theorem State.setPending_test (s : State) (v : List Instr) : (s.setPending v).test = s.test := rfl
@[simp] theorem State.setPending_cores (s : State) (v : List Instr) : (s.setPending v).cores = s.cores := rfl
@[simp] theorem State.setPending_out (s : State) (v : List Instr) : (s.setPending v).out = s.out := rfl
@[simp] theorem State.setPending_free (s : State) (v : List Instr) : (s.setPending v).free = s.free := rfl
@[simp] theorem State.setTime_pending (s : State) (v : Time) : (s.setTime v).pending = s.pending := rfl
@[simp] theorem State.setTime_time (s : State) (v : Time) : (s.setTime v).time = v := rfl
@[simp] theorem State.setTime_tally (s : State) (v : Time) : (s.setTime v).tally = s.tally := rfl
@[simp] theorem State.setTime_notify (s : State) (v : Time) : (s.setTime v).notify = s.notify := rfl
@[simp] theorem State.setTime_od (s : State) (v : Time) : (s.setTime v).od = s.od := rfl
@[simp] theorem State.setTime_funcs (s : State) (v : Time) : (s.setTime v).funcs = s.funcs := rfl
@[simp] theorem State.setTime_power (s : State) (v : Time) : (s.setTime v).power = s.power := rfl
@[simp] theorem State.setTime_board (s : State) (v : Time) : (s.setTime v).board = s.board := rfl
@[simp] theorem State.setTime_cistern (s : State) (v : Time) : (s.setTime v).cistern = s.cistern := rfl
@[simp] theorem State.setTime_flush (s : State) (v : Time) : (s.setTime v).flush = s.flush := rfl
@[simp] theorem State.setTime_rooms (s : State) (v : Time) : (s.setTime v).rooms = s.rooms := rfl
@[simp] theorem State.setTime_adm (s : State) (v : Time) : (s.setTime v).adm = s.adm := rfl
@[simp] theorem State.setTime_ports (s : State) (v : Time) : (s.setTime v).ports = s.ports := rfl
@[simp] theorem State.setTime_pages (s : State) (v : Time) : (s.setTime v).pages = s.pages := rfl
@[simp] theorem State.setTime_tier (s : State) (v : Time) : (s.setTime v).tier = s.tier := rfl
@[simp] theorem State.setTime_landing (s : State) (v : Time) : (s.setTime v).landing = s.landing := rfl
@[simp] theorem State.setTime_reqs (s : State) (v : Time) : (s.setTime v).reqs = s.reqs := rfl
@[simp] theorem State.setTime_stairs (s : State) (v : Time) : (s.setTime v).stairs = s.stairs := rfl
@[simp] theorem State.setTime_codec (s : State) (v : Time) : (s.setTime v).codec = s.codec := rfl
@[simp] theorem State.setTime_store (s : State) (v : Time) : (s.setTime v).store = s.store := rfl
@[simp] theorem State.setTime_retired (s : State) (v : Time) : (s.setTime v).retired = s.retired := rfl
@[simp] theorem State.setTime_retirements (s : State) (v : Time) : (s.setTime v).retirements = s.retirements := rfl
@[simp] theorem State.setTime_cellar (s : State) (v : Time) : (s.setTime v).cellar = s.cellar := rfl
@[simp] theorem State.setTime_shelves (s : State) (v : Time) : (s.setTime v).shelves = s.shelves := rfl
@[simp] theorem State.setTime_dir (s : State) (v : Time) : (s.setTime v).dir = s.dir := rfl
@[simp] theorem State.setTime_pubs (s : State) (v : Time) : (s.setTime v).pubs = s.pubs := rfl
@[simp] theorem State.setTime_integ (s : State) (v : Time) : (s.setTime v).integ = s.integ := rfl
@[simp] theorem State.setTime_vault (s : State) (v : Time) : (s.setTime v).vault = s.vault := rfl
@[simp] theorem State.setTime_sec (s : State) (v : Time) : (s.setTime v).sec = s.sec := rfl
@[simp] theorem State.setTime_start (s : State) (v : Time) : (s.setTime v).start = s.start := rfl
@[simp] theorem State.setTime_test (s : State) (v : Time) : (s.setTime v).test = s.test := rfl
@[simp] theorem State.setTime_cores (s : State) (v : Time) : (s.setTime v).cores = s.cores := rfl
@[simp] theorem State.setTime_out (s : State) (v : Time) : (s.setTime v).out = s.out := rfl
@[simp] theorem State.setTime_free (s : State) (v : Time) : (s.setTime v).free = s.free := rfl
@[simp] theorem State.setTally_pending (s : State) (v : Tally) : (s.setTally v).pending = s.pending := rfl
@[simp] theorem State.setTally_time (s : State) (v : Tally) : (s.setTally v).time = s.time := rfl
@[simp] theorem State.setTally_tally (s : State) (v : Tally) : (s.setTally v).tally = v := rfl
@[simp] theorem State.setTally_notify (s : State) (v : Tally) : (s.setTally v).notify = s.notify := rfl
@[simp] theorem State.setTally_od (s : State) (v : Tally) : (s.setTally v).od = s.od := rfl
@[simp] theorem State.setTally_funcs (s : State) (v : Tally) : (s.setTally v).funcs = s.funcs := rfl
@[simp] theorem State.setTally_power (s : State) (v : Tally) : (s.setTally v).power = s.power := rfl
@[simp] theorem State.setTally_board (s : State) (v : Tally) : (s.setTally v).board = s.board := rfl
@[simp] theorem State.setTally_cistern (s : State) (v : Tally) : (s.setTally v).cistern = s.cistern := rfl
@[simp] theorem State.setTally_flush (s : State) (v : Tally) : (s.setTally v).flush = s.flush := rfl
@[simp] theorem State.setTally_rooms (s : State) (v : Tally) : (s.setTally v).rooms = s.rooms := rfl
@[simp] theorem State.setTally_adm (s : State) (v : Tally) : (s.setTally v).adm = s.adm := rfl
@[simp] theorem State.setTally_ports (s : State) (v : Tally) : (s.setTally v).ports = s.ports := rfl
@[simp] theorem State.setTally_pages (s : State) (v : Tally) : (s.setTally v).pages = s.pages := rfl
@[simp] theorem State.setTally_tier (s : State) (v : Tally) : (s.setTally v).tier = s.tier := rfl
@[simp] theorem State.setTally_landing (s : State) (v : Tally) : (s.setTally v).landing = s.landing := rfl
@[simp] theorem State.setTally_reqs (s : State) (v : Tally) : (s.setTally v).reqs = s.reqs := rfl
@[simp] theorem State.setTally_stairs (s : State) (v : Tally) : (s.setTally v).stairs = s.stairs := rfl
@[simp] theorem State.setTally_codec (s : State) (v : Tally) : (s.setTally v).codec = s.codec := rfl
@[simp] theorem State.setTally_store (s : State) (v : Tally) : (s.setTally v).store = s.store := rfl
@[simp] theorem State.setTally_retired (s : State) (v : Tally) : (s.setTally v).retired = s.retired := rfl
@[simp] theorem State.setTally_retirements (s : State) (v : Tally) : (s.setTally v).retirements = s.retirements := rfl
@[simp] theorem State.setTally_cellar (s : State) (v : Tally) : (s.setTally v).cellar = s.cellar := rfl
@[simp] theorem State.setTally_shelves (s : State) (v : Tally) : (s.setTally v).shelves = s.shelves := rfl
@[simp] theorem State.setTally_dir (s : State) (v : Tally) : (s.setTally v).dir = s.dir := rfl
@[simp] theorem State.setTally_pubs (s : State) (v : Tally) : (s.setTally v).pubs = s.pubs := rfl
@[simp] theorem State.setTally_integ (s : State) (v : Tally) : (s.setTally v).integ = s.integ := rfl
@[simp] theorem State.setTally_vault (s : State) (v : Tally) : (s.setTally v).vault = s.vault := rfl
@[simp] theorem State.setTally_sec (s : State) (v : Tally) : (s.setTally v).sec = s.sec := rfl
@[simp] theorem State.setTally_start (s : State) (v : Tally) : (s.setTally v).start = s.start := rfl
@[simp] theorem State.setTally_test (s : State) (v : Tally) : (s.setTally v).test = s.test := rfl
@[simp] theorem State.setTally_cores (s : State) (v : Tally) : (s.setTally v).cores = s.cores := rfl
@[simp] theorem State.setTally_out (s : State) (v : Tally) : (s.setTally v).out = s.out := rfl
@[simp] theorem State.setTally_free (s : State) (v : Tally) : (s.setTally v).free = s.free := rfl
@[simp] theorem State.setNotify_pending (s : State) (v : Tbl NotifyQueue) : (s.setNotify v).pending = s.pending := rfl
@[simp] theorem State.setNotify_time (s : State) (v : Tbl NotifyQueue) : (s.setNotify v).time = s.time := rfl
@[simp] theorem State.setNotify_tally (s : State) (v : Tbl NotifyQueue) : (s.setNotify v).tally = s.tally := rfl
@[simp] theorem State.setNotify_notify (s : State) (v : Tbl NotifyQueue) : (s.setNotify v).notify = v := rfl
@[simp] theorem State.setNotify_od (s : State) (v : Tbl NotifyQueue) : (s.setNotify v).od = s.od := rfl
@[simp] theorem State.setNotify_funcs (s : State) (v : Tbl NotifyQueue) : (s.setNotify v).funcs = s.funcs := rfl
@[simp] theorem State.setNotify_power (s : State) (v : Tbl NotifyQueue) : (s.setNotify v).power = s.power := rfl
@[simp] theorem State.setNotify_board (s : State) (v : Tbl NotifyQueue) : (s.setNotify v).board = s.board := rfl
@[simp] theorem State.setNotify_cistern (s : State) (v : Tbl NotifyQueue) : (s.setNotify v).cistern = s.cistern := rfl
@[simp] theorem State.setNotify_flush (s : State) (v : Tbl NotifyQueue) : (s.setNotify v).flush = s.flush := rfl
@[simp] theorem State.setNotify_rooms (s : State) (v : Tbl NotifyQueue) : (s.setNotify v).rooms = s.rooms := rfl
@[simp] theorem State.setNotify_adm (s : State) (v : Tbl NotifyQueue) : (s.setNotify v).adm = s.adm := rfl
@[simp] theorem State.setNotify_ports (s : State) (v : Tbl NotifyQueue) : (s.setNotify v).ports = s.ports := rfl
@[simp] theorem State.setNotify_pages (s : State) (v : Tbl NotifyQueue) : (s.setNotify v).pages = s.pages := rfl
@[simp] theorem State.setNotify_tier (s : State) (v : Tbl NotifyQueue) : (s.setNotify v).tier = s.tier := rfl
@[simp] theorem State.setNotify_landing (s : State) (v : Tbl NotifyQueue) : (s.setNotify v).landing = s.landing := rfl
@[simp] theorem State.setNotify_reqs (s : State) (v : Tbl NotifyQueue) : (s.setNotify v).reqs = s.reqs := rfl
@[simp] theorem State.setNotify_stairs (s : State) (v : Tbl NotifyQueue) : (s.setNotify v).stairs = s.stairs := rfl
@[simp] theorem State.setNotify_codec (s : State) (v : Tbl NotifyQueue) : (s.setNotify v).codec = s.codec := rfl
@[simp] theorem State.setNotify_store (s : State) (v : Tbl NotifyQueue) : (s.setNotify v).store = s.store := rfl
@[simp] theorem State.setNotify_retired (s : State) (v : Tbl NotifyQueue) : (s.setNotify v).retired = s.retired := rfl
@[simp] theorem State.setNotify_retirements (s : State) (v : Tbl NotifyQueue) : (s.setNotify v).retirements = s.retirements := rfl
@[simp] theorem State.setNotify_cellar (s : State) (v : Tbl NotifyQueue) : (s.setNotify v).cellar = s.cellar := rfl
@[simp] theorem State.setNotify_shelves (s : State) (v : Tbl NotifyQueue) : (s.setNotify v).shelves = s.shelves := rfl
@[simp] theorem State.setNotify_dir (s : State) (v : Tbl NotifyQueue) : (s.setNotify v).dir = s.dir := rfl
@[simp] theorem State.setNotify_pubs (s : State) (v : Tbl NotifyQueue) : (s.setNotify v).pubs = s.pubs := rfl
@[simp] theorem State.setNotify_integ (s : State) (v : Tbl NotifyQueue) : (s.setNotify v).integ = s.integ := rfl
@[simp] theorem State.setNotify_vault (s : State) (v : Tbl NotifyQueue) : (s.setNotify v).vault = s.vault := rfl
@[simp] theorem State.setNotify_sec (s : State) (v : Tbl NotifyQueue) : (s.setNotify v).sec = s.sec := rfl
@[simp] theorem State.setNotify_start (s : State) (v : Tbl NotifyQueue) : (s.setNotify v).start = s.start := rfl
@[simp] theorem State.setNotify_test (s : State) (v : Tbl NotifyQueue) : (s.setNotify v).test = s.test := rfl
@[simp] theorem State.setNotify_cores (s : State) (v : Tbl NotifyQueue) : (s.setNotify v).cores = s.cores := rfl
@[simp] theorem State.setNotify_out (s : State) (v : Tbl NotifyQueue) : (s.setNotify v).out = s.out := rfl
@[simp] theorem State.setNotify_free (s : State) (v : Tbl NotifyQueue) : (s.setNotify v).free = s.free := rfl
@[simp] theorem State.setOd_pending (s : State) (v : Od) : (s.setOd v).pending = s.pending := rfl
@[simp] theorem State.setOd_time (s : State) (v : Od) : (s.setOd v).time = s.time := rfl
@[simp] theorem State.setOd_tally (s : State) (v : Od) : (s.setOd v).tally = s.tally := rfl
@[simp] theorem State.setOd_notify (s : State) (v : Od) : (s.setOd v).notify = s.notify := rfl
@[simp] theorem State.setOd_od (s : State) (v : Od) : (s.setOd v).od = v := rfl
@[simp] theorem State.setOd_funcs (s : State) (v : Od) : (s.setOd v).funcs = s.funcs := rfl
@[simp] theorem State.setOd_power (s : State) (v : Od) : (s.setOd v).power = s.power := rfl
@[simp] theorem State.setOd_board (s : State) (v : Od) : (s.setOd v).board = s.board := rfl
@[simp] theorem State.setOd_cistern (s : State) (v : Od) : (s.setOd v).cistern = s.cistern := rfl
@[simp] theorem State.setOd_flush (s : State) (v : Od) : (s.setOd v).flush = s.flush := rfl
@[simp] theorem State.setOd_rooms (s : State) (v : Od) : (s.setOd v).rooms = s.rooms := rfl
@[simp] theorem State.setOd_adm (s : State) (v : Od) : (s.setOd v).adm = s.adm := rfl
@[simp] theorem State.setOd_ports (s : State) (v : Od) : (s.setOd v).ports = s.ports := rfl
@[simp] theorem State.setOd_pages (s : State) (v : Od) : (s.setOd v).pages = s.pages := rfl
@[simp] theorem State.setOd_tier (s : State) (v : Od) : (s.setOd v).tier = s.tier := rfl
@[simp] theorem State.setOd_landing (s : State) (v : Od) : (s.setOd v).landing = s.landing := rfl
@[simp] theorem State.setOd_reqs (s : State) (v : Od) : (s.setOd v).reqs = s.reqs := rfl
@[simp] theorem State.setOd_stairs (s : State) (v : Od) : (s.setOd v).stairs = s.stairs := rfl
@[simp] theorem State.setOd_codec (s : State) (v : Od) : (s.setOd v).codec = s.codec := rfl
@[simp] theorem State.setOd_store (s : State) (v : Od) : (s.setOd v).store = s.store := rfl
@[simp] theorem State.setOd_retired (s : State) (v : Od) : (s.setOd v).retired = s.retired := rfl
@[simp] theorem State.setOd_retirements (s : State) (v : Od) : (s.setOd v).retirements = s.retirements := rfl
@[simp] theorem State.setOd_cellar (s : State) (v : Od) : (s.setOd v).cellar = s.cellar := rfl
@[simp] theorem State.setOd_shelves (s : State) (v : Od) : (s.setOd v).shelves = s.shelves := rfl
@[simp] theorem State.setOd_dir (s : State) (v : Od) : (s.setOd v).dir = s.dir := rfl
@[simp] theorem State.setOd_pubs (s : State) (v : Od) : (s.setOd v).pubs = s.pubs := rfl
@[simp] theorem State.setOd_integ (s : State) (v : Od) : (s.setOd v).integ = s.integ := rfl
@[simp] theorem State.setOd_vault (s : State) (v : Od) : (s.setOd v).vault = s.vault := rfl
@[simp] theorem State.setOd_sec (s : State) (v : Od) : (s.setOd v).sec = s.sec := rfl
@[simp] theorem State.setOd_start (s : State) (v : Od) : (s.setOd v).start = s.start := rfl
@[simp] theorem State.setOd_test (s : State) (v : Od) : (s.setOd v).test = s.test := rfl
@[simp] theorem State.setOd_cores (s : State) (v : Od) : (s.setOd v).cores = s.cores := rfl
@[simp] theorem State.setOd_out (s : State) (v : Od) : (s.setOd v).out = s.out := rfl
@[simp] theorem State.setOd_free (s : State) (v : Od) : (s.setOd v).free = s.free := rfl
@[simp] theorem State.setFuncs_pending (s : State) (v : Funcs) : (s.setFuncs v).pending = s.pending := rfl
@[simp] theorem State.setFuncs_time (s : State) (v : Funcs) : (s.setFuncs v).time = s.time := rfl
@[simp] theorem State.setFuncs_tally (s : State) (v : Funcs) : (s.setFuncs v).tally = s.tally := rfl
@[simp] theorem State.setFuncs_notify (s : State) (v : Funcs) : (s.setFuncs v).notify = s.notify := rfl
@[simp] theorem State.setFuncs_od (s : State) (v : Funcs) : (s.setFuncs v).od = s.od := rfl
@[simp] theorem State.setFuncs_funcs (s : State) (v : Funcs) : (s.setFuncs v).funcs = v := rfl
@[simp] theorem State.setFuncs_power (s : State) (v : Funcs) : (s.setFuncs v).power = s.power := rfl
@[simp] theorem State.setFuncs_board (s : State) (v : Funcs) : (s.setFuncs v).board = s.board := rfl
@[simp] theorem State.setFuncs_cistern (s : State) (v : Funcs) : (s.setFuncs v).cistern = s.cistern := rfl
@[simp] theorem State.setFuncs_flush (s : State) (v : Funcs) : (s.setFuncs v).flush = s.flush := rfl
@[simp] theorem State.setFuncs_rooms (s : State) (v : Funcs) : (s.setFuncs v).rooms = s.rooms := rfl
@[simp] theorem State.setFuncs_adm (s : State) (v : Funcs) : (s.setFuncs v).adm = s.adm := rfl
@[simp] theorem State.setFuncs_ports (s : State) (v : Funcs) : (s.setFuncs v).ports = s.ports := rfl
@[simp] theorem State.setFuncs_pages (s : State) (v : Funcs) : (s.setFuncs v).pages = s.pages := rfl
@[simp] theorem State.setFuncs_tier (s : State) (v : Funcs) : (s.setFuncs v).tier = s.tier := rfl
@[simp] theorem State.setFuncs_landing (s : State) (v : Funcs) : (s.setFuncs v).landing = s.landing := rfl
@[simp] theorem State.setFuncs_reqs (s : State) (v : Funcs) : (s.setFuncs v).reqs = s.reqs := rfl
@[simp] theorem State.setFuncs_stairs (s : State) (v : Funcs) : (s.setFuncs v).stairs = s.stairs := rfl
@[simp] theorem State.setFuncs_codec (s : State) (v : Funcs) : (s.setFuncs v).codec = s.codec := rfl
@[simp] theorem State.setFuncs_store (s : State) (v : Funcs) : (s.setFuncs v).store = s.store := rfl
@[simp] theorem State.setFuncs_retired (s : State) (v : Funcs) : (s.setFuncs v).retired = s.retired := rfl
@[simp] theorem State.setFuncs_retirements (s : State) (v : Funcs) : (s.setFuncs v).retirements = s.retirements := rfl
@[simp] theorem State.setFuncs_cellar (s : State) (v : Funcs) : (s.setFuncs v).cellar = s.cellar := rfl
@[simp] theorem State.setFuncs_shelves (s : State) (v : Funcs) : (s.setFuncs v).shelves = s.shelves := rfl
@[simp] theorem State.setFuncs_dir (s : State) (v : Funcs) : (s.setFuncs v).dir = s.dir := rfl
@[simp] theorem State.setFuncs_pubs (s : State) (v : Funcs) : (s.setFuncs v).pubs = s.pubs := rfl
@[simp] theorem State.setFuncs_integ (s : State) (v : Funcs) : (s.setFuncs v).integ = s.integ := rfl
@[simp] theorem State.setFuncs_vault (s : State) (v : Funcs) : (s.setFuncs v).vault = s.vault := rfl
@[simp] theorem State.setFuncs_sec (s : State) (v : Funcs) : (s.setFuncs v).sec = s.sec := rfl
@[simp] theorem State.setFuncs_start (s : State) (v : Funcs) : (s.setFuncs v).start = s.start := rfl
@[simp] theorem State.setFuncs_test (s : State) (v : Funcs) : (s.setFuncs v).test = s.test := rfl
@[simp] theorem State.setFuncs_cores (s : State) (v : Funcs) : (s.setFuncs v).cores = s.cores := rfl
@[simp] theorem State.setFuncs_out (s : State) (v : Funcs) : (s.setFuncs v).out = s.out := rfl
@[simp] theorem State.setFuncs_free (s : State) (v : Funcs) : (s.setFuncs v).free = s.free := rfl
@[simp] theorem State.setPower_pending (s : State) (v : Power) : (s.setPower v).pending = s.pending := rfl
@[simp] theorem State.setPower_time (s : State) (v : Power) : (s.setPower v).time = s.time := rfl
@[simp] theorem State.setPower_tally (s : State) (v : Power) : (s.setPower v).tally = s.tally := rfl
@[simp] theorem State.setPower_notify (s : State) (v : Power) : (s.setPower v).notify = s.notify := rfl
@[simp] theorem State.setPower_od (s : State) (v : Power) : (s.setPower v).od = s.od := rfl
@[simp] theorem State.setPower_funcs (s : State) (v : Power) : (s.setPower v).funcs = s.funcs := rfl
@[simp] theorem State.setPower_power (s : State) (v : Power) : (s.setPower v).power = v := rfl
@[simp] theorem State.setPower_board (s : State) (v : Power) : (s.setPower v).board = s.board := rfl
@[simp] theorem State.setPower_cistern (s : State) (v : Power) : (s.setPower v).cistern = s.cistern := rfl
@[simp] theorem State.setPower_flush (s : State) (v : Power) : (s.setPower v).flush = s.flush := rfl
@[simp] theorem State.setPower_rooms (s : State) (v : Power) : (s.setPower v).rooms = s.rooms := rfl
@[simp] theorem State.setPower_adm (s : State) (v : Power) : (s.setPower v).adm = s.adm := rfl
@[simp] theorem State.setPower_ports (s : State) (v : Power) : (s.setPower v).ports = s.ports := rfl
@[simp] theorem State.setPower_pages (s : State) (v : Power) : (s.setPower v).pages = s.pages := rfl
@[simp] theorem State.setPower_tier (s : State) (v : Power) : (s.setPower v).tier = s.tier := rfl
@[simp] theorem State.setPower_landing (s : State) (v : Power) : (s.setPower v).landing = s.landing := rfl
@[simp] theorem State.setPower_reqs (s : State) (v : Power) : (s.setPower v).reqs = s.reqs := rfl
@[simp] theorem State.setPower_stairs (s : State) (v : Power) : (s.setPower v).stairs = s.stairs := rfl
@[simp] theorem State.setPower_codec (s : State) (v : Power) : (s.setPower v).codec = s.codec := rfl
@[simp] theorem State.setPower_store (s : State) (v : Power) : (s.setPower v).store = s.store := rfl
@[simp] theorem State.setPower_retired (s : State) (v : Power) : (s.setPower v).retired = s.retired := rfl
@[simp] theorem State.setPower_retirements (s : State) (v : Power) : (s.setPower v).retirements = s.retirements := rfl
@[simp] theorem State.setPower_cellar (s : State) (v : Power) : (s.setPower v).cellar = s.cellar := rfl
@[simp] theorem State.setPower_shelves (s : State) (v : Power) : (s.setPower v).shelves = s.shelves := rfl
@[simp] theorem State.setPower_dir (s : State) (v : Power) : (s.setPower v).dir = s.dir := rfl
@[simp] theorem State.setPower_pubs (s : State) (v : Power) : (s.setPower v).pubs = s.pubs := rfl
@[simp] theorem State.setPower_integ (s : State) (v : Power) : (s.setPower v).integ = s.integ := rfl
@[simp] theorem State.setPower_vault (s : State) (v : Power) : (s.setPower v).vault = s.vault := rfl
@[simp] theorem State.setPower_sec (s : State) (v : Power) : (s.setPower v).sec = s.sec := rfl
@[simp] theorem State.setPower_start (s : State) (v : Power) : (s.setPower v).start = s.start := rfl
@[simp] theorem State.setPower_test (s : State) (v : Power) : (s.setPower v).test = s.test := rfl
@[simp] theorem State.setPower_cores (s : State) (v : Power) : (s.setPower v).cores = s.cores := rfl
@[simp] theorem State.setPower_out (s : State) (v : Power) : (s.setPower v).out = s.out := rfl
@[simp] theorem State.setPower_free (s : State) (v : Power) : (s.setPower v).free = s.free := rfl
@[simp] theorem State.setBoard_pending (s : State) (v : Board) : (s.setBoard v).pending = s.pending := rfl
@[simp] theorem State.setBoard_time (s : State) (v : Board) : (s.setBoard v).time = s.time := rfl
@[simp] theorem State.setBoard_tally (s : State) (v : Board) : (s.setBoard v).tally = s.tally := rfl
@[simp] theorem State.setBoard_notify (s : State) (v : Board) : (s.setBoard v).notify = s.notify := rfl
@[simp] theorem State.setBoard_od (s : State) (v : Board) : (s.setBoard v).od = s.od := rfl
@[simp] theorem State.setBoard_funcs (s : State) (v : Board) : (s.setBoard v).funcs = s.funcs := rfl
@[simp] theorem State.setBoard_power (s : State) (v : Board) : (s.setBoard v).power = s.power := rfl
@[simp] theorem State.setBoard_board (s : State) (v : Board) : (s.setBoard v).board = v := rfl
@[simp] theorem State.setBoard_cistern (s : State) (v : Board) : (s.setBoard v).cistern = s.cistern := rfl
@[simp] theorem State.setBoard_flush (s : State) (v : Board) : (s.setBoard v).flush = s.flush := rfl
@[simp] theorem State.setBoard_rooms (s : State) (v : Board) : (s.setBoard v).rooms = s.rooms := rfl
@[simp] theorem State.setBoard_adm (s : State) (v : Board) : (s.setBoard v).adm = s.adm := rfl
@[simp] theorem State.setBoard_ports (s : State) (v : Board) : (s.setBoard v).ports = s.ports := rfl
@[simp] theorem State.setBoard_pages (s : State) (v : Board) : (s.setBoard v).pages = s.pages := rfl
@[simp] theorem State.setBoard_tier (s : State) (v : Board) : (s.setBoard v).tier = s.tier := rfl
@[simp] theorem State.setBoard_landing (s : State) (v : Board) : (s.setBoard v).landing = s.landing := rfl
@[simp] theorem State.setBoard_reqs (s : State) (v : Board) : (s.setBoard v).reqs = s.reqs := rfl
@[simp] theorem State.setBoard_stairs (s : State) (v : Board) : (s.setBoard v).stairs = s.stairs := rfl
@[simp] theorem State.setBoard_codec (s : State) (v : Board) : (s.setBoard v).codec = s.codec := rfl
@[simp] theorem State.setBoard_store (s : State) (v : Board) : (s.setBoard v).store = s.store := rfl
@[simp] theorem State.setBoard_retired (s : State) (v : Board) : (s.setBoard v).retired = s.retired := rfl
@[simp] theorem State.setBoard_retirements (s : State) (v : Board) : (s.setBoard v).retirements = s.retirements := rfl
@[simp] theorem State.setBoard_cellar (s : State) (v : Board) : (s.setBoard v).cellar = s.cellar := rfl
@[simp] theorem State.setBoard_shelves (s : State) (v : Board) : (s.setBoard v).shelves = s.shelves := rfl
@[simp] theorem State.setBoard_dir (s : State) (v : Board) : (s.setBoard v).dir = s.dir := rfl
@[simp] theorem State.setBoard_pubs (s : State) (v : Board) : (s.setBoard v).pubs = s.pubs := rfl
@[simp] theorem State.setBoard_integ (s : State) (v : Board) : (s.setBoard v).integ = s.integ := rfl
@[simp] theorem State.setBoard_vault (s : State) (v : Board) : (s.setBoard v).vault = s.vault := rfl
@[simp] theorem State.setBoard_sec (s : State) (v : Board) : (s.setBoard v).sec = s.sec := rfl
@[simp] theorem State.setBoard_start (s : State) (v : Board) : (s.setBoard v).start = s.start := rfl
@[simp] theorem State.setBoard_test (s : State) (v : Board) : (s.setBoard v).test = s.test := rfl
@[simp] theorem State.setBoard_cores (s : State) (v : Board) : (s.setBoard v).cores = s.cores := rfl
@[simp] theorem State.setBoard_out (s : State) (v : Board) : (s.setBoard v).out = s.out := rfl
@[simp] theorem State.setBoard_free (s : State) (v : Board) : (s.setBoard v).free = s.free := rfl
@[simp] theorem State.setCistern_pending (s : State) (v : Cistern) : (s.setCistern v).pending = s.pending := rfl
@[simp] theorem State.setCistern_time (s : State) (v : Cistern) : (s.setCistern v).time = s.time := rfl
@[simp] theorem State.setCistern_tally (s : State) (v : Cistern) : (s.setCistern v).tally = s.tally := rfl
@[simp] theorem State.setCistern_notify (s : State) (v : Cistern) : (s.setCistern v).notify = s.notify := rfl
@[simp] theorem State.setCistern_od (s : State) (v : Cistern) : (s.setCistern v).od = s.od := rfl
@[simp] theorem State.setCistern_funcs (s : State) (v : Cistern) : (s.setCistern v).funcs = s.funcs := rfl
@[simp] theorem State.setCistern_power (s : State) (v : Cistern) : (s.setCistern v).power = s.power := rfl
@[simp] theorem State.setCistern_board (s : State) (v : Cistern) : (s.setCistern v).board = s.board := rfl
@[simp] theorem State.setCistern_cistern (s : State) (v : Cistern) : (s.setCistern v).cistern = v := rfl
@[simp] theorem State.setCistern_flush (s : State) (v : Cistern) : (s.setCistern v).flush = s.flush := rfl
@[simp] theorem State.setCistern_rooms (s : State) (v : Cistern) : (s.setCistern v).rooms = s.rooms := rfl
@[simp] theorem State.setCistern_adm (s : State) (v : Cistern) : (s.setCistern v).adm = s.adm := rfl
@[simp] theorem State.setCistern_ports (s : State) (v : Cistern) : (s.setCistern v).ports = s.ports := rfl
@[simp] theorem State.setCistern_pages (s : State) (v : Cistern) : (s.setCistern v).pages = s.pages := rfl
@[simp] theorem State.setCistern_tier (s : State) (v : Cistern) : (s.setCistern v).tier = s.tier := rfl
@[simp] theorem State.setCistern_landing (s : State) (v : Cistern) : (s.setCistern v).landing = s.landing := rfl
@[simp] theorem State.setCistern_reqs (s : State) (v : Cistern) : (s.setCistern v).reqs = s.reqs := rfl
@[simp] theorem State.setCistern_stairs (s : State) (v : Cistern) : (s.setCistern v).stairs = s.stairs := rfl
@[simp] theorem State.setCistern_codec (s : State) (v : Cistern) : (s.setCistern v).codec = s.codec := rfl
@[simp] theorem State.setCistern_store (s : State) (v : Cistern) : (s.setCistern v).store = s.store := rfl
@[simp] theorem State.setCistern_retired (s : State) (v : Cistern) : (s.setCistern v).retired = s.retired := rfl
@[simp] theorem State.setCistern_retirements (s : State) (v : Cistern) : (s.setCistern v).retirements = s.retirements := rfl
@[simp] theorem State.setCistern_cellar (s : State) (v : Cistern) : (s.setCistern v).cellar = s.cellar := rfl
@[simp] theorem State.setCistern_shelves (s : State) (v : Cistern) : (s.setCistern v).shelves = s.shelves := rfl
@[simp] theorem State.setCistern_dir (s : State) (v : Cistern) : (s.setCistern v).dir = s.dir := rfl
@[simp] theorem State.setCistern_pubs (s : State) (v : Cistern) : (s.setCistern v).pubs = s.pubs := rfl
@[simp] theorem State.setCistern_integ (s : State) (v : Cistern) : (s.setCistern v).integ = s.integ := rfl
@[simp] theorem State.setCistern_vault (s : State) (v : Cistern) : (s.setCistern v).vault = s.vault := rfl
@[simp] theorem State.setCistern_sec (s : State) (v : Cistern) : (s.setCistern v).sec = s.sec := rfl
@[simp] theorem State.setCistern_start (s : State) (v : Cistern) : (s.setCistern v).start = s.start := rfl
@[simp] theorem State.setCistern_test (s : State) (v : Cistern) : (s.setCistern v).test = s.test := rfl
@[simp] theorem State.setCistern_cores (s : State) (v : Cistern) : (s.setCistern v).cores = s.cores := rfl
@[simp] theorem State.setCistern_out (s : State) (v : Cistern) : (s.setCistern v).out = s.out := rfl
@[simp] theorem State.setCistern_free (s : State) (v : Cistern) : (s.setCistern v).free = s.free := rfl
@[simp] theorem State.setFlush_pending (s : State) (v : Flush) : (s.setFlush v).pending = s.pending := rfl
@[simp] theorem State.setFlush_time (s : State) (v : Flush) : (s.setFlush v).time = s.time := rfl
@[simp] theorem State.setFlush_tally (s : State) (v : Flush) : (s.setFlush v).tally = s.tally := rfl
@[simp] theorem State.setFlush_notify (s : State) (v : Flush) : (s.setFlush v).notify = s.notify := rfl
@[simp] theorem State.setFlush_od (s : State) (v : Flush) : (s.setFlush v).od = s.od := rfl
@[simp] theorem State.setFlush_funcs (s : State) (v : Flush) : (s.setFlush v).funcs = s.funcs := rfl
@[simp] theorem State.setFlush_power (s : State) (v : Flush) : (s.setFlush v).power = s.power := rfl
@[simp] theorem State.setFlush_board (s : State) (v : Flush) : (s.setFlush v).board = s.board := rfl
@[simp] theorem State.setFlush_cistern (s : State) (v : Flush) : (s.setFlush v).cistern = s.cistern := rfl
@[simp] theorem State.setFlush_flush (s : State) (v : Flush) : (s.setFlush v).flush = v := rfl
@[simp] theorem State.setFlush_rooms (s : State) (v : Flush) : (s.setFlush v).rooms = s.rooms := rfl
@[simp] theorem State.setFlush_adm (s : State) (v : Flush) : (s.setFlush v).adm = s.adm := rfl
@[simp] theorem State.setFlush_ports (s : State) (v : Flush) : (s.setFlush v).ports = s.ports := rfl
@[simp] theorem State.setFlush_pages (s : State) (v : Flush) : (s.setFlush v).pages = s.pages := rfl
@[simp] theorem State.setFlush_tier (s : State) (v : Flush) : (s.setFlush v).tier = s.tier := rfl
@[simp] theorem State.setFlush_landing (s : State) (v : Flush) : (s.setFlush v).landing = s.landing := rfl
@[simp] theorem State.setFlush_reqs (s : State) (v : Flush) : (s.setFlush v).reqs = s.reqs := rfl
@[simp] theorem State.setFlush_stairs (s : State) (v : Flush) : (s.setFlush v).stairs = s.stairs := rfl
@[simp] theorem State.setFlush_codec (s : State) (v : Flush) : (s.setFlush v).codec = s.codec := rfl
@[simp] theorem State.setFlush_store (s : State) (v : Flush) : (s.setFlush v).store = s.store := rfl
@[simp] theorem State.setFlush_retired (s : State) (v : Flush) : (s.setFlush v).retired = s.retired := rfl
@[simp] theorem State.setFlush_retirements (s : State) (v : Flush) : (s.setFlush v).retirements = s.retirements := rfl
@[simp] theorem State.setFlush_cellar (s : State) (v : Flush) : (s.setFlush v).cellar = s.cellar := rfl
@[simp] theorem State.setFlush_shelves (s : State) (v : Flush) : (s.setFlush v).shelves = s.shelves := rfl
@[simp] theorem State.setFlush_dir (s : State) (v : Flush) : (s.setFlush v).dir = s.dir := rfl
@[simp] theorem State.setFlush_pubs (s : State) (v : Flush) : (s.setFlush v).pubs = s.pubs := rfl
@[simp] theorem State.setFlush_integ (s : State) (v : Flush) : (s.setFlush v).integ = s.integ := rfl
@[simp] theorem State.setFlush_vault (s : State) (v : Flush) : (s.setFlush v).vault = s.vault := rfl
@[simp] theorem State.setFlush_sec (s : State) (v : Flush) : (s.setFlush v).sec = s.sec := rfl
@[simp] theorem State.setFlush_start (s : State) (v : Flush) : (s.setFlush v).start = s.start := rfl
@[simp] theorem State.setFlush_test (s : State) (v : Flush) : (s.setFlush v).test = s.test := rfl
@[simp] theorem State.setFlush_cores (s : State) (v : Flush) : (s.setFlush v).cores = s.cores := rfl
@[simp] theorem State.setFlush_out (s : State) (v : Flush) : (s.setFlush v).out = s.out := rfl
@[simp] theorem State.setFlush_free (s : State) (v : Flush) : (s.setFlush v).free = s.free := rfl
@[simp] theorem State.setRooms_pending (s : State) (v : Tbl Room) : (s.setRooms v).pending = s.pending := rfl
@[simp] theorem State.setRooms_time (s : State) (v : Tbl Room) : (s.setRooms v).time = s.time := rfl
@[simp] theorem State.setRooms_tally (s : State) (v : Tbl Room) : (s.setRooms v).tally = s.tally := rfl
@[simp] theorem State.setRooms_notify (s : State) (v : Tbl Room) : (s.setRooms v).notify = s.notify := rfl
@[simp] theorem State.setRooms_od (s : State) (v : Tbl Room) : (s.setRooms v).od = s.od := rfl
@[simp] theorem State.setRooms_funcs (s : State) (v : Tbl Room) : (s.setRooms v).funcs = s.funcs := rfl
@[simp] theorem State.setRooms_power (s : State) (v : Tbl Room) : (s.setRooms v).power = s.power := rfl
@[simp] theorem State.setRooms_board (s : State) (v : Tbl Room) : (s.setRooms v).board = s.board := rfl
@[simp] theorem State.setRooms_cistern (s : State) (v : Tbl Room) : (s.setRooms v).cistern = s.cistern := rfl
@[simp] theorem State.setRooms_flush (s : State) (v : Tbl Room) : (s.setRooms v).flush = s.flush := rfl
@[simp] theorem State.setRooms_rooms (s : State) (v : Tbl Room) : (s.setRooms v).rooms = v := rfl
@[simp] theorem State.setRooms_adm (s : State) (v : Tbl Room) : (s.setRooms v).adm = s.adm := rfl
@[simp] theorem State.setRooms_ports (s : State) (v : Tbl Room) : (s.setRooms v).ports = s.ports := rfl
@[simp] theorem State.setRooms_pages (s : State) (v : Tbl Room) : (s.setRooms v).pages = s.pages := rfl
@[simp] theorem State.setRooms_tier (s : State) (v : Tbl Room) : (s.setRooms v).tier = s.tier := rfl
@[simp] theorem State.setRooms_landing (s : State) (v : Tbl Room) : (s.setRooms v).landing = s.landing := rfl
@[simp] theorem State.setRooms_reqs (s : State) (v : Tbl Room) : (s.setRooms v).reqs = s.reqs := rfl
@[simp] theorem State.setRooms_stairs (s : State) (v : Tbl Room) : (s.setRooms v).stairs = s.stairs := rfl
@[simp] theorem State.setRooms_codec (s : State) (v : Tbl Room) : (s.setRooms v).codec = s.codec := rfl
@[simp] theorem State.setRooms_store (s : State) (v : Tbl Room) : (s.setRooms v).store = s.store := rfl
@[simp] theorem State.setRooms_retired (s : State) (v : Tbl Room) : (s.setRooms v).retired = s.retired := rfl
@[simp] theorem State.setRooms_retirements (s : State) (v : Tbl Room) : (s.setRooms v).retirements = s.retirements := rfl
@[simp] theorem State.setRooms_cellar (s : State) (v : Tbl Room) : (s.setRooms v).cellar = s.cellar := rfl
@[simp] theorem State.setRooms_shelves (s : State) (v : Tbl Room) : (s.setRooms v).shelves = s.shelves := rfl
@[simp] theorem State.setRooms_dir (s : State) (v : Tbl Room) : (s.setRooms v).dir = s.dir := rfl
@[simp] theorem State.setRooms_pubs (s : State) (v : Tbl Room) : (s.setRooms v).pubs = s.pubs := rfl
@[simp] theorem State.setRooms_integ (s : State) (v : Tbl Room) : (s.setRooms v).integ = s.integ := rfl
@[simp] theorem State.setRooms_vault (s : State) (v : Tbl Room) : (s.setRooms v).vault = s.vault := rfl
@[simp] theorem State.setRooms_sec (s : State) (v : Tbl Room) : (s.setRooms v).sec = s.sec := rfl
@[simp] theorem State.setRooms_start (s : State) (v : Tbl Room) : (s.setRooms v).start = s.start := rfl
@[simp] theorem State.setRooms_test (s : State) (v : Tbl Room) : (s.setRooms v).test = s.test := rfl
@[simp] theorem State.setRooms_cores (s : State) (v : Tbl Room) : (s.setRooms v).cores = s.cores := rfl
@[simp] theorem State.setRooms_out (s : State) (v : Tbl Room) : (s.setRooms v).out = s.out := rfl
@[simp] theorem State.setRooms_free (s : State) (v : Tbl Room) : (s.setRooms v).free = s.free := rfl
@[simp] theorem State.setAdm_pending (s : State) (v : Adm) : (s.setAdm v).pending = s.pending := rfl
@[simp] theorem State.setAdm_time (s : State) (v : Adm) : (s.setAdm v).time = s.time := rfl
@[simp] theorem State.setAdm_tally (s : State) (v : Adm) : (s.setAdm v).tally = s.tally := rfl
@[simp] theorem State.setAdm_notify (s : State) (v : Adm) : (s.setAdm v).notify = s.notify := rfl
@[simp] theorem State.setAdm_od (s : State) (v : Adm) : (s.setAdm v).od = s.od := rfl
@[simp] theorem State.setAdm_funcs (s : State) (v : Adm) : (s.setAdm v).funcs = s.funcs := rfl
@[simp] theorem State.setAdm_power (s : State) (v : Adm) : (s.setAdm v).power = s.power := rfl
@[simp] theorem State.setAdm_board (s : State) (v : Adm) : (s.setAdm v).board = s.board := rfl
@[simp] theorem State.setAdm_cistern (s : State) (v : Adm) : (s.setAdm v).cistern = s.cistern := rfl
@[simp] theorem State.setAdm_flush (s : State) (v : Adm) : (s.setAdm v).flush = s.flush := rfl
@[simp] theorem State.setAdm_rooms (s : State) (v : Adm) : (s.setAdm v).rooms = s.rooms := rfl
@[simp] theorem State.setAdm_adm (s : State) (v : Adm) : (s.setAdm v).adm = v := rfl
@[simp] theorem State.setAdm_ports (s : State) (v : Adm) : (s.setAdm v).ports = s.ports := rfl
@[simp] theorem State.setAdm_pages (s : State) (v : Adm) : (s.setAdm v).pages = s.pages := rfl
@[simp] theorem State.setAdm_tier (s : State) (v : Adm) : (s.setAdm v).tier = s.tier := rfl
@[simp] theorem State.setAdm_landing (s : State) (v : Adm) : (s.setAdm v).landing = s.landing := rfl
@[simp] theorem State.setAdm_reqs (s : State) (v : Adm) : (s.setAdm v).reqs = s.reqs := rfl
@[simp] theorem State.setAdm_stairs (s : State) (v : Adm) : (s.setAdm v).stairs = s.stairs := rfl
@[simp] theorem State.setAdm_codec (s : State) (v : Adm) : (s.setAdm v).codec = s.codec := rfl
@[simp] theorem State.setAdm_store (s : State) (v : Adm) : (s.setAdm v).store = s.store := rfl
@[simp] theorem State.setAdm_retired (s : State) (v : Adm) : (s.setAdm v).retired = s.retired := rfl
@[simp] theorem State.setAdm_retirements (s : State) (v : Adm) : (s.setAdm v).retirements = s.retirements := rfl
@[simp] theorem State.setAdm_cellar (s : State) (v : Adm) : (s.setAdm v).cellar = s.cellar := rfl
@[simp] theorem State.setAdm_shelves (s : State) (v : Adm) : (s.setAdm v).shelves = s.shelves := rfl
@[simp] theorem State.setAdm_dir (s : State) (v : Adm) : (s.setAdm v).dir = s.dir := rfl
@[simp] theorem State.setAdm_pubs (s : State) (v : Adm) : (s.setAdm v).pubs = s.pubs := rfl
@[simp] theorem State.setAdm_integ (s : State) (v : Adm) : (s.setAdm v).integ = s.integ := rfl
@[simp] theorem State.setAdm_vault (s : State) (v : Adm) : (s.setAdm v).vault = s.vault := rfl
@[simp] theorem State.setAdm_sec (s : State) (v : Adm) : (s.setAdm v).sec = s.sec := rfl
@[simp] theorem State.setAdm_start (s : State) (v : Adm) : (s.setAdm v).start = s.start := rfl
@[simp] theorem State.setAdm_test (s : State) (v : Adm) : (s.setAdm v).test = s.test := rfl
@[simp] theorem State.setAdm_cores (s : State) (v : Adm) : (s.setAdm v).cores = s.cores := rfl
@[simp] theorem State.setAdm_out (s : State) (v : Adm) : (s.setAdm v).out = s.out := rfl
@[simp] theorem State.setAdm_free (s : State) (v : Adm) : (s.setAdm v).free = s.free := rfl
@[simp] theorem State.setPorts_pending (s : State) (v : Tbl Port) : (s.setPorts v).pending = s.pending := rfl
@[simp] theorem State.setPorts_time (s : State) (v : Tbl Port) : (s.setPorts v).time = s.time := rfl
@[simp] theorem State.setPorts_tally (s : State) (v : Tbl Port) : (s.setPorts v).tally = s.tally := rfl
@[simp] theorem State.setPorts_notify (s : State) (v : Tbl Port) : (s.setPorts v).notify = s.notify := rfl
@[simp] theorem State.setPorts_od (s : State) (v : Tbl Port) : (s.setPorts v).od = s.od := rfl
@[simp] theorem State.setPorts_funcs (s : State) (v : Tbl Port) : (s.setPorts v).funcs = s.funcs := rfl
@[simp] theorem State.setPorts_power (s : State) (v : Tbl Port) : (s.setPorts v).power = s.power := rfl
@[simp] theorem State.setPorts_board (s : State) (v : Tbl Port) : (s.setPorts v).board = s.board := rfl
@[simp] theorem State.setPorts_cistern (s : State) (v : Tbl Port) : (s.setPorts v).cistern = s.cistern := rfl
@[simp] theorem State.setPorts_flush (s : State) (v : Tbl Port) : (s.setPorts v).flush = s.flush := rfl
@[simp] theorem State.setPorts_rooms (s : State) (v : Tbl Port) : (s.setPorts v).rooms = s.rooms := rfl
@[simp] theorem State.setPorts_adm (s : State) (v : Tbl Port) : (s.setPorts v).adm = s.adm := rfl
@[simp] theorem State.setPorts_ports (s : State) (v : Tbl Port) : (s.setPorts v).ports = v := rfl
@[simp] theorem State.setPorts_pages (s : State) (v : Tbl Port) : (s.setPorts v).pages = s.pages := rfl
@[simp] theorem State.setPorts_tier (s : State) (v : Tbl Port) : (s.setPorts v).tier = s.tier := rfl
@[simp] theorem State.setPorts_landing (s : State) (v : Tbl Port) : (s.setPorts v).landing = s.landing := rfl
@[simp] theorem State.setPorts_reqs (s : State) (v : Tbl Port) : (s.setPorts v).reqs = s.reqs := rfl
@[simp] theorem State.setPorts_stairs (s : State) (v : Tbl Port) : (s.setPorts v).stairs = s.stairs := rfl
@[simp] theorem State.setPorts_codec (s : State) (v : Tbl Port) : (s.setPorts v).codec = s.codec := rfl
@[simp] theorem State.setPorts_store (s : State) (v : Tbl Port) : (s.setPorts v).store = s.store := rfl
@[simp] theorem State.setPorts_retired (s : State) (v : Tbl Port) : (s.setPorts v).retired = s.retired := rfl
@[simp] theorem State.setPorts_retirements (s : State) (v : Tbl Port) : (s.setPorts v).retirements = s.retirements := rfl
@[simp] theorem State.setPorts_cellar (s : State) (v : Tbl Port) : (s.setPorts v).cellar = s.cellar := rfl
@[simp] theorem State.setPorts_shelves (s : State) (v : Tbl Port) : (s.setPorts v).shelves = s.shelves := rfl
@[simp] theorem State.setPorts_dir (s : State) (v : Tbl Port) : (s.setPorts v).dir = s.dir := rfl
@[simp] theorem State.setPorts_pubs (s : State) (v : Tbl Port) : (s.setPorts v).pubs = s.pubs := rfl
@[simp] theorem State.setPorts_integ (s : State) (v : Tbl Port) : (s.setPorts v).integ = s.integ := rfl
@[simp] theorem State.setPorts_vault (s : State) (v : Tbl Port) : (s.setPorts v).vault = s.vault := rfl
@[simp] theorem State.setPorts_sec (s : State) (v : Tbl Port) : (s.setPorts v).sec = s.sec := rfl
@[simp] theorem State.setPorts_start (s : State) (v : Tbl Port) : (s.setPorts v).start = s.start := rfl
@[simp] theorem State.setPorts_test (s : State) (v : Tbl Port) : (s.setPorts v).test = s.test := rfl
@[simp] theorem State.setPorts_cores (s : State) (v : Tbl Port) : (s.setPorts v).cores = s.cores := rfl
@[simp] theorem State.setPorts_out (s : State) (v : Tbl Port) : (s.setPorts v).out = s.out := rfl
@[simp] theorem State.setPorts_free (s : State) (v : Tbl Port) : (s.setPorts v).free = s.free := rfl
@[simp] theorem State.setPages_pending (s : State) (v : Tbl Page) : (s.setPages v).pending = s.pending := rfl
@[simp] theorem State.setPages_time (s : State) (v : Tbl Page) : (s.setPages v).time = s.time := rfl
@[simp] theorem State.setPages_tally (s : State) (v : Tbl Page) : (s.setPages v).tally = s.tally := rfl
@[simp] theorem State.setPages_notify (s : State) (v : Tbl Page) : (s.setPages v).notify = s.notify := rfl
@[simp] theorem State.setPages_od (s : State) (v : Tbl Page) : (s.setPages v).od = s.od := rfl
@[simp] theorem State.setPages_funcs (s : State) (v : Tbl Page) : (s.setPages v).funcs = s.funcs := rfl
@[simp] theorem State.setPages_power (s : State) (v : Tbl Page) : (s.setPages v).power = s.power := rfl
@[simp] theorem State.setPages_board (s : State) (v : Tbl Page) : (s.setPages v).board = s.board := rfl
@[simp] theorem State.setPages_cistern (s : State) (v : Tbl Page) : (s.setPages v).cistern = s.cistern := rfl
@[simp] theorem State.setPages_flush (s : State) (v : Tbl Page) : (s.setPages v).flush = s.flush := rfl
@[simp] theorem State.setPages_rooms (s : State) (v : Tbl Page) : (s.setPages v).rooms = s.rooms := rfl
@[simp] theorem State.setPages_adm (s : State) (v : Tbl Page) : (s.setPages v).adm = s.adm := rfl
@[simp] theorem State.setPages_ports (s : State) (v : Tbl Page) : (s.setPages v).ports = s.ports := rfl
@[simp] theorem State.setPages_pages (s : State) (v : Tbl Page) : (s.setPages v).pages = v := rfl
@[simp] theorem State.setPages_tier (s : State) (v : Tbl Page) : (s.setPages v).tier = s.tier := rfl
@[simp] theorem State.setPages_landing (s : State) (v : Tbl Page) : (s.setPages v).landing = s.landing := rfl
@[simp] theorem State.setPages_reqs (s : State) (v : Tbl Page) : (s.setPages v).reqs = s.reqs := rfl
@[simp] theorem State.setPages_stairs (s : State) (v : Tbl Page) : (s.setPages v).stairs = s.stairs := rfl
@[simp] theorem State.setPages_codec (s : State) (v : Tbl Page) : (s.setPages v).codec = s.codec := rfl
@[simp] theorem State.setPages_store (s : State) (v : Tbl Page) : (s.setPages v).store = s.store := rfl
@[simp] theorem State.setPages_retired (s : State) (v : Tbl Page) : (s.setPages v).retired = s.retired := rfl
@[simp] theorem State.setPages_retirements (s : State) (v : Tbl Page) : (s.setPages v).retirements = s.retirements := rfl
@[simp] theorem State.setPages_cellar (s : State) (v : Tbl Page) : (s.setPages v).cellar = s.cellar := rfl
@[simp] theorem State.setPages_shelves (s : State) (v : Tbl Page) : (s.setPages v).shelves = s.shelves := rfl
@[simp] theorem State.setPages_dir (s : State) (v : Tbl Page) : (s.setPages v).dir = s.dir := rfl
@[simp] theorem State.setPages_pubs (s : State) (v : Tbl Page) : (s.setPages v).pubs = s.pubs := rfl
@[simp] theorem State.setPages_integ (s : State) (v : Tbl Page) : (s.setPages v).integ = s.integ := rfl
@[simp] theorem State.setPages_vault (s : State) (v : Tbl Page) : (s.setPages v).vault = s.vault := rfl
@[simp] theorem State.setPages_sec (s : State) (v : Tbl Page) : (s.setPages v).sec = s.sec := rfl
@[simp] theorem State.setPages_start (s : State) (v : Tbl Page) : (s.setPages v).start = s.start := rfl
@[simp] theorem State.setPages_test (s : State) (v : Tbl Page) : (s.setPages v).test = s.test := rfl
@[simp] theorem State.setPages_cores (s : State) (v : Tbl Page) : (s.setPages v).cores = s.cores := rfl
@[simp] theorem State.setPages_out (s : State) (v : Tbl Page) : (s.setPages v).out = s.out := rfl
@[simp] theorem State.setPages_free (s : State) (v : Tbl Page) : (s.setPages v).free = s.free := rfl
@[simp] theorem State.setTier_pending (s : State) (v : Tier) : (s.setTier v).pending = s.pending := rfl
@[simp] theorem State.setTier_time (s : State) (v : Tier) : (s.setTier v).time = s.time := rfl
@[simp] theorem State.setTier_tally (s : State) (v : Tier) : (s.setTier v).tally = s.tally := rfl
@[simp] theorem State.setTier_notify (s : State) (v : Tier) : (s.setTier v).notify = s.notify := rfl
@[simp] theorem State.setTier_od (s : State) (v : Tier) : (s.setTier v).od = s.od := rfl
@[simp] theorem State.setTier_funcs (s : State) (v : Tier) : (s.setTier v).funcs = s.funcs := rfl
@[simp] theorem State.setTier_power (s : State) (v : Tier) : (s.setTier v).power = s.power := rfl
@[simp] theorem State.setTier_board (s : State) (v : Tier) : (s.setTier v).board = s.board := rfl
@[simp] theorem State.setTier_cistern (s : State) (v : Tier) : (s.setTier v).cistern = s.cistern := rfl
@[simp] theorem State.setTier_flush (s : State) (v : Tier) : (s.setTier v).flush = s.flush := rfl
@[simp] theorem State.setTier_rooms (s : State) (v : Tier) : (s.setTier v).rooms = s.rooms := rfl
@[simp] theorem State.setTier_adm (s : State) (v : Tier) : (s.setTier v).adm = s.adm := rfl
@[simp] theorem State.setTier_ports (s : State) (v : Tier) : (s.setTier v).ports = s.ports := rfl
@[simp] theorem State.setTier_pages (s : State) (v : Tier) : (s.setTier v).pages = s.pages := rfl
@[simp] theorem State.setTier_tier (s : State) (v : Tier) : (s.setTier v).tier = v := rfl
@[simp] theorem State.setTier_landing (s : State) (v : Tier) : (s.setTier v).landing = s.landing := rfl
@[simp] theorem State.setTier_reqs (s : State) (v : Tier) : (s.setTier v).reqs = s.reqs := rfl
@[simp] theorem State.setTier_stairs (s : State) (v : Tier) : (s.setTier v).stairs = s.stairs := rfl
@[simp] theorem State.setTier_codec (s : State) (v : Tier) : (s.setTier v).codec = s.codec := rfl
@[simp] theorem State.setTier_store (s : State) (v : Tier) : (s.setTier v).store = s.store := rfl
@[simp] theorem State.setTier_retired (s : State) (v : Tier) : (s.setTier v).retired = s.retired := rfl
@[simp] theorem State.setTier_retirements (s : State) (v : Tier) : (s.setTier v).retirements = s.retirements := rfl
@[simp] theorem State.setTier_cellar (s : State) (v : Tier) : (s.setTier v).cellar = s.cellar := rfl
@[simp] theorem State.setTier_shelves (s : State) (v : Tier) : (s.setTier v).shelves = s.shelves := rfl
@[simp] theorem State.setTier_dir (s : State) (v : Tier) : (s.setTier v).dir = s.dir := rfl
@[simp] theorem State.setTier_pubs (s : State) (v : Tier) : (s.setTier v).pubs = s.pubs := rfl
@[simp] theorem State.setTier_integ (s : State) (v : Tier) : (s.setTier v).integ = s.integ := rfl
@[simp] theorem State.setTier_vault (s : State) (v : Tier) : (s.setTier v).vault = s.vault := rfl
@[simp] theorem State.setTier_sec (s : State) (v : Tier) : (s.setTier v).sec = s.sec := rfl
@[simp] theorem State.setTier_start (s : State) (v : Tier) : (s.setTier v).start = s.start := rfl
@[simp] theorem State.setTier_test (s : State) (v : Tier) : (s.setTier v).test = s.test := rfl
@[simp] theorem State.setTier_cores (s : State) (v : Tier) : (s.setTier v).cores = s.cores := rfl
@[simp] theorem State.setTier_out (s : State) (v : Tier) : (s.setTier v).out = s.out := rfl
@[simp] theorem State.setTier_free (s : State) (v : Tier) : (s.setTier v).free = s.free := rfl
@[simp] theorem State.setLanding_pending (s : State) (v : Tbl Landing) : (s.setLanding v).pending = s.pending := rfl
@[simp] theorem State.setLanding_time (s : State) (v : Tbl Landing) : (s.setLanding v).time = s.time := rfl
@[simp] theorem State.setLanding_tally (s : State) (v : Tbl Landing) : (s.setLanding v).tally = s.tally := rfl
@[simp] theorem State.setLanding_notify (s : State) (v : Tbl Landing) : (s.setLanding v).notify = s.notify := rfl
@[simp] theorem State.setLanding_od (s : State) (v : Tbl Landing) : (s.setLanding v).od = s.od := rfl
@[simp] theorem State.setLanding_funcs (s : State) (v : Tbl Landing) : (s.setLanding v).funcs = s.funcs := rfl
@[simp] theorem State.setLanding_power (s : State) (v : Tbl Landing) : (s.setLanding v).power = s.power := rfl
@[simp] theorem State.setLanding_board (s : State) (v : Tbl Landing) : (s.setLanding v).board = s.board := rfl
@[simp] theorem State.setLanding_cistern (s : State) (v : Tbl Landing) : (s.setLanding v).cistern = s.cistern := rfl
@[simp] theorem State.setLanding_flush (s : State) (v : Tbl Landing) : (s.setLanding v).flush = s.flush := rfl
@[simp] theorem State.setLanding_rooms (s : State) (v : Tbl Landing) : (s.setLanding v).rooms = s.rooms := rfl
@[simp] theorem State.setLanding_adm (s : State) (v : Tbl Landing) : (s.setLanding v).adm = s.adm := rfl
@[simp] theorem State.setLanding_ports (s : State) (v : Tbl Landing) : (s.setLanding v).ports = s.ports := rfl
@[simp] theorem State.setLanding_pages (s : State) (v : Tbl Landing) : (s.setLanding v).pages = s.pages := rfl
@[simp] theorem State.setLanding_tier (s : State) (v : Tbl Landing) : (s.setLanding v).tier = s.tier := rfl
@[simp] theorem State.setLanding_landing (s : State) (v : Tbl Landing) : (s.setLanding v).landing = v := rfl
@[simp] theorem State.setLanding_reqs (s : State) (v : Tbl Landing) : (s.setLanding v).reqs = s.reqs := rfl
@[simp] theorem State.setLanding_stairs (s : State) (v : Tbl Landing) : (s.setLanding v).stairs = s.stairs := rfl
@[simp] theorem State.setLanding_codec (s : State) (v : Tbl Landing) : (s.setLanding v).codec = s.codec := rfl
@[simp] theorem State.setLanding_store (s : State) (v : Tbl Landing) : (s.setLanding v).store = s.store := rfl
@[simp] theorem State.setLanding_retired (s : State) (v : Tbl Landing) : (s.setLanding v).retired = s.retired := rfl
@[simp] theorem State.setLanding_retirements (s : State) (v : Tbl Landing) : (s.setLanding v).retirements = s.retirements := rfl
@[simp] theorem State.setLanding_cellar (s : State) (v : Tbl Landing) : (s.setLanding v).cellar = s.cellar := rfl
@[simp] theorem State.setLanding_shelves (s : State) (v : Tbl Landing) : (s.setLanding v).shelves = s.shelves := rfl
@[simp] theorem State.setLanding_dir (s : State) (v : Tbl Landing) : (s.setLanding v).dir = s.dir := rfl
@[simp] theorem State.setLanding_pubs (s : State) (v : Tbl Landing) : (s.setLanding v).pubs = s.pubs := rfl
@[simp] theorem State.setLanding_integ (s : State) (v : Tbl Landing) : (s.setLanding v).integ = s.integ := rfl
@[simp] theorem State.setLanding_vault (s : State) (v : Tbl Landing) : (s.setLanding v).vault = s.vault := rfl
@[simp] theorem State.setLanding_sec (s : State) (v : Tbl Landing) : (s.setLanding v).sec = s.sec := rfl
@[simp] theorem State.setLanding_start (s : State) (v : Tbl Landing) : (s.setLanding v).start = s.start := rfl
@[simp] theorem State.setLanding_test (s : State) (v : Tbl Landing) : (s.setLanding v).test = s.test := rfl
@[simp] theorem State.setLanding_cores (s : State) (v : Tbl Landing) : (s.setLanding v).cores = s.cores := rfl
@[simp] theorem State.setLanding_out (s : State) (v : Tbl Landing) : (s.setLanding v).out = s.out := rfl
@[simp] theorem State.setLanding_free (s : State) (v : Tbl Landing) : (s.setLanding v).free = s.free := rfl
@[simp] theorem State.setReqs_pending (s : State) (v : Requests) : (s.setReqs v).pending = s.pending := rfl
@[simp] theorem State.setReqs_time (s : State) (v : Requests) : (s.setReqs v).time = s.time := rfl
@[simp] theorem State.setReqs_tally (s : State) (v : Requests) : (s.setReqs v).tally = s.tally := rfl
@[simp] theorem State.setReqs_notify (s : State) (v : Requests) : (s.setReqs v).notify = s.notify := rfl
@[simp] theorem State.setReqs_od (s : State) (v : Requests) : (s.setReqs v).od = s.od := rfl
@[simp] theorem State.setReqs_funcs (s : State) (v : Requests) : (s.setReqs v).funcs = s.funcs := rfl
@[simp] theorem State.setReqs_power (s : State) (v : Requests) : (s.setReqs v).power = s.power := rfl
@[simp] theorem State.setReqs_board (s : State) (v : Requests) : (s.setReqs v).board = s.board := rfl
@[simp] theorem State.setReqs_cistern (s : State) (v : Requests) : (s.setReqs v).cistern = s.cistern := rfl
@[simp] theorem State.setReqs_flush (s : State) (v : Requests) : (s.setReqs v).flush = s.flush := rfl
@[simp] theorem State.setReqs_rooms (s : State) (v : Requests) : (s.setReqs v).rooms = s.rooms := rfl
@[simp] theorem State.setReqs_adm (s : State) (v : Requests) : (s.setReqs v).adm = s.adm := rfl
@[simp] theorem State.setReqs_ports (s : State) (v : Requests) : (s.setReqs v).ports = s.ports := rfl
@[simp] theorem State.setReqs_pages (s : State) (v : Requests) : (s.setReqs v).pages = s.pages := rfl
@[simp] theorem State.setReqs_tier (s : State) (v : Requests) : (s.setReqs v).tier = s.tier := rfl
@[simp] theorem State.setReqs_landing (s : State) (v : Requests) : (s.setReqs v).landing = s.landing := rfl
@[simp] theorem State.setReqs_reqs (s : State) (v : Requests) : (s.setReqs v).reqs = v := rfl
@[simp] theorem State.setReqs_stairs (s : State) (v : Requests) : (s.setReqs v).stairs = s.stairs := rfl
@[simp] theorem State.setReqs_codec (s : State) (v : Requests) : (s.setReqs v).codec = s.codec := rfl
@[simp] theorem State.setReqs_store (s : State) (v : Requests) : (s.setReqs v).store = s.store := rfl
@[simp] theorem State.setReqs_retired (s : State) (v : Requests) : (s.setReqs v).retired = s.retired := rfl
@[simp] theorem State.setReqs_retirements (s : State) (v : Requests) : (s.setReqs v).retirements = s.retirements := rfl
@[simp] theorem State.setReqs_cellar (s : State) (v : Requests) : (s.setReqs v).cellar = s.cellar := rfl
@[simp] theorem State.setReqs_shelves (s : State) (v : Requests) : (s.setReqs v).shelves = s.shelves := rfl
@[simp] theorem State.setReqs_dir (s : State) (v : Requests) : (s.setReqs v).dir = s.dir := rfl
@[simp] theorem State.setReqs_pubs (s : State) (v : Requests) : (s.setReqs v).pubs = s.pubs := rfl
@[simp] theorem State.setReqs_integ (s : State) (v : Requests) : (s.setReqs v).integ = s.integ := rfl
@[simp] theorem State.setReqs_vault (s : State) (v : Requests) : (s.setReqs v).vault = s.vault := rfl
@[simp] theorem State.setReqs_sec (s : State) (v : Requests) : (s.setReqs v).sec = s.sec := rfl
@[simp] theorem State.setReqs_start (s : State) (v : Requests) : (s.setReqs v).start = s.start := rfl
@[simp] theorem State.setReqs_test (s : State) (v : Requests) : (s.setReqs v).test = s.test := rfl
@[simp] theorem State.setReqs_cores (s : State) (v : Requests) : (s.setReqs v).cores = s.cores := rfl
@[simp] theorem State.setReqs_out (s : State) (v : Requests) : (s.setReqs v).out = s.out := rfl
@[simp] theorem State.setReqs_free (s : State) (v : Requests) : (s.setReqs v).free = s.free := rfl
@[simp] theorem State.setStairs_pending (s : State) (v : Tbl Stair) : (s.setStairs v).pending = s.pending := rfl
@[simp] theorem State.setStairs_time (s : State) (v : Tbl Stair) : (s.setStairs v).time = s.time := rfl
@[simp] theorem State.setStairs_tally (s : State) (v : Tbl Stair) : (s.setStairs v).tally = s.tally := rfl
@[simp] theorem State.setStairs_notify (s : State) (v : Tbl Stair) : (s.setStairs v).notify = s.notify := rfl
@[simp] theorem State.setStairs_od (s : State) (v : Tbl Stair) : (s.setStairs v).od = s.od := rfl
@[simp] theorem State.setStairs_funcs (s : State) (v : Tbl Stair) : (s.setStairs v).funcs = s.funcs := rfl
@[simp] theorem State.setStairs_power (s : State) (v : Tbl Stair) : (s.setStairs v).power = s.power := rfl
@[simp] theorem State.setStairs_board (s : State) (v : Tbl Stair) : (s.setStairs v).board = s.board := rfl
@[simp] theorem State.setStairs_cistern (s : State) (v : Tbl Stair) : (s.setStairs v).cistern = s.cistern := rfl
@[simp] theorem State.setStairs_flush (s : State) (v : Tbl Stair) : (s.setStairs v).flush = s.flush := rfl
@[simp] theorem State.setStairs_rooms (s : State) (v : Tbl Stair) : (s.setStairs v).rooms = s.rooms := rfl
@[simp] theorem State.setStairs_adm (s : State) (v : Tbl Stair) : (s.setStairs v).adm = s.adm := rfl
@[simp] theorem State.setStairs_ports (s : State) (v : Tbl Stair) : (s.setStairs v).ports = s.ports := rfl
@[simp] theorem State.setStairs_pages (s : State) (v : Tbl Stair) : (s.setStairs v).pages = s.pages := rfl
@[simp] theorem State.setStairs_tier (s : State) (v : Tbl Stair) : (s.setStairs v).tier = s.tier := rfl
@[simp] theorem State.setStairs_landing (s : State) (v : Tbl Stair) : (s.setStairs v).landing = s.landing := rfl
@[simp] theorem State.setStairs_reqs (s : State) (v : Tbl Stair) : (s.setStairs v).reqs = s.reqs := rfl
@[simp] theorem State.setStairs_stairs (s : State) (v : Tbl Stair) : (s.setStairs v).stairs = v := rfl
@[simp] theorem State.setStairs_codec (s : State) (v : Tbl Stair) : (s.setStairs v).codec = s.codec := rfl
@[simp] theorem State.setStairs_store (s : State) (v : Tbl Stair) : (s.setStairs v).store = s.store := rfl
@[simp] theorem State.setStairs_retired (s : State) (v : Tbl Stair) : (s.setStairs v).retired = s.retired := rfl
@[simp] theorem State.setStairs_retirements (s : State) (v : Tbl Stair) : (s.setStairs v).retirements = s.retirements := rfl
@[simp] theorem State.setStairs_cellar (s : State) (v : Tbl Stair) : (s.setStairs v).cellar = s.cellar := rfl
@[simp] theorem State.setStairs_shelves (s : State) (v : Tbl Stair) : (s.setStairs v).shelves = s.shelves := rfl
@[simp] theorem State.setStairs_dir (s : State) (v : Tbl Stair) : (s.setStairs v).dir = s.dir := rfl
@[simp] theorem State.setStairs_pubs (s : State) (v : Tbl Stair) : (s.setStairs v).pubs = s.pubs := rfl
@[simp] theorem State.setStairs_integ (s : State) (v : Tbl Stair) : (s.setStairs v).integ = s.integ := rfl
@[simp] theorem State.setStairs_vault (s : State) (v : Tbl Stair) : (s.setStairs v).vault = s.vault := rfl
@[simp] theorem State.setStairs_sec (s : State) (v : Tbl Stair) : (s.setStairs v).sec = s.sec := rfl
@[simp] theorem State.setStairs_start (s : State) (v : Tbl Stair) : (s.setStairs v).start = s.start := rfl
@[simp] theorem State.setStairs_test (s : State) (v : Tbl Stair) : (s.setStairs v).test = s.test := rfl
@[simp] theorem State.setStairs_cores (s : State) (v : Tbl Stair) : (s.setStairs v).cores = s.cores := rfl
@[simp] theorem State.setStairs_out (s : State) (v : Tbl Stair) : (s.setStairs v).out = s.out := rfl
@[simp] theorem State.setStairs_free (s : State) (v : Tbl Stair) : (s.setStairs v).free = s.free := rfl
@[simp] theorem State.setCodec_pending (s : State) (v : Codec) : (s.setCodec v).pending = s.pending := rfl
@[simp] theorem State.setCodec_time (s : State) (v : Codec) : (s.setCodec v).time = s.time := rfl
@[simp] theorem State.setCodec_tally (s : State) (v : Codec) : (s.setCodec v).tally = s.tally := rfl
@[simp] theorem State.setCodec_notify (s : State) (v : Codec) : (s.setCodec v).notify = s.notify := rfl
@[simp] theorem State.setCodec_od (s : State) (v : Codec) : (s.setCodec v).od = s.od := rfl
@[simp] theorem State.setCodec_funcs (s : State) (v : Codec) : (s.setCodec v).funcs = s.funcs := rfl
@[simp] theorem State.setCodec_power (s : State) (v : Codec) : (s.setCodec v).power = s.power := rfl
@[simp] theorem State.setCodec_board (s : State) (v : Codec) : (s.setCodec v).board = s.board := rfl
@[simp] theorem State.setCodec_cistern (s : State) (v : Codec) : (s.setCodec v).cistern = s.cistern := rfl
@[simp] theorem State.setCodec_flush (s : State) (v : Codec) : (s.setCodec v).flush = s.flush := rfl
@[simp] theorem State.setCodec_rooms (s : State) (v : Codec) : (s.setCodec v).rooms = s.rooms := rfl
@[simp] theorem State.setCodec_adm (s : State) (v : Codec) : (s.setCodec v).adm = s.adm := rfl
@[simp] theorem State.setCodec_ports (s : State) (v : Codec) : (s.setCodec v).ports = s.ports := rfl
@[simp] theorem State.setCodec_pages (s : State) (v : Codec) : (s.setCodec v).pages = s.pages := rfl
@[simp] theorem State.setCodec_tier (s : State) (v : Codec) : (s.setCodec v).tier = s.tier := rfl
@[simp] theorem State.setCodec_landing (s : State) (v : Codec) : (s.setCodec v).landing = s.landing := rfl
@[simp] theorem State.setCodec_reqs (s : State) (v : Codec) : (s.setCodec v).reqs = s.reqs := rfl
@[simp] theorem State.setCodec_stairs (s : State) (v : Codec) : (s.setCodec v).stairs = s.stairs := rfl
@[simp] theorem State.setCodec_codec (s : State) (v : Codec) : (s.setCodec v).codec = v := rfl
@[simp] theorem State.setCodec_store (s : State) (v : Codec) : (s.setCodec v).store = s.store := rfl
@[simp] theorem State.setCodec_retired (s : State) (v : Codec) : (s.setCodec v).retired = s.retired := rfl
@[simp] theorem State.setCodec_retirements (s : State) (v : Codec) : (s.setCodec v).retirements = s.retirements := rfl
@[simp] theorem State.setCodec_cellar (s : State) (v : Codec) : (s.setCodec v).cellar = s.cellar := rfl
@[simp] theorem State.setCodec_shelves (s : State) (v : Codec) : (s.setCodec v).shelves = s.shelves := rfl
@[simp] theorem State.setCodec_dir (s : State) (v : Codec) : (s.setCodec v).dir = s.dir := rfl
@[simp] theorem State.setCodec_pubs (s : State) (v : Codec) : (s.setCodec v).pubs = s.pubs := rfl
@[simp] theorem State.setCodec_integ (s : State) (v : Codec) : (s.setCodec v).integ = s.integ := rfl
@[simp] theorem State.setCodec_vault (s : State) (v : Codec) : (s.setCodec v).vault = s.vault := rfl
@[simp] theorem State.setCodec_sec (s : State) (v : Codec) : (s.setCodec v).sec = s.sec := rfl
@[simp] theorem State.setCodec_start (s : State) (v : Codec) : (s.setCodec v).start = s.start := rfl
@[simp] theorem State.setCodec_test (s : State) (v : Codec) : (s.setCodec v).test = s.test := rfl
@[simp] theorem State.setCodec_cores (s : State) (v : Codec) : (s.setCodec v).cores = s.cores := rfl
@[simp] theorem State.setCodec_out (s : State) (v : Codec) : (s.setCodec v).out = s.out := rfl
@[simp] theorem State.setCodec_free (s : State) (v : Codec) : (s.setCodec v).free = s.free := rfl
@[simp] theorem State.setStore_pending (s : State) (v : Store) : (s.setStore v).pending = s.pending := rfl
@[simp] theorem State.setStore_time (s : State) (v : Store) : (s.setStore v).time = s.time := rfl
@[simp] theorem State.setStore_tally (s : State) (v : Store) : (s.setStore v).tally = s.tally := rfl
@[simp] theorem State.setStore_notify (s : State) (v : Store) : (s.setStore v).notify = s.notify := rfl
@[simp] theorem State.setStore_od (s : State) (v : Store) : (s.setStore v).od = s.od := rfl
@[simp] theorem State.setStore_funcs (s : State) (v : Store) : (s.setStore v).funcs = s.funcs := rfl
@[simp] theorem State.setStore_power (s : State) (v : Store) : (s.setStore v).power = s.power := rfl
@[simp] theorem State.setStore_board (s : State) (v : Store) : (s.setStore v).board = s.board := rfl
@[simp] theorem State.setStore_cistern (s : State) (v : Store) : (s.setStore v).cistern = s.cistern := rfl
@[simp] theorem State.setStore_flush (s : State) (v : Store) : (s.setStore v).flush = s.flush := rfl
@[simp] theorem State.setStore_rooms (s : State) (v : Store) : (s.setStore v).rooms = s.rooms := rfl
@[simp] theorem State.setStore_adm (s : State) (v : Store) : (s.setStore v).adm = s.adm := rfl
@[simp] theorem State.setStore_ports (s : State) (v : Store) : (s.setStore v).ports = s.ports := rfl
@[simp] theorem State.setStore_pages (s : State) (v : Store) : (s.setStore v).pages = s.pages := rfl
@[simp] theorem State.setStore_tier (s : State) (v : Store) : (s.setStore v).tier = s.tier := rfl
@[simp] theorem State.setStore_landing (s : State) (v : Store) : (s.setStore v).landing = s.landing := rfl
@[simp] theorem State.setStore_reqs (s : State) (v : Store) : (s.setStore v).reqs = s.reqs := rfl
@[simp] theorem State.setStore_stairs (s : State) (v : Store) : (s.setStore v).stairs = s.stairs := rfl
@[simp] theorem State.setStore_codec (s : State) (v : Store) : (s.setStore v).codec = s.codec := rfl
@[simp] theorem State.setStore_store (s : State) (v : Store) : (s.setStore v).store = v := rfl
@[simp] theorem State.setStore_retired (s : State) (v : Store) : (s.setStore v).retired = s.retired := rfl
@[simp] theorem State.setStore_retirements (s : State) (v : Store) : (s.setStore v).retirements = s.retirements := rfl
@[simp] theorem State.setStore_cellar (s : State) (v : Store) : (s.setStore v).cellar = s.cellar := rfl
@[simp] theorem State.setStore_shelves (s : State) (v : Store) : (s.setStore v).shelves = s.shelves := rfl
@[simp] theorem State.setStore_dir (s : State) (v : Store) : (s.setStore v).dir = s.dir := rfl
@[simp] theorem State.setStore_pubs (s : State) (v : Store) : (s.setStore v).pubs = s.pubs := rfl
@[simp] theorem State.setStore_integ (s : State) (v : Store) : (s.setStore v).integ = s.integ := rfl
@[simp] theorem State.setStore_vault (s : State) (v : Store) : (s.setStore v).vault = s.vault := rfl
@[simp] theorem State.setStore_sec (s : State) (v : Store) : (s.setStore v).sec = s.sec := rfl
@[simp] theorem State.setStore_start (s : State) (v : Store) : (s.setStore v).start = s.start := rfl
@[simp] theorem State.setStore_test (s : State) (v : Store) : (s.setStore v).test = s.test := rfl
@[simp] theorem State.setStore_cores (s : State) (v : Store) : (s.setStore v).cores = s.cores := rfl
@[simp] theorem State.setStore_out (s : State) (v : Store) : (s.setStore v).out = s.out := rfl
@[simp] theorem State.setStore_free (s : State) (v : Store) : (s.setStore v).free = s.free := rfl
@[simp] theorem State.setRetired_pending (s : State) (v : List Nat) : (s.setRetired v).pending = s.pending := rfl
@[simp] theorem State.setRetired_time (s : State) (v : List Nat) : (s.setRetired v).time = s.time := rfl
@[simp] theorem State.setRetired_tally (s : State) (v : List Nat) : (s.setRetired v).tally = s.tally := rfl
@[simp] theorem State.setRetired_notify (s : State) (v : List Nat) : (s.setRetired v).notify = s.notify := rfl
@[simp] theorem State.setRetired_od (s : State) (v : List Nat) : (s.setRetired v).od = s.od := rfl
@[simp] theorem State.setRetired_funcs (s : State) (v : List Nat) : (s.setRetired v).funcs = s.funcs := rfl
@[simp] theorem State.setRetired_power (s : State) (v : List Nat) : (s.setRetired v).power = s.power := rfl
@[simp] theorem State.setRetired_board (s : State) (v : List Nat) : (s.setRetired v).board = s.board := rfl
@[simp] theorem State.setRetired_cistern (s : State) (v : List Nat) : (s.setRetired v).cistern = s.cistern := rfl
@[simp] theorem State.setRetired_flush (s : State) (v : List Nat) : (s.setRetired v).flush = s.flush := rfl
@[simp] theorem State.setRetired_rooms (s : State) (v : List Nat) : (s.setRetired v).rooms = s.rooms := rfl
@[simp] theorem State.setRetired_adm (s : State) (v : List Nat) : (s.setRetired v).adm = s.adm := rfl
@[simp] theorem State.setRetired_ports (s : State) (v : List Nat) : (s.setRetired v).ports = s.ports := rfl
@[simp] theorem State.setRetired_pages (s : State) (v : List Nat) : (s.setRetired v).pages = s.pages := rfl
@[simp] theorem State.setRetired_tier (s : State) (v : List Nat) : (s.setRetired v).tier = s.tier := rfl
@[simp] theorem State.setRetired_landing (s : State) (v : List Nat) : (s.setRetired v).landing = s.landing := rfl
@[simp] theorem State.setRetired_reqs (s : State) (v : List Nat) : (s.setRetired v).reqs = s.reqs := rfl
@[simp] theorem State.setRetired_stairs (s : State) (v : List Nat) : (s.setRetired v).stairs = s.stairs := rfl
@[simp] theorem State.setRetired_codec (s : State) (v : List Nat) : (s.setRetired v).codec = s.codec := rfl
@[simp] theorem State.setRetired_store (s : State) (v : List Nat) : (s.setRetired v).store = s.store := rfl
@[simp] theorem State.setRetired_retired (s : State) (v : List Nat) : (s.setRetired v).retired = v := rfl
@[simp] theorem State.setRetired_retirements (s : State) (v : List Nat) : (s.setRetired v).retirements = s.retirements := rfl
@[simp] theorem State.setRetired_cellar (s : State) (v : List Nat) : (s.setRetired v).cellar = s.cellar := rfl
@[simp] theorem State.setRetired_shelves (s : State) (v : List Nat) : (s.setRetired v).shelves = s.shelves := rfl
@[simp] theorem State.setRetired_dir (s : State) (v : List Nat) : (s.setRetired v).dir = s.dir := rfl
@[simp] theorem State.setRetired_pubs (s : State) (v : List Nat) : (s.setRetired v).pubs = s.pubs := rfl
@[simp] theorem State.setRetired_integ (s : State) (v : List Nat) : (s.setRetired v).integ = s.integ := rfl
@[simp] theorem State.setRetired_vault (s : State) (v : List Nat) : (s.setRetired v).vault = s.vault := rfl
@[simp] theorem State.setRetired_sec (s : State) (v : List Nat) : (s.setRetired v).sec = s.sec := rfl
@[simp] theorem State.setRetired_start (s : State) (v : List Nat) : (s.setRetired v).start = s.start := rfl
@[simp] theorem State.setRetired_test (s : State) (v : List Nat) : (s.setRetired v).test = s.test := rfl
@[simp] theorem State.setRetired_cores (s : State) (v : List Nat) : (s.setRetired v).cores = s.cores := rfl
@[simp] theorem State.setRetired_out (s : State) (v : List Nat) : (s.setRetired v).out = s.out := rfl
@[simp] theorem State.setRetired_free (s : State) (v : List Nat) : (s.setRetired v).free = s.free := rfl
@[simp] theorem State.setRetirements_pending (s : State) (v : Tbl Nat) : (s.setRetirements v).pending = s.pending := rfl
@[simp] theorem State.setRetirements_time (s : State) (v : Tbl Nat) : (s.setRetirements v).time = s.time := rfl
@[simp] theorem State.setRetirements_tally (s : State) (v : Tbl Nat) : (s.setRetirements v).tally = s.tally := rfl
@[simp] theorem State.setRetirements_notify (s : State) (v : Tbl Nat) : (s.setRetirements v).notify = s.notify := rfl
@[simp] theorem State.setRetirements_od (s : State) (v : Tbl Nat) : (s.setRetirements v).od = s.od := rfl
@[simp] theorem State.setRetirements_funcs (s : State) (v : Tbl Nat) : (s.setRetirements v).funcs = s.funcs := rfl
@[simp] theorem State.setRetirements_power (s : State) (v : Tbl Nat) : (s.setRetirements v).power = s.power := rfl
@[simp] theorem State.setRetirements_board (s : State) (v : Tbl Nat) : (s.setRetirements v).board = s.board := rfl
@[simp] theorem State.setRetirements_cistern (s : State) (v : Tbl Nat) : (s.setRetirements v).cistern = s.cistern := rfl
@[simp] theorem State.setRetirements_flush (s : State) (v : Tbl Nat) : (s.setRetirements v).flush = s.flush := rfl
@[simp] theorem State.setRetirements_rooms (s : State) (v : Tbl Nat) : (s.setRetirements v).rooms = s.rooms := rfl
@[simp] theorem State.setRetirements_adm (s : State) (v : Tbl Nat) : (s.setRetirements v).adm = s.adm := rfl
@[simp] theorem State.setRetirements_ports (s : State) (v : Tbl Nat) : (s.setRetirements v).ports = s.ports := rfl
@[simp] theorem State.setRetirements_pages (s : State) (v : Tbl Nat) : (s.setRetirements v).pages = s.pages := rfl
@[simp] theorem State.setRetirements_tier (s : State) (v : Tbl Nat) : (s.setRetirements v).tier = s.tier := rfl
@[simp] theorem State.setRetirements_landing (s : State) (v : Tbl Nat) : (s.setRetirements v).landing = s.landing := rfl
@[simp] theorem State.setRetirements_reqs (s : State) (v : Tbl Nat) : (s.setRetirements v).reqs = s.reqs := rfl
@[simp] theorem State.setRetirements_stairs (s : State) (v : Tbl Nat) : (s.setRetirements v).stairs = s.stairs := rfl
@[simp] theorem State.setRetirements_codec (s : State) (v : Tbl Nat) : (s.setRetirements v).codec = s.codec := rfl
@[simp] theorem State.setRetirements_store (s : State) (v : Tbl Nat) : (s.setRetirements v).store = s.store := rfl
@[simp] theorem State.setRetirements_retired (s : State) (v : Tbl Nat) : (s.setRetirements v).retired = s.retired := rfl
@[simp] theorem State.setRetirements_retirements (s : State) (v : Tbl Nat) : (s.setRetirements v).retirements = v := rfl
@[simp] theorem State.setRetirements_cellar (s : State) (v : Tbl Nat) : (s.setRetirements v).cellar = s.cellar := rfl
@[simp] theorem State.setRetirements_shelves (s : State) (v : Tbl Nat) : (s.setRetirements v).shelves = s.shelves := rfl
@[simp] theorem State.setRetirements_dir (s : State) (v : Tbl Nat) : (s.setRetirements v).dir = s.dir := rfl
@[simp] theorem State.setRetirements_pubs (s : State) (v : Tbl Nat) : (s.setRetirements v).pubs = s.pubs := rfl
@[simp] theorem State.setRetirements_integ (s : State) (v : Tbl Nat) : (s.setRetirements v).integ = s.integ := rfl
@[simp] theorem State.setRetirements_vault (s : State) (v : Tbl Nat) : (s.setRetirements v).vault = s.vault := rfl
@[simp] theorem State.setRetirements_sec (s : State) (v : Tbl Nat) : (s.setRetirements v).sec = s.sec := rfl
@[simp] theorem State.setRetirements_start (s : State) (v : Tbl Nat) : (s.setRetirements v).start = s.start := rfl
@[simp] theorem State.setRetirements_test (s : State) (v : Tbl Nat) : (s.setRetirements v).test = s.test := rfl
@[simp] theorem State.setRetirements_cores (s : State) (v : Tbl Nat) : (s.setRetirements v).cores = s.cores := rfl
@[simp] theorem State.setRetirements_out (s : State) (v : Tbl Nat) : (s.setRetirements v).out = s.out := rfl
@[simp] theorem State.setRetirements_free (s : State) (v : Tbl Nat) : (s.setRetirements v).free = s.free := rfl
@[simp] theorem State.setCellar_pending (s : State) (v : Cellar) : (s.setCellar v).pending = s.pending := rfl
@[simp] theorem State.setCellar_time (s : State) (v : Cellar) : (s.setCellar v).time = s.time := rfl
@[simp] theorem State.setCellar_tally (s : State) (v : Cellar) : (s.setCellar v).tally = s.tally := rfl
@[simp] theorem State.setCellar_notify (s : State) (v : Cellar) : (s.setCellar v).notify = s.notify := rfl
@[simp] theorem State.setCellar_od (s : State) (v : Cellar) : (s.setCellar v).od = s.od := rfl
@[simp] theorem State.setCellar_funcs (s : State) (v : Cellar) : (s.setCellar v).funcs = s.funcs := rfl
@[simp] theorem State.setCellar_power (s : State) (v : Cellar) : (s.setCellar v).power = s.power := rfl
@[simp] theorem State.setCellar_board (s : State) (v : Cellar) : (s.setCellar v).board = s.board := rfl
@[simp] theorem State.setCellar_cistern (s : State) (v : Cellar) : (s.setCellar v).cistern = s.cistern := rfl
@[simp] theorem State.setCellar_flush (s : State) (v : Cellar) : (s.setCellar v).flush = s.flush := rfl
@[simp] theorem State.setCellar_rooms (s : State) (v : Cellar) : (s.setCellar v).rooms = s.rooms := rfl
@[simp] theorem State.setCellar_adm (s : State) (v : Cellar) : (s.setCellar v).adm = s.adm := rfl
@[simp] theorem State.setCellar_ports (s : State) (v : Cellar) : (s.setCellar v).ports = s.ports := rfl
@[simp] theorem State.setCellar_pages (s : State) (v : Cellar) : (s.setCellar v).pages = s.pages := rfl
@[simp] theorem State.setCellar_tier (s : State) (v : Cellar) : (s.setCellar v).tier = s.tier := rfl
@[simp] theorem State.setCellar_landing (s : State) (v : Cellar) : (s.setCellar v).landing = s.landing := rfl
@[simp] theorem State.setCellar_reqs (s : State) (v : Cellar) : (s.setCellar v).reqs = s.reqs := rfl
@[simp] theorem State.setCellar_stairs (s : State) (v : Cellar) : (s.setCellar v).stairs = s.stairs := rfl
@[simp] theorem State.setCellar_codec (s : State) (v : Cellar) : (s.setCellar v).codec = s.codec := rfl
@[simp] theorem State.setCellar_store (s : State) (v : Cellar) : (s.setCellar v).store = s.store := rfl
@[simp] theorem State.setCellar_retired (s : State) (v : Cellar) : (s.setCellar v).retired = s.retired := rfl
@[simp] theorem State.setCellar_retirements (s : State) (v : Cellar) : (s.setCellar v).retirements = s.retirements := rfl
@[simp] theorem State.setCellar_cellar (s : State) (v : Cellar) : (s.setCellar v).cellar = v := rfl
@[simp] theorem State.setCellar_shelves (s : State) (v : Cellar) : (s.setCellar v).shelves = s.shelves := rfl
@[simp] theorem State.setCellar_dir (s : State) (v : Cellar) : (s.setCellar v).dir = s.dir := rfl
@[simp] theorem State.setCellar_pubs (s : State) (v : Cellar) : (s.setCellar v).pubs = s.pubs := rfl
@[simp] theorem State.setCellar_integ (s : State) (v : Cellar) : (s.setCellar v).integ = s.integ := rfl
@[simp] theorem State.setCellar_vault (s : State) (v : Cellar) : (s.setCellar v).vault = s.vault := rfl
@[simp] theorem State.setCellar_sec (s : State) (v : Cellar) : (s.setCellar v).sec = s.sec := rfl
@[simp] theorem State.setCellar_start (s : State) (v : Cellar) : (s.setCellar v).start = s.start := rfl
@[simp] theorem State.setCellar_test (s : State) (v : Cellar) : (s.setCellar v).test = s.test := rfl
@[simp] theorem State.setCellar_cores (s : State) (v : Cellar) : (s.setCellar v).cores = s.cores := rfl
@[simp] theorem State.setCellar_out (s : State) (v : Cellar) : (s.setCellar v).out = s.out := rfl
@[simp] theorem State.setCellar_free (s : State) (v : Cellar) : (s.setCellar v).free = s.free := rfl
@[simp] theorem State.setShelves_pending (s : State) (v : Tbl Shelf) : (s.setShelves v).pending = s.pending := rfl
@[simp] theorem State.setShelves_time (s : State) (v : Tbl Shelf) : (s.setShelves v).time = s.time := rfl
@[simp] theorem State.setShelves_tally (s : State) (v : Tbl Shelf) : (s.setShelves v).tally = s.tally := rfl
@[simp] theorem State.setShelves_notify (s : State) (v : Tbl Shelf) : (s.setShelves v).notify = s.notify := rfl
@[simp] theorem State.setShelves_od (s : State) (v : Tbl Shelf) : (s.setShelves v).od = s.od := rfl
@[simp] theorem State.setShelves_funcs (s : State) (v : Tbl Shelf) : (s.setShelves v).funcs = s.funcs := rfl
@[simp] theorem State.setShelves_power (s : State) (v : Tbl Shelf) : (s.setShelves v).power = s.power := rfl
@[simp] theorem State.setShelves_board (s : State) (v : Tbl Shelf) : (s.setShelves v).board = s.board := rfl
@[simp] theorem State.setShelves_cistern (s : State) (v : Tbl Shelf) : (s.setShelves v).cistern = s.cistern := rfl
@[simp] theorem State.setShelves_flush (s : State) (v : Tbl Shelf) : (s.setShelves v).flush = s.flush := rfl
@[simp] theorem State.setShelves_rooms (s : State) (v : Tbl Shelf) : (s.setShelves v).rooms = s.rooms := rfl
@[simp] theorem State.setShelves_adm (s : State) (v : Tbl Shelf) : (s.setShelves v).adm = s.adm := rfl
@[simp] theorem State.setShelves_ports (s : State) (v : Tbl Shelf) : (s.setShelves v).ports = s.ports := rfl
@[simp] theorem State.setShelves_pages (s : State) (v : Tbl Shelf) : (s.setShelves v).pages = s.pages := rfl
@[simp] theorem State.setShelves_tier (s : State) (v : Tbl Shelf) : (s.setShelves v).tier = s.tier := rfl
@[simp] theorem State.setShelves_landing (s : State) (v : Tbl Shelf) : (s.setShelves v).landing = s.landing := rfl
@[simp] theorem State.setShelves_reqs (s : State) (v : Tbl Shelf) : (s.setShelves v).reqs = s.reqs := rfl
@[simp] theorem State.setShelves_stairs (s : State) (v : Tbl Shelf) : (s.setShelves v).stairs = s.stairs := rfl
@[simp] theorem State.setShelves_codec (s : State) (v : Tbl Shelf) : (s.setShelves v).codec = s.codec := rfl
@[simp] theorem State.setShelves_store (s : State) (v : Tbl Shelf) : (s.setShelves v).store = s.store := rfl
@[simp] theorem State.setShelves_retired (s : State) (v : Tbl Shelf) : (s.setShelves v).retired = s.retired := rfl
@[simp] theorem State.setShelves_retirements (s : State) (v : Tbl Shelf) : (s.setShelves v).retirements = s.retirements := rfl
@[simp] theorem State.setShelves_cellar (s : State) (v : Tbl Shelf) : (s.setShelves v).cellar = s.cellar := rfl
@[simp] theorem State.setShelves_shelves (s : State) (v : Tbl Shelf) : (s.setShelves v).shelves = v := rfl
@[simp] theorem State.setShelves_dir (s : State) (v : Tbl Shelf) : (s.setShelves v).dir = s.dir := rfl
@[simp] theorem State.setShelves_pubs (s : State) (v : Tbl Shelf) : (s.setShelves v).pubs = s.pubs := rfl
@[simp] theorem State.setShelves_integ (s : State) (v : Tbl Shelf) : (s.setShelves v).integ = s.integ := rfl
@[simp] theorem State.setShelves_vault (s : State) (v : Tbl Shelf) : (s.setShelves v).vault = s.vault := rfl
@[simp] theorem State.setShelves_sec (s : State) (v : Tbl Shelf) : (s.setShelves v).sec = s.sec := rfl
@[simp] theorem State.setShelves_start (s : State) (v : Tbl Shelf) : (s.setShelves v).start = s.start := rfl
@[simp] theorem State.setShelves_test (s : State) (v : Tbl Shelf) : (s.setShelves v).test = s.test := rfl
@[simp] theorem State.setShelves_cores (s : State) (v : Tbl Shelf) : (s.setShelves v).cores = s.cores := rfl
@[simp] theorem State.setShelves_out (s : State) (v : Tbl Shelf) : (s.setShelves v).out = s.out := rfl
@[simp] theorem State.setShelves_free (s : State) (v : Tbl Shelf) : (s.setShelves v).free = s.free := rfl
@[simp] theorem State.setDir_pending (s : State) (v : Dir) : (s.setDir v).pending = s.pending := rfl
@[simp] theorem State.setDir_time (s : State) (v : Dir) : (s.setDir v).time = s.time := rfl
@[simp] theorem State.setDir_tally (s : State) (v : Dir) : (s.setDir v).tally = s.tally := rfl
@[simp] theorem State.setDir_notify (s : State) (v : Dir) : (s.setDir v).notify = s.notify := rfl
@[simp] theorem State.setDir_od (s : State) (v : Dir) : (s.setDir v).od = s.od := rfl
@[simp] theorem State.setDir_funcs (s : State) (v : Dir) : (s.setDir v).funcs = s.funcs := rfl
@[simp] theorem State.setDir_power (s : State) (v : Dir) : (s.setDir v).power = s.power := rfl
@[simp] theorem State.setDir_board (s : State) (v : Dir) : (s.setDir v).board = s.board := rfl
@[simp] theorem State.setDir_cistern (s : State) (v : Dir) : (s.setDir v).cistern = s.cistern := rfl
@[simp] theorem State.setDir_flush (s : State) (v : Dir) : (s.setDir v).flush = s.flush := rfl
@[simp] theorem State.setDir_rooms (s : State) (v : Dir) : (s.setDir v).rooms = s.rooms := rfl
@[simp] theorem State.setDir_adm (s : State) (v : Dir) : (s.setDir v).adm = s.adm := rfl
@[simp] theorem State.setDir_ports (s : State) (v : Dir) : (s.setDir v).ports = s.ports := rfl
@[simp] theorem State.setDir_pages (s : State) (v : Dir) : (s.setDir v).pages = s.pages := rfl
@[simp] theorem State.setDir_tier (s : State) (v : Dir) : (s.setDir v).tier = s.tier := rfl
@[simp] theorem State.setDir_landing (s : State) (v : Dir) : (s.setDir v).landing = s.landing := rfl
@[simp] theorem State.setDir_reqs (s : State) (v : Dir) : (s.setDir v).reqs = s.reqs := rfl
@[simp] theorem State.setDir_stairs (s : State) (v : Dir) : (s.setDir v).stairs = s.stairs := rfl
@[simp] theorem State.setDir_codec (s : State) (v : Dir) : (s.setDir v).codec = s.codec := rfl
@[simp] theorem State.setDir_store (s : State) (v : Dir) : (s.setDir v).store = s.store := rfl
@[simp] theorem State.setDir_retired (s : State) (v : Dir) : (s.setDir v).retired = s.retired := rfl
@[simp] theorem State.setDir_retirements (s : State) (v : Dir) : (s.setDir v).retirements = s.retirements := rfl
@[simp] theorem State.setDir_cellar (s : State) (v : Dir) : (s.setDir v).cellar = s.cellar := rfl
@[simp] theorem State.setDir_shelves (s : State) (v : Dir) : (s.setDir v).shelves = s.shelves := rfl
@[simp] theorem State.setDir_dir (s : State) (v : Dir) : (s.setDir v).dir = v := rfl
@[simp] theorem State.setDir_pubs (s : State) (v : Dir) : (s.setDir v).pubs = s.pubs := rfl
@[simp] theorem State.setDir_integ (s : State) (v : Dir) : (s.setDir v).integ = s.integ := rfl
@[simp] theorem State.setDir_vault (s : State) (v : Dir) : (s.setDir v).vault = s.vault := rfl
@[simp] theorem State.setDir_sec (s : State) (v : Dir) : (s.setDir v).sec = s.sec := rfl
@[simp] theorem State.setDir_start (s : State) (v : Dir) : (s.setDir v).start = s.start := rfl
@[simp] theorem State.setDir_test (s : State) (v : Dir) : (s.setDir v).test = s.test := rfl
@[simp] theorem State.setDir_cores (s : State) (v : Dir) : (s.setDir v).cores = s.cores := rfl
@[simp] theorem State.setDir_out (s : State) (v : Dir) : (s.setDir v).out = s.out := rfl
@[simp] theorem State.setDir_free (s : State) (v : Dir) : (s.setDir v).free = s.free := rfl
@[simp] theorem State.setPubs_pending (s : State) (v : Pubs) : (s.setPubs v).pending = s.pending := rfl
@[simp] theorem State.setPubs_time (s : State) (v : Pubs) : (s.setPubs v).time = s.time := rfl
@[simp] theorem State.setPubs_tally (s : State) (v : Pubs) : (s.setPubs v).tally = s.tally := rfl
@[simp] theorem State.setPubs_notify (s : State) (v : Pubs) : (s.setPubs v).notify = s.notify := rfl
@[simp] theorem State.setPubs_od (s : State) (v : Pubs) : (s.setPubs v).od = s.od := rfl
@[simp] theorem State.setPubs_funcs (s : State) (v : Pubs) : (s.setPubs v).funcs = s.funcs := rfl
@[simp] theorem State.setPubs_power (s : State) (v : Pubs) : (s.setPubs v).power = s.power := rfl
@[simp] theorem State.setPubs_board (s : State) (v : Pubs) : (s.setPubs v).board = s.board := rfl
@[simp] theorem State.setPubs_cistern (s : State) (v : Pubs) : (s.setPubs v).cistern = s.cistern := rfl
@[simp] theorem State.setPubs_flush (s : State) (v : Pubs) : (s.setPubs v).flush = s.flush := rfl
@[simp] theorem State.setPubs_rooms (s : State) (v : Pubs) : (s.setPubs v).rooms = s.rooms := rfl
@[simp] theorem State.setPubs_adm (s : State) (v : Pubs) : (s.setPubs v).adm = s.adm := rfl
@[simp] theorem State.setPubs_ports (s : State) (v : Pubs) : (s.setPubs v).ports = s.ports := rfl
@[simp] theorem State.setPubs_pages (s : State) (v : Pubs) : (s.setPubs v).pages = s.pages := rfl
@[simp] theorem State.setPubs_tier (s : State) (v : Pubs) : (s.setPubs v).tier = s.tier := rfl
@[simp] theorem State.setPubs_landing (s : State) (v : Pubs) : (s.setPubs v).landing = s.landing := rfl
@[simp] theorem State.setPubs_reqs (s : State) (v : Pubs) : (s.setPubs v).reqs = s.reqs := rfl
@[simp] theorem State.setPubs_stairs (s : State) (v : Pubs) : (s.setPubs v).stairs = s.stairs := rfl
@[simp] theorem State.setPubs_codec (s : State) (v : Pubs) : (s.setPubs v).codec = s.codec := rfl
@[simp] theorem State.setPubs_store (s : State) (v : Pubs) : (s.setPubs v).store = s.store := rfl
@[simp] theorem State.setPubs_retired (s : State) (v : Pubs) : (s.setPubs v).retired = s.retired := rfl
@[simp] theorem State.setPubs_retirements (s : State) (v : Pubs) : (s.setPubs v).retirements = s.retirements := rfl
@[simp] theorem State.setPubs_cellar (s : State) (v : Pubs) : (s.setPubs v).cellar = s.cellar := rfl
@[simp] theorem State.setPubs_shelves (s : State) (v : Pubs) : (s.setPubs v).shelves = s.shelves := rfl
@[simp] theorem State.setPubs_dir (s : State) (v : Pubs) : (s.setPubs v).dir = s.dir := rfl
@[simp] theorem State.setPubs_pubs (s : State) (v : Pubs) : (s.setPubs v).pubs = v := rfl
@[simp] theorem State.setPubs_integ (s : State) (v : Pubs) : (s.setPubs v).integ = s.integ := rfl
@[simp] theorem State.setPubs_vault (s : State) (v : Pubs) : (s.setPubs v).vault = s.vault := rfl
@[simp] theorem State.setPubs_sec (s : State) (v : Pubs) : (s.setPubs v).sec = s.sec := rfl
@[simp] theorem State.setPubs_start (s : State) (v : Pubs) : (s.setPubs v).start = s.start := rfl
@[simp] theorem State.setPubs_test (s : State) (v : Pubs) : (s.setPubs v).test = s.test := rfl
@[simp] theorem State.setPubs_cores (s : State) (v : Pubs) : (s.setPubs v).cores = s.cores := rfl
@[simp] theorem State.setPubs_out (s : State) (v : Pubs) : (s.setPubs v).out = s.out := rfl
@[simp] theorem State.setPubs_free (s : State) (v : Pubs) : (s.setPubs v).free = s.free := rfl
@[simp] theorem State.setInteg_pending (s : State) (v : Integ) : (s.setInteg v).pending = s.pending := rfl
@[simp] theorem State.setInteg_time (s : State) (v : Integ) : (s.setInteg v).time = s.time := rfl
@[simp] theorem State.setInteg_tally (s : State) (v : Integ) : (s.setInteg v).tally = s.tally := rfl
@[simp] theorem State.setInteg_notify (s : State) (v : Integ) : (s.setInteg v).notify = s.notify := rfl
@[simp] theorem State.setInteg_od (s : State) (v : Integ) : (s.setInteg v).od = s.od := rfl
@[simp] theorem State.setInteg_funcs (s : State) (v : Integ) : (s.setInteg v).funcs = s.funcs := rfl
@[simp] theorem State.setInteg_power (s : State) (v : Integ) : (s.setInteg v).power = s.power := rfl
@[simp] theorem State.setInteg_board (s : State) (v : Integ) : (s.setInteg v).board = s.board := rfl
@[simp] theorem State.setInteg_cistern (s : State) (v : Integ) : (s.setInteg v).cistern = s.cistern := rfl
@[simp] theorem State.setInteg_flush (s : State) (v : Integ) : (s.setInteg v).flush = s.flush := rfl
@[simp] theorem State.setInteg_rooms (s : State) (v : Integ) : (s.setInteg v).rooms = s.rooms := rfl
@[simp] theorem State.setInteg_adm (s : State) (v : Integ) : (s.setInteg v).adm = s.adm := rfl
@[simp] theorem State.setInteg_ports (s : State) (v : Integ) : (s.setInteg v).ports = s.ports := rfl
@[simp] theorem State.setInteg_pages (s : State) (v : Integ) : (s.setInteg v).pages = s.pages := rfl
@[simp] theorem State.setInteg_tier (s : State) (v : Integ) : (s.setInteg v).tier = s.tier := rfl
@[simp] theorem State.setInteg_landing (s : State) (v : Integ) : (s.setInteg v).landing = s.landing := rfl
@[simp] theorem State.setInteg_reqs (s : State) (v : Integ) : (s.setInteg v).reqs = s.reqs := rfl
@[simp] theorem State.setInteg_stairs (s : State) (v : Integ) : (s.setInteg v).stairs = s.stairs := rfl
@[simp] theorem State.setInteg_codec (s : State) (v : Integ) : (s.setInteg v).codec = s.codec := rfl
@[simp] theorem State.setInteg_store (s : State) (v : Integ) : (s.setInteg v).store = s.store := rfl
@[simp] theorem State.setInteg_retired (s : State) (v : Integ) : (s.setInteg v).retired = s.retired := rfl
@[simp] theorem State.setInteg_retirements (s : State) (v : Integ) : (s.setInteg v).retirements = s.retirements := rfl
@[simp] theorem State.setInteg_cellar (s : State) (v : Integ) : (s.setInteg v).cellar = s.cellar := rfl
@[simp] theorem State.setInteg_shelves (s : State) (v : Integ) : (s.setInteg v).shelves = s.shelves := rfl
@[simp] theorem State.setInteg_dir (s : State) (v : Integ) : (s.setInteg v).dir = s.dir := rfl
@[simp] theorem State.setInteg_pubs (s : State) (v : Integ) : (s.setInteg v).pubs = s.pubs := rfl
@[simp] theorem State.setInteg_integ (s : State) (v : Integ) : (s.setInteg v).integ = v := rfl
@[simp] theorem State.setInteg_vault (s : State) (v : Integ) : (s.setInteg v).vault = s.vault := rfl
@[simp] theorem State.setInteg_sec (s : State) (v : Integ) : (s.setInteg v).sec = s.sec := rfl
@[simp] theorem State.setInteg_start (s : State) (v : Integ) : (s.setInteg v).start = s.start := rfl
@[simp] theorem State.setInteg_test (s : State) (v : Integ) : (s.setInteg v).test = s.test := rfl
@[simp] theorem State.setInteg_cores (s : State) (v : Integ) : (s.setInteg v).cores = s.cores := rfl
@[simp] theorem State.setInteg_out (s : State) (v : Integ) : (s.setInteg v).out = s.out := rfl
@[simp] theorem State.setInteg_free (s : State) (v : Integ) : (s.setInteg v).free = s.free := rfl
@[simp] theorem State.setVault_pending (s : State) (v : Vault) : (s.setVault v).pending = s.pending := rfl
@[simp] theorem State.setVault_time (s : State) (v : Vault) : (s.setVault v).time = s.time := rfl
@[simp] theorem State.setVault_tally (s : State) (v : Vault) : (s.setVault v).tally = s.tally := rfl
@[simp] theorem State.setVault_notify (s : State) (v : Vault) : (s.setVault v).notify = s.notify := rfl
@[simp] theorem State.setVault_od (s : State) (v : Vault) : (s.setVault v).od = s.od := rfl
@[simp] theorem State.setVault_funcs (s : State) (v : Vault) : (s.setVault v).funcs = s.funcs := rfl
@[simp] theorem State.setVault_power (s : State) (v : Vault) : (s.setVault v).power = s.power := rfl
@[simp] theorem State.setVault_board (s : State) (v : Vault) : (s.setVault v).board = s.board := rfl
@[simp] theorem State.setVault_cistern (s : State) (v : Vault) : (s.setVault v).cistern = s.cistern := rfl
@[simp] theorem State.setVault_flush (s : State) (v : Vault) : (s.setVault v).flush = s.flush := rfl
@[simp] theorem State.setVault_rooms (s : State) (v : Vault) : (s.setVault v).rooms = s.rooms := rfl
@[simp] theorem State.setVault_adm (s : State) (v : Vault) : (s.setVault v).adm = s.adm := rfl
@[simp] theorem State.setVault_ports (s : State) (v : Vault) : (s.setVault v).ports = s.ports := rfl
@[simp] theorem State.setVault_pages (s : State) (v : Vault) : (s.setVault v).pages = s.pages := rfl
@[simp] theorem State.setVault_tier (s : State) (v : Vault) : (s.setVault v).tier = s.tier := rfl
@[simp] theorem State.setVault_landing (s : State) (v : Vault) : (s.setVault v).landing = s.landing := rfl
@[simp] theorem State.setVault_reqs (s : State) (v : Vault) : (s.setVault v).reqs = s.reqs := rfl
@[simp] theorem State.setVault_stairs (s : State) (v : Vault) : (s.setVault v).stairs = s.stairs := rfl
@[simp] theorem State.setVault_codec (s : State) (v : Vault) : (s.setVault v).codec = s.codec := rfl
@[simp] theorem State.setVault_store (s : State) (v : Vault) : (s.setVault v).store = s.store := rfl
@[simp] theorem State.setVault_retired (s : State) (v : Vault) : (s.setVault v).retired = s.retired := rfl
@[simp] theorem State.setVault_retirements (s : State) (v : Vault) : (s.setVault v).retirements = s.retirements := rfl
@[simp] theorem State.setVault_cellar (s : State) (v : Vault) : (s.setVault v).cellar = s.cellar := rfl
@[simp] theorem State.setVault_shelves (s : State) (v : Vault) : (s.setVault v).shelves = s.shelves := rfl
@[simp] theorem State.setVault_dir (s : State) (v : Vault) : (s.setVault v).dir = s.dir := rfl
@[simp] theorem State.setVault_pubs (s : State) (v : Vault) : (s.setVault v).pubs = s.pubs := rfl
@[simp] theorem State.setVault_integ (s : State) (v : Vault) : (s.setVault v).integ = s.integ := rfl
@[simp] theorem State.setVault_vault (s : State) (v : Vault) : (s.setVault v).vault = v := rfl
@[simp] theorem State.setVault_sec (s : State) (v : Vault) : (s.setVault v).sec = s.sec := rfl
@[simp] theorem State.setVault_start (s : State) (v : Vault) : (s.setVault v).start = s.start := rfl
@[simp] theorem State.setVault_test (s : State) (v : Vault) : (s.setVault v).test = s.test := rfl
@[simp] theorem State.setVault_cores (s : State) (v : Vault) : (s.setVault v).cores = s.cores := rfl
@[simp] theorem State.setVault_out (s : State) (v : Vault) : (s.setVault v).out = s.out := rfl
@[simp] theorem State.setVault_free (s : State) (v : Vault) : (s.setVault v).free = s.free := rfl
@[simp] theorem State.setSec_pending (s : State) (v : Sec) : (s.setSec v).pending = s.pending := rfl
@[simp] theorem State.setSec_time (s : State) (v : Sec) : (s.setSec v).time = s.time := rfl
@[simp] theorem State.setSec_tally (s : State) (v : Sec) : (s.setSec v).tally = s.tally := rfl
@[simp] theorem State.setSec_notify (s : State) (v : Sec) : (s.setSec v).notify = s.notify := rfl
@[simp] theorem State.setSec_od (s : State) (v : Sec) : (s.setSec v).od = s.od := rfl
@[simp] theorem State.setSec_funcs (s : State) (v : Sec) : (s.setSec v).funcs = s.funcs := rfl
@[simp] theorem State.setSec_power (s : State) (v : Sec) : (s.setSec v).power = s.power := rfl
@[simp] theorem State.setSec_board (s : State) (v : Sec) : (s.setSec v).board = s.board := rfl
@[simp] theorem State.setSec_cistern (s : State) (v : Sec) : (s.setSec v).cistern = s.cistern := rfl
@[simp] theorem State.setSec_flush (s : State) (v : Sec) : (s.setSec v).flush = s.flush := rfl
@[simp] theorem State.setSec_rooms (s : State) (v : Sec) : (s.setSec v).rooms = s.rooms := rfl
@[simp] theorem State.setSec_adm (s : State) (v : Sec) : (s.setSec v).adm = s.adm := rfl
@[simp] theorem State.setSec_ports (s : State) (v : Sec) : (s.setSec v).ports = s.ports := rfl
@[simp] theorem State.setSec_pages (s : State) (v : Sec) : (s.setSec v).pages = s.pages := rfl
@[simp] theorem State.setSec_tier (s : State) (v : Sec) : (s.setSec v).tier = s.tier := rfl
@[simp] theorem State.setSec_landing (s : State) (v : Sec) : (s.setSec v).landing = s.landing := rfl
@[simp] theorem State.setSec_reqs (s : State) (v : Sec) : (s.setSec v).reqs = s.reqs := rfl
@[simp] theorem State.setSec_stairs (s : State) (v : Sec) : (s.setSec v).stairs = s.stairs := rfl
@[simp] theorem State.setSec_codec (s : State) (v : Sec) : (s.setSec v).codec = s.codec := rfl
@[simp] theorem State.setSec_store (s : State) (v : Sec) : (s.setSec v).store = s.store := rfl
@[simp] theorem State.setSec_retired (s : State) (v : Sec) : (s.setSec v).retired = s.retired := rfl
@[simp] theorem State.setSec_retirements (s : State) (v : Sec) : (s.setSec v).retirements = s.retirements := rfl
@[simp] theorem State.setSec_cellar (s : State) (v : Sec) : (s.setSec v).cellar = s.cellar := rfl
@[simp] theorem State.setSec_shelves (s : State) (v : Sec) : (s.setSec v).shelves = s.shelves := rfl
@[simp] theorem State.setSec_dir (s : State) (v : Sec) : (s.setSec v).dir = s.dir := rfl
@[simp] theorem State.setSec_pubs (s : State) (v : Sec) : (s.setSec v).pubs = s.pubs := rfl
@[simp] theorem State.setSec_integ (s : State) (v : Sec) : (s.setSec v).integ = s.integ := rfl
@[simp] theorem State.setSec_vault (s : State) (v : Sec) : (s.setSec v).vault = s.vault := rfl
@[simp] theorem State.setSec_sec (s : State) (v : Sec) : (s.setSec v).sec = v := rfl
@[simp] theorem State.setSec_start (s : State) (v : Sec) : (s.setSec v).start = s.start := rfl
@[simp] theorem State.setSec_test (s : State) (v : Sec) : (s.setSec v).test = s.test := rfl
@[simp] theorem State.setSec_cores (s : State) (v : Sec) : (s.setSec v).cores = s.cores := rfl
@[simp] theorem State.setSec_out (s : State) (v : Sec) : (s.setSec v).out = s.out := rfl
@[simp] theorem State.setSec_free (s : State) (v : Sec) : (s.setSec v).free = s.free := rfl
@[simp] theorem State.setStart_pending (s : State) (v : Start) : (s.setStart v).pending = s.pending := rfl
@[simp] theorem State.setStart_time (s : State) (v : Start) : (s.setStart v).time = s.time := rfl
@[simp] theorem State.setStart_tally (s : State) (v : Start) : (s.setStart v).tally = s.tally := rfl
@[simp] theorem State.setStart_notify (s : State) (v : Start) : (s.setStart v).notify = s.notify := rfl
@[simp] theorem State.setStart_od (s : State) (v : Start) : (s.setStart v).od = s.od := rfl
@[simp] theorem State.setStart_funcs (s : State) (v : Start) : (s.setStart v).funcs = s.funcs := rfl
@[simp] theorem State.setStart_power (s : State) (v : Start) : (s.setStart v).power = s.power := rfl
@[simp] theorem State.setStart_board (s : State) (v : Start) : (s.setStart v).board = s.board := rfl
@[simp] theorem State.setStart_cistern (s : State) (v : Start) : (s.setStart v).cistern = s.cistern := rfl
@[simp] theorem State.setStart_flush (s : State) (v : Start) : (s.setStart v).flush = s.flush := rfl
@[simp] theorem State.setStart_rooms (s : State) (v : Start) : (s.setStart v).rooms = s.rooms := rfl
@[simp] theorem State.setStart_adm (s : State) (v : Start) : (s.setStart v).adm = s.adm := rfl
@[simp] theorem State.setStart_ports (s : State) (v : Start) : (s.setStart v).ports = s.ports := rfl
@[simp] theorem State.setStart_pages (s : State) (v : Start) : (s.setStart v).pages = s.pages := rfl
@[simp] theorem State.setStart_tier (s : State) (v : Start) : (s.setStart v).tier = s.tier := rfl
@[simp] theorem State.setStart_landing (s : State) (v : Start) : (s.setStart v).landing = s.landing := rfl
@[simp] theorem State.setStart_reqs (s : State) (v : Start) : (s.setStart v).reqs = s.reqs := rfl
@[simp] theorem State.setStart_stairs (s : State) (v : Start) : (s.setStart v).stairs = s.stairs := rfl
@[simp] theorem State.setStart_codec (s : State) (v : Start) : (s.setStart v).codec = s.codec := rfl
@[simp] theorem State.setStart_store (s : State) (v : Start) : (s.setStart v).store = s.store := rfl
@[simp] theorem State.setStart_retired (s : State) (v : Start) : (s.setStart v).retired = s.retired := rfl
@[simp] theorem State.setStart_retirements (s : State) (v : Start) : (s.setStart v).retirements = s.retirements := rfl
@[simp] theorem State.setStart_cellar (s : State) (v : Start) : (s.setStart v).cellar = s.cellar := rfl
@[simp] theorem State.setStart_shelves (s : State) (v : Start) : (s.setStart v).shelves = s.shelves := rfl
@[simp] theorem State.setStart_dir (s : State) (v : Start) : (s.setStart v).dir = s.dir := rfl
@[simp] theorem State.setStart_pubs (s : State) (v : Start) : (s.setStart v).pubs = s.pubs := rfl
@[simp] theorem State.setStart_integ (s : State) (v : Start) : (s.setStart v).integ = s.integ := rfl
@[simp] theorem State.setStart_vault (s : State) (v : Start) : (s.setStart v).vault = s.vault := rfl
@[simp] theorem State.setStart_sec (s : State) (v : Start) : (s.setStart v).sec = s.sec := rfl
@[simp] theorem State.setStart_start (s : State) (v : Start) : (s.setStart v).start = v := rfl
@[simp] theorem State.setStart_test (s : State) (v : Start) : (s.setStart v).test = s.test := rfl
@[simp] theorem State.setStart_cores (s : State) (v : Start) : (s.setStart v).cores = s.cores := rfl
@[simp] theorem State.setStart_out (s : State) (v : Start) : (s.setStart v).out = s.out := rfl
@[simp] theorem State.setStart_free (s : State) (v : Start) : (s.setStart v).free = s.free := rfl
@[simp] theorem State.setTest_pending (s : State) (v : SelfTest) : (s.setTest v).pending = s.pending := rfl
@[simp] theorem State.setTest_time (s : State) (v : SelfTest) : (s.setTest v).time = s.time := rfl
@[simp] theorem State.setTest_tally (s : State) (v : SelfTest) : (s.setTest v).tally = s.tally := rfl
@[simp] theorem State.setTest_notify (s : State) (v : SelfTest) : (s.setTest v).notify = s.notify := rfl
@[simp] theorem State.setTest_od (s : State) (v : SelfTest) : (s.setTest v).od = s.od := rfl
@[simp] theorem State.setTest_funcs (s : State) (v : SelfTest) : (s.setTest v).funcs = s.funcs := rfl
@[simp] theorem State.setTest_power (s : State) (v : SelfTest) : (s.setTest v).power = s.power := rfl
@[simp] theorem State.setTest_board (s : State) (v : SelfTest) : (s.setTest v).board = s.board := rfl
@[simp] theorem State.setTest_cistern (s : State) (v : SelfTest) : (s.setTest v).cistern = s.cistern := rfl
@[simp] theorem State.setTest_flush (s : State) (v : SelfTest) : (s.setTest v).flush = s.flush := rfl
@[simp] theorem State.setTest_rooms (s : State) (v : SelfTest) : (s.setTest v).rooms = s.rooms := rfl
@[simp] theorem State.setTest_adm (s : State) (v : SelfTest) : (s.setTest v).adm = s.adm := rfl
@[simp] theorem State.setTest_ports (s : State) (v : SelfTest) : (s.setTest v).ports = s.ports := rfl
@[simp] theorem State.setTest_pages (s : State) (v : SelfTest) : (s.setTest v).pages = s.pages := rfl
@[simp] theorem State.setTest_tier (s : State) (v : SelfTest) : (s.setTest v).tier = s.tier := rfl
@[simp] theorem State.setTest_landing (s : State) (v : SelfTest) : (s.setTest v).landing = s.landing := rfl
@[simp] theorem State.setTest_reqs (s : State) (v : SelfTest) : (s.setTest v).reqs = s.reqs := rfl
@[simp] theorem State.setTest_stairs (s : State) (v : SelfTest) : (s.setTest v).stairs = s.stairs := rfl
@[simp] theorem State.setTest_codec (s : State) (v : SelfTest) : (s.setTest v).codec = s.codec := rfl
@[simp] theorem State.setTest_store (s : State) (v : SelfTest) : (s.setTest v).store = s.store := rfl
@[simp] theorem State.setTest_retired (s : State) (v : SelfTest) : (s.setTest v).retired = s.retired := rfl
@[simp] theorem State.setTest_retirements (s : State) (v : SelfTest) : (s.setTest v).retirements = s.retirements := rfl
@[simp] theorem State.setTest_cellar (s : State) (v : SelfTest) : (s.setTest v).cellar = s.cellar := rfl
@[simp] theorem State.setTest_shelves (s : State) (v : SelfTest) : (s.setTest v).shelves = s.shelves := rfl
@[simp] theorem State.setTest_dir (s : State) (v : SelfTest) : (s.setTest v).dir = s.dir := rfl
@[simp] theorem State.setTest_pubs (s : State) (v : SelfTest) : (s.setTest v).pubs = s.pubs := rfl
@[simp] theorem State.setTest_integ (s : State) (v : SelfTest) : (s.setTest v).integ = s.integ := rfl
@[simp] theorem State.setTest_vault (s : State) (v : SelfTest) : (s.setTest v).vault = s.vault := rfl
@[simp] theorem State.setTest_sec (s : State) (v : SelfTest) : (s.setTest v).sec = s.sec := rfl
@[simp] theorem State.setTest_start (s : State) (v : SelfTest) : (s.setTest v).start = s.start := rfl
@[simp] theorem State.setTest_test (s : State) (v : SelfTest) : (s.setTest v).test = v := rfl
@[simp] theorem State.setTest_cores (s : State) (v : SelfTest) : (s.setTest v).cores = s.cores := rfl
@[simp] theorem State.setTest_out (s : State) (v : SelfTest) : (s.setTest v).out = s.out := rfl
@[simp] theorem State.setTest_free (s : State) (v : SelfTest) : (s.setTest v).free = s.free := rfl
@[simp] theorem State.setCores_pending (s : State) (v : Cores) : (s.setCores v).pending = s.pending := rfl
@[simp] theorem State.setCores_time (s : State) (v : Cores) : (s.setCores v).time = s.time := rfl
@[simp] theorem State.setCores_tally (s : State) (v : Cores) : (s.setCores v).tally = s.tally := rfl
@[simp] theorem State.setCores_notify (s : State) (v : Cores) : (s.setCores v).notify = s.notify := rfl
@[simp] theorem State.setCores_od (s : State) (v : Cores) : (s.setCores v).od = s.od := rfl
@[simp] theorem State.setCores_funcs (s : State) (v : Cores) : (s.setCores v).funcs = s.funcs := rfl
@[simp] theorem State.setCores_power (s : State) (v : Cores) : (s.setCores v).power = s.power := rfl
@[simp] theorem State.setCores_board (s : State) (v : Cores) : (s.setCores v).board = s.board := rfl
@[simp] theorem State.setCores_cistern (s : State) (v : Cores) : (s.setCores v).cistern = s.cistern := rfl
@[simp] theorem State.setCores_flush (s : State) (v : Cores) : (s.setCores v).flush = s.flush := rfl
@[simp] theorem State.setCores_rooms (s : State) (v : Cores) : (s.setCores v).rooms = s.rooms := rfl
@[simp] theorem State.setCores_adm (s : State) (v : Cores) : (s.setCores v).adm = s.adm := rfl
@[simp] theorem State.setCores_ports (s : State) (v : Cores) : (s.setCores v).ports = s.ports := rfl
@[simp] theorem State.setCores_pages (s : State) (v : Cores) : (s.setCores v).pages = s.pages := rfl
@[simp] theorem State.setCores_tier (s : State) (v : Cores) : (s.setCores v).tier = s.tier := rfl
@[simp] theorem State.setCores_landing (s : State) (v : Cores) : (s.setCores v).landing = s.landing := rfl
@[simp] theorem State.setCores_reqs (s : State) (v : Cores) : (s.setCores v).reqs = s.reqs := rfl
@[simp] theorem State.setCores_stairs (s : State) (v : Cores) : (s.setCores v).stairs = s.stairs := rfl
@[simp] theorem State.setCores_codec (s : State) (v : Cores) : (s.setCores v).codec = s.codec := rfl
@[simp] theorem State.setCores_store (s : State) (v : Cores) : (s.setCores v).store = s.store := rfl
@[simp] theorem State.setCores_retired (s : State) (v : Cores) : (s.setCores v).retired = s.retired := rfl
@[simp] theorem State.setCores_retirements (s : State) (v : Cores) : (s.setCores v).retirements = s.retirements := rfl
@[simp] theorem State.setCores_cellar (s : State) (v : Cores) : (s.setCores v).cellar = s.cellar := rfl
@[simp] theorem State.setCores_shelves (s : State) (v : Cores) : (s.setCores v).shelves = s.shelves := rfl
@[simp] theorem State.setCores_dir (s : State) (v : Cores) : (s.setCores v).dir = s.dir := rfl
@[simp] theorem State.setCores_pubs (s : State) (v : Cores) : (s.setCores v).pubs = s.pubs := rfl
@[simp] theorem State.setCores_integ (s : State) (v : Cores) : (s.setCores v).integ = s.integ := rfl
@[simp] theorem State.setCores_vault (s : State) (v : Cores) : (s.setCores v).vault = s.vault := rfl
@[simp] theorem State.setCores_sec (s : State) (v : Cores) : (s.setCores v).sec = s.sec := rfl
@[simp] theorem State.setCores_start (s : State) (v : Cores) : (s.setCores v).start = s.start := rfl
@[simp] theorem State.setCores_test (s : State) (v : Cores) : (s.setCores v).test = s.test := rfl
@[simp] theorem State.setCores_cores (s : State) (v : Cores) : (s.setCores v).cores = v := rfl
@[simp] theorem State.setCores_out (s : State) (v : Cores) : (s.setCores v).out = s.out := rfl
@[simp] theorem State.setCores_free (s : State) (v : Cores) : (s.setCores v).free = s.free := rfl
@[simp] theorem State.setOut_pending (s : State) (v : List Out) : (s.setOut v).pending = s.pending := rfl
@[simp] theorem State.setOut_time (s : State) (v : List Out) : (s.setOut v).time = s.time := rfl
@[simp] theorem State.setOut_tally (s : State) (v : List Out) : (s.setOut v).tally = s.tally := rfl
@[simp] theorem State.setOut_notify (s : State) (v : List Out) : (s.setOut v).notify = s.notify := rfl
@[simp] theorem State.setOut_od (s : State) (v : List Out) : (s.setOut v).od = s.od := rfl
@[simp] theorem State.setOut_funcs (s : State) (v : List Out) : (s.setOut v).funcs = s.funcs := rfl
@[simp] theorem State.setOut_power (s : State) (v : List Out) : (s.setOut v).power = s.power := rfl
@[simp] theorem State.setOut_board (s : State) (v : List Out) : (s.setOut v).board = s.board := rfl
@[simp] theorem State.setOut_cistern (s : State) (v : List Out) : (s.setOut v).cistern = s.cistern := rfl
@[simp] theorem State.setOut_flush (s : State) (v : List Out) : (s.setOut v).flush = s.flush := rfl
@[simp] theorem State.setOut_rooms (s : State) (v : List Out) : (s.setOut v).rooms = s.rooms := rfl
@[simp] theorem State.setOut_adm (s : State) (v : List Out) : (s.setOut v).adm = s.adm := rfl
@[simp] theorem State.setOut_ports (s : State) (v : List Out) : (s.setOut v).ports = s.ports := rfl
@[simp] theorem State.setOut_pages (s : State) (v : List Out) : (s.setOut v).pages = s.pages := rfl
@[simp] theorem State.setOut_tier (s : State) (v : List Out) : (s.setOut v).tier = s.tier := rfl
@[simp] theorem State.setOut_landing (s : State) (v : List Out) : (s.setOut v).landing = s.landing := rfl
@[simp] theorem State.setOut_reqs (s : State) (v : List Out) : (s.setOut v).reqs = s.reqs := rfl
@[simp] theorem State.setOut_stairs (s : State) (v : List Out) : (s.setOut v).stairs = s.stairs := rfl
@[simp] theorem State.setOut_codec (s : State) (v : List Out) : (s.setOut v).codec = s.codec := rfl
@[simp] theorem State.setOut_store (s : State) (v : List Out) : (s.setOut v).store = s.store := rfl
@[simp] theorem State.setOut_retired (s : State) (v : List Out) : (s.setOut v).retired = s.retired := rfl
@[simp] theorem State.setOut_retirements (s : State) (v : List Out) : (s.setOut v).retirements = s.retirements := rfl
@[simp] theorem State.setOut_cellar (s : State) (v : List Out) : (s.setOut v).cellar = s.cellar := rfl
@[simp] theorem State.setOut_shelves (s : State) (v : List Out) : (s.setOut v).shelves = s.shelves := rfl
@[simp] theorem State.setOut_dir (s : State) (v : List Out) : (s.setOut v).dir = s.dir := rfl
@[simp] theorem State.setOut_pubs (s : State) (v : List Out) : (s.setOut v).pubs = s.pubs := rfl
@[simp] theorem State.setOut_integ (s : State) (v : List Out) : (s.setOut v).integ = s.integ := rfl
@[simp] theorem State.setOut_vault (s : State) (v : List Out) : (s.setOut v).vault = s.vault := rfl
@[simp] theorem State.setOut_sec (s : State) (v : List Out) : (s.setOut v).sec = s.sec := rfl
@[simp] theorem State.setOut_start (s : State) (v : List Out) : (s.setOut v).start = s.start := rfl
@[simp] theorem State.setOut_test (s : State) (v : List Out) : (s.setOut v).test = s.test := rfl
@[simp] theorem State.setOut_cores (s : State) (v : List Out) : (s.setOut v).cores = s.cores := rfl
@[simp] theorem State.setOut_out (s : State) (v : List Out) : (s.setOut v).out = v := rfl
@[simp] theorem State.setOut_free (s : State) (v : List Out) : (s.setOut v).free = s.free := rfl
@[simp] theorem State.setFree_pending (s : State) (v : Nat) : (s.setFree v).pending = s.pending := rfl
@[simp] theorem State.setFree_time (s : State) (v : Nat) : (s.setFree v).time = s.time := rfl
@[simp] theorem State.setFree_tally (s : State) (v : Nat) : (s.setFree v).tally = s.tally := rfl
@[simp] theorem State.setFree_notify (s : State) (v : Nat) : (s.setFree v).notify = s.notify := rfl
@[simp] theorem State.setFree_od (s : State) (v : Nat) : (s.setFree v).od = s.od := rfl
@[simp] theorem State.setFree_funcs (s : State) (v : Nat) : (s.setFree v).funcs = s.funcs := rfl
@[simp] theorem State.setFree_power (s : State) (v : Nat) : (s.setFree v).power = s.power := rfl
@[simp] theorem State.setFree_board (s : State) (v : Nat) : (s.setFree v).board = s.board := rfl
@[simp] theorem State.setFree_cistern (s : State) (v : Nat) : (s.setFree v).cistern = s.cistern := rfl
@[simp] theorem State.setFree_flush (s : State) (v : Nat) : (s.setFree v).flush = s.flush := rfl
@[simp] theorem State.setFree_rooms (s : State) (v : Nat) : (s.setFree v).rooms = s.rooms := rfl
@[simp] theorem State.setFree_adm (s : State) (v : Nat) : (s.setFree v).adm = s.adm := rfl
@[simp] theorem State.setFree_ports (s : State) (v : Nat) : (s.setFree v).ports = s.ports := rfl
@[simp] theorem State.setFree_pages (s : State) (v : Nat) : (s.setFree v).pages = s.pages := rfl
@[simp] theorem State.setFree_tier (s : State) (v : Nat) : (s.setFree v).tier = s.tier := rfl
@[simp] theorem State.setFree_landing (s : State) (v : Nat) : (s.setFree v).landing = s.landing := rfl
@[simp] theorem State.setFree_reqs (s : State) (v : Nat) : (s.setFree v).reqs = s.reqs := rfl
@[simp] theorem State.setFree_stairs (s : State) (v : Nat) : (s.setFree v).stairs = s.stairs := rfl
@[simp] theorem State.setFree_codec (s : State) (v : Nat) : (s.setFree v).codec = s.codec := rfl
@[simp] theorem State.setFree_store (s : State) (v : Nat) : (s.setFree v).store = s.store := rfl
@[simp] theorem State.setFree_retired (s : State) (v : Nat) : (s.setFree v).retired = s.retired := rfl
@[simp] theorem State.setFree_retirements (s : State) (v : Nat) : (s.setFree v).retirements = s.retirements := rfl
@[simp] theorem State.setFree_cellar (s : State) (v : Nat) : (s.setFree v).cellar = s.cellar := rfl
@[simp] theorem State.setFree_shelves (s : State) (v : Nat) : (s.setFree v).shelves = s.shelves := rfl
@[simp] theorem State.setFree_dir (s : State) (v : Nat) : (s.setFree v).dir = s.dir := rfl
@[simp] theorem State.setFree_pubs (s : State) (v : Nat) : (s.setFree v).pubs = s.pubs := rfl
@[simp] theorem State.setFree_integ (s : State) (v : Nat) : (s.setFree v).integ = s.integ := rfl
@[simp] theorem State.setFree_vault (s : State) (v : Nat) : (s.setFree v).vault = s.vault := rfl
@[simp] theorem State.setFree_sec (s : State) (v : Nat) : (s.setFree v).sec = s.sec := rfl
@[simp] theorem State.setFree_start (s : State) (v : Nat) : (s.setFree v).start = s.start := rfl
@[simp] theorem State.setFree_test (s : State) (v : Nat) : (s.setFree v).test = s.test := rfl
@[simp] theorem State.setFree_cores (s : State) (v : Nat) : (s.setFree v).cores = s.cores := rfl
@[simp] theorem State.setFree_out (s : State) (v : Nat) : (s.setFree v).out = s.out := rfl
@[simp] theorem State.setFree_free (s : State) (v : Nat) : (s.setFree v).free = v := rfl

end Sys2Proof.Machine
end

