-- ==== Sys2Proof/Laws/Table.lean ====
section
/-!
SUPPORT. Sys2Proof/Laws/Table.lean: reading a table or a byte store after it has been written, and the canonical form.
-/

namespace Sys2Proof.Machine

variable {α : Type}

@[simp] theorem Tbl.find_nil (k : Nat) : Tbl.find ([] : Tbl α) k = none := rfl

@[simp] theorem Tbl.find_put_self (t : Tbl α) (k : Nat) (v : α) : Tbl.find (Tbl.put t k v) k = some v := by
  induction t with
  | nil => simp [Tbl.put, Tbl.find]
  | cons e t ih =>
    obtain ⟨k', w⟩ := e
    simp only [Tbl.put]
    split
    · simp [Tbl.find]
    · split
      · simp [Tbl.find]
      · simp [Tbl.find, *]

theorem Tbl.find_put_ne (t : Tbl α) (k o : Nat) (v : α) (h : o ≠ k) : Tbl.find (Tbl.put t k v) o = Tbl.find t o := by
  induction t with
  | nil => simp [Tbl.put, Tbl.find, h]
  | cons e t ih =>
    obtain ⟨k', w⟩ := e
    simp only [Tbl.put]
    split
    · subst k'; simp [Tbl.find, h]
    · split
      · simp only [Tbl.find, if_neg h]
        split
        · have h1 : ¬ o = k' := by omega
          have h2 : o < k' := by omega
          simp [h1, h2]
        · rfl
      · simp only [Tbl.find]
        split
        · rfl
        · split
          · rfl
          · exact ih

@[simp] theorem Tbl.get_put_self (t : Tbl α) (k : Nat) (v d : α) : Tbl.get (Tbl.put t k v) k d = v := by simp [Tbl.get]

theorem Tbl.get_put_ne (t : Tbl α) (k o : Nat) (v d : α) (h : o ≠ k) : Tbl.get (Tbl.put t k v) o d = Tbl.get t o d := by
  simp [Tbl.get, Tbl.find_put_ne t k o v h]

theorem Tbl.find_del_ne (t : Tbl α) (k o : Nat) (hw : t.wf) (h : o ≠ k) : Tbl.find (Tbl.del t k) o = Tbl.find t o := by
  induction t with
  | nil => rfl
  | cons e t ih =>
    obtain ⟨k', w⟩ := e
    have ht : Tbl.wf t := by cases t with
      | nil => rfl
      | cons e' t => exact (Bool.and_eq_true_iff.mp hw).2
    simp only [Tbl.del]
    split
    · subst k'
      simp only [Tbl.find, if_neg h]
      split
      · next hl =>
        cases t with
        | nil => rfl
        | cons e' t =>
          obtain ⟨k2, w2⟩ := e'
          have h3 : k < k2 := by simpa using (Bool.and_eq_true_iff.mp hw).1
          have h1 : ¬ o = k2 := by omega
          have h2 : o < k2 := by omega
          simp [Tbl.find, h1, h2]
      · rfl
    · split
      · rfl
      · simp only [Tbl.find, ih ht]

/-- Every key of a table lies above a number. -/
theorem Tbl.wf_cons (k : Nat) (v : α) (t : Tbl α) : Tbl.wf ((k, v) :: t) = (t.all (fun e => decide (k < e.1)) && Tbl.wf t) := by
  induction t generalizing k v with
  | nil => rfl
  | cons e t ih =>
    obtain ⟨k', w⟩ := e
    have := ih k' w
    rw [Bool.eq_iff_iff]
    simp only [Tbl.wf, this, List.all_cons, Bool.and_eq_true, decide_eq_true_eq, List.all_eq_true]
    constructor
    · rintro ⟨h1, h2, h3⟩
      exact ⟨⟨h1, fun e he => by have := h2 e he; omega⟩, h2, h3⟩
    · rintro ⟨⟨h1, _⟩, h3⟩
      exact ⟨h1, h3⟩

theorem Tbl.all_put (t : Tbl α) (k m : Nat) (v : α) (h : m < k) (ht : t.all fun e => decide (m < e.1)) :
    (Tbl.put t k v).all (fun e => decide (m < e.1)) := by
  induction t with
  | nil => simp [Tbl.put, h]
  | cons e t ih =>
    obtain ⟨k', w⟩ := e
    simp only [List.all_cons, Bool.and_eq_true, decide_eq_true_eq] at ht
    simp only [Tbl.put]
    split
    · simp only [List.all_cons, Bool.and_eq_true, decide_eq_true_eq]; exact ⟨h, ht.2⟩
    · split
      · simp only [List.all_cons, Bool.and_eq_true, decide_eq_true_eq]; exact ⟨h, ht.1, ht.2⟩
      · simp only [List.all_cons, Bool.and_eq_true, decide_eq_true_eq]; exact ⟨ht.1, ih ht.2⟩

theorem Tbl.all_del (t : Tbl α) (k : Nat) (p : Nat × α → Bool) (ht : t.all p) : (Tbl.del t k).all p := by
  induction t with
  | nil => rfl
  | cons e t ih =>
    obtain ⟨k', w⟩ := e
    simp only [List.all_cons, Bool.and_eq_true] at ht
    simp only [Tbl.del]
    split
    · exact ht.2
    · split
      · simp only [List.all_cons, Bool.and_eq_true]; exact ht
      · simp only [List.all_cons, Bool.and_eq_true]; exact ⟨ht.1, ih ht.2⟩

theorem Tbl.wf_put (t : Tbl α) (k : Nat) (v : α) (h : t.wf) : (Tbl.put t k v).wf := by
  induction t with
  | nil => rfl
  | cons e t ih =>
    obtain ⟨k', w⟩ := e
    rw [Tbl.wf_cons, Bool.and_eq_true] at h
    simp only [Tbl.put]
    split
    · subst k'; rw [Tbl.wf_cons, Bool.and_eq_true]; exact h
    · split
      · next hlt =>
        rw [Tbl.wf_cons, Tbl.wf_cons, Bool.and_eq_true, Bool.and_eq_true]
        refine ⟨?_, h⟩
        simp only [List.all_cons, Bool.and_eq_true, decide_eq_true_eq, List.all_eq_true] at h ⊢
        exact ⟨hlt, fun e he => by have := h.1 e he; omega⟩
      · rw [Tbl.wf_cons, Bool.and_eq_true]
        exact ⟨Tbl.all_put t k k' v (by omega) h.1, ih h.2⟩

theorem Tbl.wf_del (t : Tbl α) (k : Nat) (h : t.wf) : (Tbl.del t k).wf := by
  induction t with
  | nil => rfl
  | cons e t ih =>
    obtain ⟨k', w⟩ := e
    have h' := h
    rw [Tbl.wf_cons, Bool.and_eq_true] at h
    simp only [Tbl.del]
    split
    · exact h.2
    · split
      · exact h'
      · rw [Tbl.wf_cons, Bool.and_eq_true]; exact ⟨Tbl.all_del t k _ h.1, ih h.2⟩

theorem Tbl.all_put_val (t : Tbl α) (k : Nat) (v : α) (p : α → Bool) (hv : p v) (ht : t.all fun e => p e.2) :
    (Tbl.put t k v).all (fun e => p e.2) := by
  induction t with
  | nil => simp [Tbl.put, hv]
  | cons e t ih =>
    obtain ⟨k', w⟩ := e
    simp only [List.all_cons, Bool.and_eq_true] at ht
    simp only [Tbl.put]
    split
    · simp only [List.all_cons, Bool.and_eq_true]; exact ⟨hv, ht.2⟩
    · split
      · simp only [List.all_cons, Bool.and_eq_true]; exact ⟨hv, ht.1, ht.2⟩
      · simp only [List.all_cons, Bool.and_eq_true]; exact ⟨ht.1, ih ht.2⟩

theorem Tbl.find_all (t : Tbl α) (k : Nat) (v : α) (p : α → Bool) (ht : t.all fun e => p e.2) (h : Tbl.find t k = some v) : p v := by
  induction t with
  | nil => simp at h
  | cons e t ih =>
    obtain ⟨k', w⟩ := e
    simp only [List.all_cons, Bool.and_eq_true] at ht
    simp only [Tbl.find] at h
    split at h
    · simp_all
    · split at h
      · simp at h
      · exact ih ht.2 h

/- ## The byte store -/

theorem Tbl.find_above (t : Tbl α) (k : Nat) (h : t.all fun e => decide (k < e.1)) : Tbl.find t k = none := by
  cases t with
  | nil => rfl
  | cons e t =>
    obtain ⟨k', w⟩ := e
    simp only [List.all_cons, Bool.and_eq_true, decide_eq_true_eq] at h
    have h1 : ¬ k = k' := by omega
    simp [Tbl.find, h1, h.1]

theorem Tbl.find_del_self (t : Tbl α) (k : Nat) (hw : t.wf) : Tbl.find (Tbl.del t k) k = none := by
  induction t with
  | nil => rfl
  | cons e t ih =>
    obtain ⟨k', w⟩ := e
    rw [Tbl.wf_cons, Bool.and_eq_true] at hw
    simp only [Tbl.del]
    split
    · subst k'; exact Tbl.find_above t k hw.1
    · split
      · next h1 h2 => simp [Tbl.find, h1, h2]
      · next h1 h2 => simp [Tbl.find, h1, h2, ih hw.2]

theorem Memory.wf_tbl (m : Memory) (h : m.wf) : Tbl.wf m := (Bool.and_eq_true_iff.mp h).1

/-- A write keeps the canonical form. -/
theorem Memory.wf_write (m : Memory) (a : Nat) (b : Byte) (h : m.wf) : (m.write a b).wf := by
  have h' := Bool.and_eq_true_iff.mp h
  unfold Memory.write
  split
  · exact Bool.and_eq_true_iff.mpr ⟨Tbl.wf_del m a h'.1, Tbl.all_del m a _ h'.2⟩
  · next hb => exact Bool.and_eq_true_iff.mpr ⟨Tbl.wf_put m a b h'.1, Tbl.all_put_val m a b (fun v => decide (v ≠ 0)) (by simpa using hb) h'.2⟩

/-- Writing bytes keeps the canonical form. -/
theorem Memory.wf_writeBytes (m : Memory) (a : Nat) (l : List Byte) (h : m.wf) : (m.writeBytes a l).wf := by
  induction l generalizing m a with
  | nil => exact h
  | cons b l ih => exact ih _ _ (Memory.wf_write m a b h)

end Sys2Proof.Machine
end

