-- ==== Sys2Proof/Laws/Ops.lean ====
section
/-!
SUPPORT. Sys2Proof/Laws/Ops.lean: what the shared operations can do, said once: raising an event changes the tally, the notification queues and
what is sent; a response changes its port and what is sent; and the readings of a port, a room, a core and a function word after a write.
-/

namespace Sys2Proof.Machine

variable (s : State)

/- ## Reading after writing -/

theorem State.port_setPort (k o : Nat) (v : Port) : (s.setPort k v).port o = if o = k then v else s.port o := by
  by_cases h : o = k
  · subst h; simp [State.port, State.setPort, Tbl.get_put_self]
  · simp [State.port, State.setPort, h, Tbl.get_put_ne]
@[simp] theorem State.port_setPort_self (k : Nat) (v : Port) : (s.setPort k v).port k = v := by simp [State.port_setPort]
@[simp] theorem State.port_updPort_self (k : Nat) (f : Port → Port) : (s.updPort k f).port k = f (s.port k) := by
  simp [State.updPort]
theorem State.port_updPort_ne (k o : Nat) (f : Port → Port) (h : o ≠ k) : (s.updPort k f).port o = s.port o := by
  simp [State.updPort, State.port_setPort, h]

theorem State.room_setRoom (k o : Nat) (v : Room) : (s.setRoom k v).room o = if o = k then v else s.room o := by
  by_cases h : o = k
  · subst h; simp [State.room, State.setRoom, Tbl.get_put_self]
  · simp [State.room, State.setRoom, h, Tbl.get_put_ne]
@[simp] theorem State.room_setRoom_self (k : Nat) (v : Room) : (s.setRoom k v).room k = v := by simp [State.room_setRoom]
@[simp] theorem State.room_updRoom_self (k : Nat) (f : Room → Room) : (s.updRoom k f).room k = f (s.room k) := by
  simp [State.updRoom]
theorem State.room_updRoom_ne (k o : Nat) (f : Room → Room) (h : o ≠ k) : (s.updRoom k f).room o = s.room o := by
  simp [State.updRoom, State.room_setRoom, h]

theorem State.core_setCore (k o : Nat) (v : Core) : (s.setCore k v).core o = if o = k then v else s.core o := by
  by_cases h : o = k
  · subst h; simp [State.core, State.setCore, Tbl.get_put_self]
  · simp [State.core, State.setCore, h, Tbl.get_put_ne]
@[simp] theorem State.core_setCore_self (k : Nat) (v : Core) : (s.setCore k v).core k = v := by simp [State.core_setCore]
@[simp] theorem State.core_updCore_self (k : Nat) (f : Core → Core) : (s.updCore k f).core k = f (s.core k) := by
  simp [State.updCore]
theorem State.core_updCore_ne (k o : Nat) (f : Core → Core) (h : o ≠ k) : (s.updCore k f).core o = s.core o := by
  simp [State.updCore, State.core_setCore, h]

/- ## What each leaves -/

@[simp] theorem State.setPort_pending (k : Nat) (v : Port) : (s.setPort k v).pending = s.pending := rfl
@[simp] theorem State.setPort_time (k : Nat) (v : Port) : (s.setPort k v).time = s.time := rfl
@[simp] theorem State.setPort_tally (k : Nat) (v : Port) : (s.setPort k v).tally = s.tally := rfl
@[simp] theorem State.setPort_notify (k : Nat) (v : Port) : (s.setPort k v).notify = s.notify := rfl
@[simp] theorem State.setPort_od (k : Nat) (v : Port) : (s.setPort k v).od = s.od := rfl
@[simp] theorem State.setPort_funcs (k : Nat) (v : Port) : (s.setPort k v).funcs = s.funcs := rfl
@[simp] theorem State.setPort_power (k : Nat) (v : Port) : (s.setPort k v).power = s.power := rfl
@[simp] theorem State.setPort_board (k : Nat) (v : Port) : (s.setPort k v).board = s.board := rfl
@[simp] theorem State.setPort_cistern (k : Nat) (v : Port) : (s.setPort k v).cistern = s.cistern := rfl
@[simp] theorem State.setPort_flush (k : Nat) (v : Port) : (s.setPort k v).flush = s.flush := rfl
@[simp] theorem State.setPort_rooms (k : Nat) (v : Port) : (s.setPort k v).rooms = s.rooms := rfl
@[simp] theorem State.setPort_adm (k : Nat) (v : Port) : (s.setPort k v).adm = s.adm := rfl
@[simp] theorem State.setPort_pages (k : Nat) (v : Port) : (s.setPort k v).pages = s.pages := rfl
@[simp] theorem State.setPort_tier (k : Nat) (v : Port) : (s.setPort k v).tier = s.tier := rfl
@[simp] theorem State.setPort_landing (k : Nat) (v : Port) : (s.setPort k v).landing = s.landing := rfl
@[simp] theorem State.setPort_reqs (k : Nat) (v : Port) : (s.setPort k v).reqs = s.reqs := rfl
@[simp] theorem State.setPort_stairs (k : Nat) (v : Port) : (s.setPort k v).stairs = s.stairs := rfl
@[simp] theorem State.setPort_codec (k : Nat) (v : Port) : (s.setPort k v).codec = s.codec := rfl
@[simp] theorem State.setPort_store (k : Nat) (v : Port) : (s.setPort k v).store = s.store := rfl
@[simp] theorem State.setPort_retired (k : Nat) (v : Port) : (s.setPort k v).retired = s.retired := rfl
@[simp] theorem State.setPort_retirements (k : Nat) (v : Port) : (s.setPort k v).retirements = s.retirements := rfl
@[simp] theorem State.setPort_cellar (k : Nat) (v : Port) : (s.setPort k v).cellar = s.cellar := rfl
@[simp] theorem State.setPort_shelves (k : Nat) (v : Port) : (s.setPort k v).shelves = s.shelves := rfl
@[simp] theorem State.setPort_dir (k : Nat) (v : Port) : (s.setPort k v).dir = s.dir := rfl
@[simp] theorem State.setPort_pubs (k : Nat) (v : Port) : (s.setPort k v).pubs = s.pubs := rfl
@[simp] theorem State.setPort_integ (k : Nat) (v : Port) : (s.setPort k v).integ = s.integ := rfl
@[simp] theorem State.setPort_vault (k : Nat) (v : Port) : (s.setPort k v).vault = s.vault := rfl
@[simp] theorem State.setPort_sec (k : Nat) (v : Port) : (s.setPort k v).sec = s.sec := rfl
@[simp] theorem State.setPort_start (k : Nat) (v : Port) : (s.setPort k v).start = s.start := rfl
@[simp] theorem State.setPort_test (k : Nat) (v : Port) : (s.setPort k v).test = s.test := rfl
@[simp] theorem State.setPort_cores (k : Nat) (v : Port) : (s.setPort k v).cores = s.cores := rfl
@[simp] theorem State.setPort_out (k : Nat) (v : Port) : (s.setPort k v).out = s.out := rfl
@[simp] theorem State.setPort_free (k : Nat) (v : Port) : (s.setPort k v).free = s.free := rfl

@[simp] theorem State.updPort_pending (k : Nat) (f : Port → Port) : (s.updPort k f).pending = s.pending := rfl
@[simp] theorem State.updPort_time (k : Nat) (f : Port → Port) : (s.updPort k f).time = s.time := rfl
@[simp] theorem State.updPort_tally (k : Nat) (f : Port → Port) : (s.updPort k f).tally = s.tally := rfl
@[simp] theorem State.updPort_notify (k : Nat) (f : Port → Port) : (s.updPort k f).notify = s.notify := rfl
@[simp] theorem State.updPort_od (k : Nat) (f : Port → Port) : (s.updPort k f).od = s.od := rfl
@[simp] theorem State.updPort_funcs (k : Nat) (f : Port → Port) : (s.updPort k f).funcs = s.funcs := rfl
@[simp] theorem State.updPort_power (k : Nat) (f : Port → Port) : (s.updPort k f).power = s.power := rfl
@[simp] theorem State.updPort_board (k : Nat) (f : Port → Port) : (s.updPort k f).board = s.board := rfl
@[simp] theorem State.updPort_cistern (k : Nat) (f : Port → Port) : (s.updPort k f).cistern = s.cistern := rfl
@[simp] theorem State.updPort_flush (k : Nat) (f : Port → Port) : (s.updPort k f).flush = s.flush := rfl
@[simp] theorem State.updPort_rooms (k : Nat) (f : Port → Port) : (s.updPort k f).rooms = s.rooms := rfl
@[simp] theorem State.updPort_adm (k : Nat) (f : Port → Port) : (s.updPort k f).adm = s.adm := rfl
@[simp] theorem State.updPort_pages (k : Nat) (f : Port → Port) : (s.updPort k f).pages = s.pages := rfl
@[simp] theorem State.updPort_tier (k : Nat) (f : Port → Port) : (s.updPort k f).tier = s.tier := rfl
@[simp] theorem State.updPort_landing (k : Nat) (f : Port → Port) : (s.updPort k f).landing = s.landing := rfl
@[simp] theorem State.updPort_reqs (k : Nat) (f : Port → Port) : (s.updPort k f).reqs = s.reqs := rfl
@[simp] theorem State.updPort_stairs (k : Nat) (f : Port → Port) : (s.updPort k f).stairs = s.stairs := rfl
@[simp] theorem State.updPort_codec (k : Nat) (f : Port → Port) : (s.updPort k f).codec = s.codec := rfl
@[simp] theorem State.updPort_store (k : Nat) (f : Port → Port) : (s.updPort k f).store = s.store := rfl
@[simp] theorem State.updPort_retired (k : Nat) (f : Port → Port) : (s.updPort k f).retired = s.retired := rfl
@[simp] theorem State.updPort_retirements (k : Nat) (f : Port → Port) : (s.updPort k f).retirements = s.retirements := rfl
@[simp] theorem State.updPort_cellar (k : Nat) (f : Port → Port) : (s.updPort k f).cellar = s.cellar := rfl
@[simp] theorem State.updPort_shelves (k : Nat) (f : Port → Port) : (s.updPort k f).shelves = s.shelves := rfl
@[simp] theorem State.updPort_dir (k : Nat) (f : Port → Port) : (s.updPort k f).dir = s.dir := rfl
@[simp] theorem State.updPort_pubs (k : Nat) (f : Port → Port) : (s.updPort k f).pubs = s.pubs := rfl
@[simp] theorem State.updPort_integ (k : Nat) (f : Port → Port) : (s.updPort k f).integ = s.integ := rfl
@[simp] theorem State.updPort_vault (k : Nat) (f : Port → Port) : (s.updPort k f).vault = s.vault := rfl
@[simp] theorem State.updPort_sec (k : Nat) (f : Port → Port) : (s.updPort k f).sec = s.sec := rfl
@[simp] theorem State.updPort_start (k : Nat) (f : Port → Port) : (s.updPort k f).start = s.start := rfl
@[simp] theorem State.updPort_test (k : Nat) (f : Port → Port) : (s.updPort k f).test = s.test := rfl
@[simp] theorem State.updPort_cores (k : Nat) (f : Port → Port) : (s.updPort k f).cores = s.cores := rfl
@[simp] theorem State.updPort_out (k : Nat) (f : Port → Port) : (s.updPort k f).out = s.out := rfl
@[simp] theorem State.updPort_free (k : Nat) (f : Port → Port) : (s.updPort k f).free = s.free := rfl

@[simp] theorem State.setPage_pending (k : Nat) (v : Page) : (s.setPage k v).pending = s.pending := rfl
@[simp] theorem State.setPage_time (k : Nat) (v : Page) : (s.setPage k v).time = s.time := rfl
@[simp] theorem State.setPage_tally (k : Nat) (v : Page) : (s.setPage k v).tally = s.tally := rfl
@[simp] theorem State.setPage_notify (k : Nat) (v : Page) : (s.setPage k v).notify = s.notify := rfl
@[simp] theorem State.setPage_od (k : Nat) (v : Page) : (s.setPage k v).od = s.od := rfl
@[simp] theorem State.setPage_funcs (k : Nat) (v : Page) : (s.setPage k v).funcs = s.funcs := rfl
@[simp] theorem State.setPage_power (k : Nat) (v : Page) : (s.setPage k v).power = s.power := rfl
@[simp] theorem State.setPage_board (k : Nat) (v : Page) : (s.setPage k v).board = s.board := rfl
@[simp] theorem State.setPage_cistern (k : Nat) (v : Page) : (s.setPage k v).cistern = s.cistern := rfl
@[simp] theorem State.setPage_flush (k : Nat) (v : Page) : (s.setPage k v).flush = s.flush := rfl
@[simp] theorem State.setPage_rooms (k : Nat) (v : Page) : (s.setPage k v).rooms = s.rooms := rfl
@[simp] theorem State.setPage_adm (k : Nat) (v : Page) : (s.setPage k v).adm = s.adm := rfl
@[simp] theorem State.setPage_ports (k : Nat) (v : Page) : (s.setPage k v).ports = s.ports := rfl
@[simp] theorem State.setPage_tier (k : Nat) (v : Page) : (s.setPage k v).tier = s.tier := rfl
@[simp] theorem State.setPage_landing (k : Nat) (v : Page) : (s.setPage k v).landing = s.landing := rfl
@[simp] theorem State.setPage_reqs (k : Nat) (v : Page) : (s.setPage k v).reqs = s.reqs := rfl
@[simp] theorem State.setPage_stairs (k : Nat) (v : Page) : (s.setPage k v).stairs = s.stairs := rfl
@[simp] theorem State.setPage_codec (k : Nat) (v : Page) : (s.setPage k v).codec = s.codec := rfl
@[simp] theorem State.setPage_store (k : Nat) (v : Page) : (s.setPage k v).store = s.store := rfl
@[simp] theorem State.setPage_retired (k : Nat) (v : Page) : (s.setPage k v).retired = s.retired := rfl
@[simp] theorem State.setPage_retirements (k : Nat) (v : Page) : (s.setPage k v).retirements = s.retirements := rfl
@[simp] theorem State.setPage_cellar (k : Nat) (v : Page) : (s.setPage k v).cellar = s.cellar := rfl
@[simp] theorem State.setPage_shelves (k : Nat) (v : Page) : (s.setPage k v).shelves = s.shelves := rfl
@[simp] theorem State.setPage_dir (k : Nat) (v : Page) : (s.setPage k v).dir = s.dir := rfl
@[simp] theorem State.setPage_pubs (k : Nat) (v : Page) : (s.setPage k v).pubs = s.pubs := rfl
@[simp] theorem State.setPage_integ (k : Nat) (v : Page) : (s.setPage k v).integ = s.integ := rfl
@[simp] theorem State.setPage_vault (k : Nat) (v : Page) : (s.setPage k v).vault = s.vault := rfl
@[simp] theorem State.setPage_sec (k : Nat) (v : Page) : (s.setPage k v).sec = s.sec := rfl
@[simp] theorem State.setPage_start (k : Nat) (v : Page) : (s.setPage k v).start = s.start := rfl
@[simp] theorem State.setPage_test (k : Nat) (v : Page) : (s.setPage k v).test = s.test := rfl
@[simp] theorem State.setPage_cores (k : Nat) (v : Page) : (s.setPage k v).cores = s.cores := rfl
@[simp] theorem State.setPage_out (k : Nat) (v : Page) : (s.setPage k v).out = s.out := rfl
@[simp] theorem State.setPage_free (k : Nat) (v : Page) : (s.setPage k v).free = s.free := rfl

@[simp] theorem State.updPage_pending (k : Nat) (f : Page → Page) : (s.updPage k f).pending = s.pending := rfl
@[simp] theorem State.updPage_time (k : Nat) (f : Page → Page) : (s.updPage k f).time = s.time := rfl
@[simp] theorem State.updPage_tally (k : Nat) (f : Page → Page) : (s.updPage k f).tally = s.tally := rfl
@[simp] theorem State.updPage_notify (k : Nat) (f : Page → Page) : (s.updPage k f).notify = s.notify := rfl
@[simp] theorem State.updPage_od (k : Nat) (f : Page → Page) : (s.updPage k f).od = s.od := rfl
@[simp] theorem State.updPage_funcs (k : Nat) (f : Page → Page) : (s.updPage k f).funcs = s.funcs := rfl
@[simp] theorem State.updPage_power (k : Nat) (f : Page → Page) : (s.updPage k f).power = s.power := rfl
@[simp] theorem State.updPage_board (k : Nat) (f : Page → Page) : (s.updPage k f).board = s.board := rfl
@[simp] theorem State.updPage_cistern (k : Nat) (f : Page → Page) : (s.updPage k f).cistern = s.cistern := rfl
@[simp] theorem State.updPage_flush (k : Nat) (f : Page → Page) : (s.updPage k f).flush = s.flush := rfl
@[simp] theorem State.updPage_rooms (k : Nat) (f : Page → Page) : (s.updPage k f).rooms = s.rooms := rfl
@[simp] theorem State.updPage_adm (k : Nat) (f : Page → Page) : (s.updPage k f).adm = s.adm := rfl
@[simp] theorem State.updPage_ports (k : Nat) (f : Page → Page) : (s.updPage k f).ports = s.ports := rfl
@[simp] theorem State.updPage_tier (k : Nat) (f : Page → Page) : (s.updPage k f).tier = s.tier := rfl
@[simp] theorem State.updPage_landing (k : Nat) (f : Page → Page) : (s.updPage k f).landing = s.landing := rfl
@[simp] theorem State.updPage_reqs (k : Nat) (f : Page → Page) : (s.updPage k f).reqs = s.reqs := rfl
@[simp] theorem State.updPage_stairs (k : Nat) (f : Page → Page) : (s.updPage k f).stairs = s.stairs := rfl
@[simp] theorem State.updPage_codec (k : Nat) (f : Page → Page) : (s.updPage k f).codec = s.codec := rfl
@[simp] theorem State.updPage_store (k : Nat) (f : Page → Page) : (s.updPage k f).store = s.store := rfl
@[simp] theorem State.updPage_retired (k : Nat) (f : Page → Page) : (s.updPage k f).retired = s.retired := rfl
@[simp] theorem State.updPage_retirements (k : Nat) (f : Page → Page) : (s.updPage k f).retirements = s.retirements := rfl
@[simp] theorem State.updPage_cellar (k : Nat) (f : Page → Page) : (s.updPage k f).cellar = s.cellar := rfl
@[simp] theorem State.updPage_shelves (k : Nat) (f : Page → Page) : (s.updPage k f).shelves = s.shelves := rfl
@[simp] theorem State.updPage_dir (k : Nat) (f : Page → Page) : (s.updPage k f).dir = s.dir := rfl
@[simp] theorem State.updPage_pubs (k : Nat) (f : Page → Page) : (s.updPage k f).pubs = s.pubs := rfl
@[simp] theorem State.updPage_integ (k : Nat) (f : Page → Page) : (s.updPage k f).integ = s.integ := rfl
@[simp] theorem State.updPage_vault (k : Nat) (f : Page → Page) : (s.updPage k f).vault = s.vault := rfl
@[simp] theorem State.updPage_sec (k : Nat) (f : Page → Page) : (s.updPage k f).sec = s.sec := rfl
@[simp] theorem State.updPage_start (k : Nat) (f : Page → Page) : (s.updPage k f).start = s.start := rfl
@[simp] theorem State.updPage_test (k : Nat) (f : Page → Page) : (s.updPage k f).test = s.test := rfl
@[simp] theorem State.updPage_cores (k : Nat) (f : Page → Page) : (s.updPage k f).cores = s.cores := rfl
@[simp] theorem State.updPage_out (k : Nat) (f : Page → Page) : (s.updPage k f).out = s.out := rfl
@[simp] theorem State.updPage_free (k : Nat) (f : Page → Page) : (s.updPage k f).free = s.free := rfl

@[simp] theorem State.setRoom_pending (k : Nat) (v : Room) : (s.setRoom k v).pending = s.pending := rfl
@[simp] theorem State.setRoom_time (k : Nat) (v : Room) : (s.setRoom k v).time = s.time := rfl
@[simp] theorem State.setRoom_tally (k : Nat) (v : Room) : (s.setRoom k v).tally = s.tally := rfl
@[simp] theorem State.setRoom_notify (k : Nat) (v : Room) : (s.setRoom k v).notify = s.notify := rfl
@[simp] theorem State.setRoom_od (k : Nat) (v : Room) : (s.setRoom k v).od = s.od := rfl
@[simp] theorem State.setRoom_funcs (k : Nat) (v : Room) : (s.setRoom k v).funcs = s.funcs := rfl
@[simp] theorem State.setRoom_power (k : Nat) (v : Room) : (s.setRoom k v).power = s.power := rfl
@[simp] theorem State.setRoom_board (k : Nat) (v : Room) : (s.setRoom k v).board = s.board := rfl
@[simp] theorem State.setRoom_cistern (k : Nat) (v : Room) : (s.setRoom k v).cistern = s.cistern := rfl
@[simp] theorem State.setRoom_flush (k : Nat) (v : Room) : (s.setRoom k v).flush = s.flush := rfl
@[simp] theorem State.setRoom_adm (k : Nat) (v : Room) : (s.setRoom k v).adm = s.adm := rfl
@[simp] theorem State.setRoom_ports (k : Nat) (v : Room) : (s.setRoom k v).ports = s.ports := rfl
@[simp] theorem State.setRoom_pages (k : Nat) (v : Room) : (s.setRoom k v).pages = s.pages := rfl
@[simp] theorem State.setRoom_tier (k : Nat) (v : Room) : (s.setRoom k v).tier = s.tier := rfl
@[simp] theorem State.setRoom_landing (k : Nat) (v : Room) : (s.setRoom k v).landing = s.landing := rfl
@[simp] theorem State.setRoom_reqs (k : Nat) (v : Room) : (s.setRoom k v).reqs = s.reqs := rfl
@[simp] theorem State.setRoom_stairs (k : Nat) (v : Room) : (s.setRoom k v).stairs = s.stairs := rfl
@[simp] theorem State.setRoom_codec (k : Nat) (v : Room) : (s.setRoom k v).codec = s.codec := rfl
@[simp] theorem State.setRoom_store (k : Nat) (v : Room) : (s.setRoom k v).store = s.store := rfl
@[simp] theorem State.setRoom_retired (k : Nat) (v : Room) : (s.setRoom k v).retired = s.retired := rfl
@[simp] theorem State.setRoom_retirements (k : Nat) (v : Room) : (s.setRoom k v).retirements = s.retirements := rfl
@[simp] theorem State.setRoom_cellar (k : Nat) (v : Room) : (s.setRoom k v).cellar = s.cellar := rfl
@[simp] theorem State.setRoom_shelves (k : Nat) (v : Room) : (s.setRoom k v).shelves = s.shelves := rfl
@[simp] theorem State.setRoom_dir (k : Nat) (v : Room) : (s.setRoom k v).dir = s.dir := rfl
@[simp] theorem State.setRoom_pubs (k : Nat) (v : Room) : (s.setRoom k v).pubs = s.pubs := rfl
@[simp] theorem State.setRoom_integ (k : Nat) (v : Room) : (s.setRoom k v).integ = s.integ := rfl
@[simp] theorem State.setRoom_vault (k : Nat) (v : Room) : (s.setRoom k v).vault = s.vault := rfl
@[simp] theorem State.setRoom_sec (k : Nat) (v : Room) : (s.setRoom k v).sec = s.sec := rfl
@[simp] theorem State.setRoom_start (k : Nat) (v : Room) : (s.setRoom k v).start = s.start := rfl
@[simp] theorem State.setRoom_test (k : Nat) (v : Room) : (s.setRoom k v).test = s.test := rfl
@[simp] theorem State.setRoom_cores (k : Nat) (v : Room) : (s.setRoom k v).cores = s.cores := rfl
@[simp] theorem State.setRoom_out (k : Nat) (v : Room) : (s.setRoom k v).out = s.out := rfl
@[simp] theorem State.setRoom_free (k : Nat) (v : Room) : (s.setRoom k v).free = s.free := rfl

@[simp] theorem State.updRoom_pending (k : Nat) (f : Room → Room) : (s.updRoom k f).pending = s.pending := rfl
@[simp] theorem State.updRoom_time (k : Nat) (f : Room → Room) : (s.updRoom k f).time = s.time := rfl
@[simp] theorem State.updRoom_tally (k : Nat) (f : Room → Room) : (s.updRoom k f).tally = s.tally := rfl
@[simp] theorem State.updRoom_notify (k : Nat) (f : Room → Room) : (s.updRoom k f).notify = s.notify := rfl
@[simp] theorem State.updRoom_od (k : Nat) (f : Room → Room) : (s.updRoom k f).od = s.od := rfl
@[simp] theorem State.updRoom_funcs (k : Nat) (f : Room → Room) : (s.updRoom k f).funcs = s.funcs := rfl
@[simp] theorem State.updRoom_power (k : Nat) (f : Room → Room) : (s.updRoom k f).power = s.power := rfl
@[simp] theorem State.updRoom_board (k : Nat) (f : Room → Room) : (s.updRoom k f).board = s.board := rfl
@[simp] theorem State.updRoom_cistern (k : Nat) (f : Room → Room) : (s.updRoom k f).cistern = s.cistern := rfl
@[simp] theorem State.updRoom_flush (k : Nat) (f : Room → Room) : (s.updRoom k f).flush = s.flush := rfl
@[simp] theorem State.updRoom_adm (k : Nat) (f : Room → Room) : (s.updRoom k f).adm = s.adm := rfl
@[simp] theorem State.updRoom_ports (k : Nat) (f : Room → Room) : (s.updRoom k f).ports = s.ports := rfl
@[simp] theorem State.updRoom_pages (k : Nat) (f : Room → Room) : (s.updRoom k f).pages = s.pages := rfl
@[simp] theorem State.updRoom_tier (k : Nat) (f : Room → Room) : (s.updRoom k f).tier = s.tier := rfl
@[simp] theorem State.updRoom_landing (k : Nat) (f : Room → Room) : (s.updRoom k f).landing = s.landing := rfl
@[simp] theorem State.updRoom_reqs (k : Nat) (f : Room → Room) : (s.updRoom k f).reqs = s.reqs := rfl
@[simp] theorem State.updRoom_stairs (k : Nat) (f : Room → Room) : (s.updRoom k f).stairs = s.stairs := rfl
@[simp] theorem State.updRoom_codec (k : Nat) (f : Room → Room) : (s.updRoom k f).codec = s.codec := rfl
@[simp] theorem State.updRoom_store (k : Nat) (f : Room → Room) : (s.updRoom k f).store = s.store := rfl
@[simp] theorem State.updRoom_retired (k : Nat) (f : Room → Room) : (s.updRoom k f).retired = s.retired := rfl
@[simp] theorem State.updRoom_retirements (k : Nat) (f : Room → Room) : (s.updRoom k f).retirements = s.retirements := rfl
@[simp] theorem State.updRoom_cellar (k : Nat) (f : Room → Room) : (s.updRoom k f).cellar = s.cellar := rfl
@[simp] theorem State.updRoom_shelves (k : Nat) (f : Room → Room) : (s.updRoom k f).shelves = s.shelves := rfl
@[simp] theorem State.updRoom_dir (k : Nat) (f : Room → Room) : (s.updRoom k f).dir = s.dir := rfl
@[simp] theorem State.updRoom_pubs (k : Nat) (f : Room → Room) : (s.updRoom k f).pubs = s.pubs := rfl
@[simp] theorem State.updRoom_integ (k : Nat) (f : Room → Room) : (s.updRoom k f).integ = s.integ := rfl
@[simp] theorem State.updRoom_vault (k : Nat) (f : Room → Room) : (s.updRoom k f).vault = s.vault := rfl
@[simp] theorem State.updRoom_sec (k : Nat) (f : Room → Room) : (s.updRoom k f).sec = s.sec := rfl
@[simp] theorem State.updRoom_start (k : Nat) (f : Room → Room) : (s.updRoom k f).start = s.start := rfl
@[simp] theorem State.updRoom_test (k : Nat) (f : Room → Room) : (s.updRoom k f).test = s.test := rfl
@[simp] theorem State.updRoom_cores (k : Nat) (f : Room → Room) : (s.updRoom k f).cores = s.cores := rfl
@[simp] theorem State.updRoom_out (k : Nat) (f : Room → Room) : (s.updRoom k f).out = s.out := rfl
@[simp] theorem State.updRoom_free (k : Nat) (f : Room → Room) : (s.updRoom k f).free = s.free := rfl

@[simp] theorem State.setCore_pending (k : Nat) (v : Core) : (s.setCore k v).pending = s.pending := rfl
@[simp] theorem State.setCore_time (k : Nat) (v : Core) : (s.setCore k v).time = s.time := rfl
@[simp] theorem State.setCore_tally (k : Nat) (v : Core) : (s.setCore k v).tally = s.tally := rfl
@[simp] theorem State.setCore_notify (k : Nat) (v : Core) : (s.setCore k v).notify = s.notify := rfl
@[simp] theorem State.setCore_od (k : Nat) (v : Core) : (s.setCore k v).od = s.od := rfl
@[simp] theorem State.setCore_funcs (k : Nat) (v : Core) : (s.setCore k v).funcs = s.funcs := rfl
@[simp] theorem State.setCore_power (k : Nat) (v : Core) : (s.setCore k v).power = s.power := rfl
@[simp] theorem State.setCore_board (k : Nat) (v : Core) : (s.setCore k v).board = s.board := rfl
@[simp] theorem State.setCore_cistern (k : Nat) (v : Core) : (s.setCore k v).cistern = s.cistern := rfl
@[simp] theorem State.setCore_flush (k : Nat) (v : Core) : (s.setCore k v).flush = s.flush := rfl
@[simp] theorem State.setCore_rooms (k : Nat) (v : Core) : (s.setCore k v).rooms = s.rooms := rfl
@[simp] theorem State.setCore_adm (k : Nat) (v : Core) : (s.setCore k v).adm = s.adm := rfl
@[simp] theorem State.setCore_ports (k : Nat) (v : Core) : (s.setCore k v).ports = s.ports := rfl
@[simp] theorem State.setCore_pages (k : Nat) (v : Core) : (s.setCore k v).pages = s.pages := rfl
@[simp] theorem State.setCore_tier (k : Nat) (v : Core) : (s.setCore k v).tier = s.tier := rfl
@[simp] theorem State.setCore_landing (k : Nat) (v : Core) : (s.setCore k v).landing = s.landing := rfl
@[simp] theorem State.setCore_reqs (k : Nat) (v : Core) : (s.setCore k v).reqs = s.reqs := rfl
@[simp] theorem State.setCore_stairs (k : Nat) (v : Core) : (s.setCore k v).stairs = s.stairs := rfl
@[simp] theorem State.setCore_codec (k : Nat) (v : Core) : (s.setCore k v).codec = s.codec := rfl
@[simp] theorem State.setCore_store (k : Nat) (v : Core) : (s.setCore k v).store = s.store := rfl
@[simp] theorem State.setCore_retired (k : Nat) (v : Core) : (s.setCore k v).retired = s.retired := rfl
@[simp] theorem State.setCore_retirements (k : Nat) (v : Core) : (s.setCore k v).retirements = s.retirements := rfl
@[simp] theorem State.setCore_cellar (k : Nat) (v : Core) : (s.setCore k v).cellar = s.cellar := rfl
@[simp] theorem State.setCore_shelves (k : Nat) (v : Core) : (s.setCore k v).shelves = s.shelves := rfl
@[simp] theorem State.setCore_dir (k : Nat) (v : Core) : (s.setCore k v).dir = s.dir := rfl
@[simp] theorem State.setCore_pubs (k : Nat) (v : Core) : (s.setCore k v).pubs = s.pubs := rfl
@[simp] theorem State.setCore_integ (k : Nat) (v : Core) : (s.setCore k v).integ = s.integ := rfl
@[simp] theorem State.setCore_vault (k : Nat) (v : Core) : (s.setCore k v).vault = s.vault := rfl
@[simp] theorem State.setCore_sec (k : Nat) (v : Core) : (s.setCore k v).sec = s.sec := rfl
@[simp] theorem State.setCore_start (k : Nat) (v : Core) : (s.setCore k v).start = s.start := rfl
@[simp] theorem State.setCore_test (k : Nat) (v : Core) : (s.setCore k v).test = s.test := rfl
@[simp] theorem State.setCore_out (k : Nat) (v : Core) : (s.setCore k v).out = s.out := rfl
@[simp] theorem State.setCore_free (k : Nat) (v : Core) : (s.setCore k v).free = s.free := rfl

@[simp] theorem State.setFn_pending (k : FnId) (v : FnWord) : (s.setFn k v).pending = s.pending := rfl
@[simp] theorem State.setFn_time (k : FnId) (v : FnWord) : (s.setFn k v).time = s.time := rfl
@[simp] theorem State.setFn_tally (k : FnId) (v : FnWord) : (s.setFn k v).tally = s.tally := rfl
@[simp] theorem State.setFn_notify (k : FnId) (v : FnWord) : (s.setFn k v).notify = s.notify := rfl
@[simp] theorem State.setFn_od (k : FnId) (v : FnWord) : (s.setFn k v).od = s.od := rfl
@[simp] theorem State.setFn_power (k : FnId) (v : FnWord) : (s.setFn k v).power = s.power := rfl
@[simp] theorem State.setFn_board (k : FnId) (v : FnWord) : (s.setFn k v).board = s.board := rfl
@[simp] theorem State.setFn_cistern (k : FnId) (v : FnWord) : (s.setFn k v).cistern = s.cistern := rfl
@[simp] theorem State.setFn_flush (k : FnId) (v : FnWord) : (s.setFn k v).flush = s.flush := rfl
@[simp] theorem State.setFn_rooms (k : FnId) (v : FnWord) : (s.setFn k v).rooms = s.rooms := rfl
@[simp] theorem State.setFn_adm (k : FnId) (v : FnWord) : (s.setFn k v).adm = s.adm := rfl
@[simp] theorem State.setFn_ports (k : FnId) (v : FnWord) : (s.setFn k v).ports = s.ports := rfl
@[simp] theorem State.setFn_pages (k : FnId) (v : FnWord) : (s.setFn k v).pages = s.pages := rfl
@[simp] theorem State.setFn_tier (k : FnId) (v : FnWord) : (s.setFn k v).tier = s.tier := rfl
@[simp] theorem State.setFn_landing (k : FnId) (v : FnWord) : (s.setFn k v).landing = s.landing := rfl
@[simp] theorem State.setFn_reqs (k : FnId) (v : FnWord) : (s.setFn k v).reqs = s.reqs := rfl
@[simp] theorem State.setFn_stairs (k : FnId) (v : FnWord) : (s.setFn k v).stairs = s.stairs := rfl
@[simp] theorem State.setFn_codec (k : FnId) (v : FnWord) : (s.setFn k v).codec = s.codec := rfl
@[simp] theorem State.setFn_store (k : FnId) (v : FnWord) : (s.setFn k v).store = s.store := rfl
@[simp] theorem State.setFn_retired (k : FnId) (v : FnWord) : (s.setFn k v).retired = s.retired := rfl
@[simp] theorem State.setFn_retirements (k : FnId) (v : FnWord) : (s.setFn k v).retirements = s.retirements := rfl
@[simp] theorem State.setFn_cellar (k : FnId) (v : FnWord) : (s.setFn k v).cellar = s.cellar := rfl
@[simp] theorem State.setFn_shelves (k : FnId) (v : FnWord) : (s.setFn k v).shelves = s.shelves := rfl
@[simp] theorem State.setFn_dir (k : FnId) (v : FnWord) : (s.setFn k v).dir = s.dir := rfl
@[simp] theorem State.setFn_pubs (k : FnId) (v : FnWord) : (s.setFn k v).pubs = s.pubs := rfl
@[simp] theorem State.setFn_integ (k : FnId) (v : FnWord) : (s.setFn k v).integ = s.integ := rfl
@[simp] theorem State.setFn_vault (k : FnId) (v : FnWord) : (s.setFn k v).vault = s.vault := rfl
@[simp] theorem State.setFn_sec (k : FnId) (v : FnWord) : (s.setFn k v).sec = s.sec := rfl
@[simp] theorem State.setFn_start (k : FnId) (v : FnWord) : (s.setFn k v).start = s.start := rfl
@[simp] theorem State.setFn_test (k : FnId) (v : FnWord) : (s.setFn k v).test = s.test := rfl
@[simp] theorem State.setFn_cores (k : FnId) (v : FnWord) : (s.setFn k v).cores = s.cores := rfl
@[simp] theorem State.setFn_out (k : FnId) (v : FnWord) : (s.setFn k v).out = s.out := rfl
@[simp] theorem State.setFn_free (k : FnId) (v : FnWord) : (s.setFn k v).free = s.free := rfl

@[simp] theorem State.send_pending (o : Out) : (s.send o).pending = s.pending := rfl
@[simp] theorem State.send_time (o : Out) : (s.send o).time = s.time := rfl
@[simp] theorem State.send_tally (o : Out) : (s.send o).tally = s.tally := rfl
@[simp] theorem State.send_notify (o : Out) : (s.send o).notify = s.notify := rfl
@[simp] theorem State.send_od (o : Out) : (s.send o).od = s.od := rfl
@[simp] theorem State.send_funcs (o : Out) : (s.send o).funcs = s.funcs := rfl
@[simp] theorem State.send_power (o : Out) : (s.send o).power = s.power := rfl
@[simp] theorem State.send_board (o : Out) : (s.send o).board = s.board := rfl
@[simp] theorem State.send_cistern (o : Out) : (s.send o).cistern = s.cistern := rfl
@[simp] theorem State.send_flush (o : Out) : (s.send o).flush = s.flush := rfl
@[simp] theorem State.send_rooms (o : Out) : (s.send o).rooms = s.rooms := rfl
@[simp] theorem State.send_adm (o : Out) : (s.send o).adm = s.adm := rfl
@[simp] theorem State.send_ports (o : Out) : (s.send o).ports = s.ports := rfl
@[simp] theorem State.send_pages (o : Out) : (s.send o).pages = s.pages := rfl
@[simp] theorem State.send_tier (o : Out) : (s.send o).tier = s.tier := rfl
@[simp] theorem State.send_landing (o : Out) : (s.send o).landing = s.landing := rfl
@[simp] theorem State.send_reqs (o : Out) : (s.send o).reqs = s.reqs := rfl
@[simp] theorem State.send_stairs (o : Out) : (s.send o).stairs = s.stairs := rfl
@[simp] theorem State.send_codec (o : Out) : (s.send o).codec = s.codec := rfl
@[simp] theorem State.send_store (o : Out) : (s.send o).store = s.store := rfl
@[simp] theorem State.send_retired (o : Out) : (s.send o).retired = s.retired := rfl
@[simp] theorem State.send_retirements (o : Out) : (s.send o).retirements = s.retirements := rfl
@[simp] theorem State.send_cellar (o : Out) : (s.send o).cellar = s.cellar := rfl
@[simp] theorem State.send_shelves (o : Out) : (s.send o).shelves = s.shelves := rfl
@[simp] theorem State.send_dir (o : Out) : (s.send o).dir = s.dir := rfl
@[simp] theorem State.send_pubs (o : Out) : (s.send o).pubs = s.pubs := rfl
@[simp] theorem State.send_integ (o : Out) : (s.send o).integ = s.integ := rfl
@[simp] theorem State.send_vault (o : Out) : (s.send o).vault = s.vault := rfl
@[simp] theorem State.send_sec (o : Out) : (s.send o).sec = s.sec := rfl
@[simp] theorem State.send_start (o : Out) : (s.send o).start = s.start := rfl
@[simp] theorem State.send_test (o : Out) : (s.send o).test = s.test := rfl
@[simp] theorem State.send_cores (o : Out) : (s.send o).cores = s.cores := rfl
@[simp] theorem State.send_free (o : Out) : (s.send o).free = s.free := rfl

@[simp] theorem State.setOpen_pending (l : List OpenReq) : (s.setOpen l).pending = s.pending := rfl
@[simp] theorem State.setOpen_time (l : List OpenReq) : (s.setOpen l).time = s.time := rfl
@[simp] theorem State.setOpen_tally (l : List OpenReq) : (s.setOpen l).tally = s.tally := rfl
@[simp] theorem State.setOpen_notify (l : List OpenReq) : (s.setOpen l).notify = s.notify := rfl
@[simp] theorem State.setOpen_od (l : List OpenReq) : (s.setOpen l).od = s.od := rfl
@[simp] theorem State.setOpen_funcs (l : List OpenReq) : (s.setOpen l).funcs = s.funcs := rfl
@[simp] theorem State.setOpen_power (l : List OpenReq) : (s.setOpen l).power = s.power := rfl
@[simp] theorem State.setOpen_board (l : List OpenReq) : (s.setOpen l).board = s.board := rfl
@[simp] theorem State.setOpen_cistern (l : List OpenReq) : (s.setOpen l).cistern = s.cistern := rfl
@[simp] theorem State.setOpen_flush (l : List OpenReq) : (s.setOpen l).flush = s.flush := rfl
@[simp] theorem State.setOpen_rooms (l : List OpenReq) : (s.setOpen l).rooms = s.rooms := rfl
@[simp] theorem State.setOpen_adm (l : List OpenReq) : (s.setOpen l).adm = s.adm := rfl
@[simp] theorem State.setOpen_ports (l : List OpenReq) : (s.setOpen l).ports = s.ports := rfl
@[simp] theorem State.setOpen_pages (l : List OpenReq) : (s.setOpen l).pages = s.pages := rfl
@[simp] theorem State.setOpen_tier (l : List OpenReq) : (s.setOpen l).tier = s.tier := rfl
@[simp] theorem State.setOpen_landing (l : List OpenReq) : (s.setOpen l).landing = s.landing := rfl
@[simp] theorem State.setOpen_stairs (l : List OpenReq) : (s.setOpen l).stairs = s.stairs := rfl
@[simp] theorem State.setOpen_codec (l : List OpenReq) : (s.setOpen l).codec = s.codec := rfl
@[simp] theorem State.setOpen_store (l : List OpenReq) : (s.setOpen l).store = s.store := rfl
@[simp] theorem State.setOpen_retired (l : List OpenReq) : (s.setOpen l).retired = s.retired := rfl
@[simp] theorem State.setOpen_retirements (l : List OpenReq) : (s.setOpen l).retirements = s.retirements := rfl
@[simp] theorem State.setOpen_cellar (l : List OpenReq) : (s.setOpen l).cellar = s.cellar := rfl
@[simp] theorem State.setOpen_shelves (l : List OpenReq) : (s.setOpen l).shelves = s.shelves := rfl
@[simp] theorem State.setOpen_dir (l : List OpenReq) : (s.setOpen l).dir = s.dir := rfl
@[simp] theorem State.setOpen_pubs (l : List OpenReq) : (s.setOpen l).pubs = s.pubs := rfl
@[simp] theorem State.setOpen_integ (l : List OpenReq) : (s.setOpen l).integ = s.integ := rfl
@[simp] theorem State.setOpen_vault (l : List OpenReq) : (s.setOpen l).vault = s.vault := rfl
@[simp] theorem State.setOpen_sec (l : List OpenReq) : (s.setOpen l).sec = s.sec := rfl
@[simp] theorem State.setOpen_start (l : List OpenReq) : (s.setOpen l).start = s.start := rfl
@[simp] theorem State.setOpen_test (l : List OpenReq) : (s.setOpen l).test = s.test := rfl
@[simp] theorem State.setOpen_cores (l : List OpenReq) : (s.setOpen l).cores = s.cores := rfl
@[simp] theorem State.setOpen_out (l : List OpenReq) : (s.setOpen l).out = s.out := rfl
@[simp] theorem State.setOpen_free (l : List OpenReq) : (s.setOpen l).free = s.free := rfl

@[simp] theorem State.setHeld_pending (l : List HeldReq) : (s.setHeld l).pending = s.pending := rfl
@[simp] theorem State.setHeld_time (l : List HeldReq) : (s.setHeld l).time = s.time := rfl
@[simp] theorem State.setHeld_tally (l : List HeldReq) : (s.setHeld l).tally = s.tally := rfl
@[simp] theorem State.setHeld_notify (l : List HeldReq) : (s.setHeld l).notify = s.notify := rfl
@[simp] theorem State.setHeld_od (l : List HeldReq) : (s.setHeld l).od = s.od := rfl
@[simp] theorem State.setHeld_funcs (l : List HeldReq) : (s.setHeld l).funcs = s.funcs := rfl
@[simp] theorem State.setHeld_power (l : List HeldReq) : (s.setHeld l).power = s.power := rfl
@[simp] theorem State.setHeld_board (l : List HeldReq) : (s.setHeld l).board = s.board := rfl
@[simp] theorem State.setHeld_cistern (l : List HeldReq) : (s.setHeld l).cistern = s.cistern := rfl
@[simp] theorem State.setHeld_flush (l : List HeldReq) : (s.setHeld l).flush = s.flush := rfl
@[simp] theorem State.setHeld_rooms (l : List HeldReq) : (s.setHeld l).rooms = s.rooms := rfl
@[simp] theorem State.setHeld_adm (l : List HeldReq) : (s.setHeld l).adm = s.adm := rfl
@[simp] theorem State.setHeld_ports (l : List HeldReq) : (s.setHeld l).ports = s.ports := rfl
@[simp] theorem State.setHeld_pages (l : List HeldReq) : (s.setHeld l).pages = s.pages := rfl
@[simp] theorem State.setHeld_tier (l : List HeldReq) : (s.setHeld l).tier = s.tier := rfl
@[simp] theorem State.setHeld_landing (l : List HeldReq) : (s.setHeld l).landing = s.landing := rfl
@[simp] theorem State.setHeld_stairs (l : List HeldReq) : (s.setHeld l).stairs = s.stairs := rfl
@[simp] theorem State.setHeld_codec (l : List HeldReq) : (s.setHeld l).codec = s.codec := rfl
@[simp] theorem State.setHeld_store (l : List HeldReq) : (s.setHeld l).store = s.store := rfl
@[simp] theorem State.setHeld_retired (l : List HeldReq) : (s.setHeld l).retired = s.retired := rfl
@[simp] theorem State.setHeld_retirements (l : List HeldReq) : (s.setHeld l).retirements = s.retirements := rfl
@[simp] theorem State.setHeld_cellar (l : List HeldReq) : (s.setHeld l).cellar = s.cellar := rfl
@[simp] theorem State.setHeld_shelves (l : List HeldReq) : (s.setHeld l).shelves = s.shelves := rfl
@[simp] theorem State.setHeld_dir (l : List HeldReq) : (s.setHeld l).dir = s.dir := rfl
@[simp] theorem State.setHeld_pubs (l : List HeldReq) : (s.setHeld l).pubs = s.pubs := rfl
@[simp] theorem State.setHeld_integ (l : List HeldReq) : (s.setHeld l).integ = s.integ := rfl
@[simp] theorem State.setHeld_vault (l : List HeldReq) : (s.setHeld l).vault = s.vault := rfl
@[simp] theorem State.setHeld_sec (l : List HeldReq) : (s.setHeld l).sec = s.sec := rfl
@[simp] theorem State.setHeld_start (l : List HeldReq) : (s.setHeld l).start = s.start := rfl
@[simp] theorem State.setHeld_test (l : List HeldReq) : (s.setHeld l).test = s.test := rfl
@[simp] theorem State.setHeld_cores (l : List HeldReq) : (s.setHeld l).cores = s.cores := rfl
@[simp] theorem State.setHeld_out (l : List HeldReq) : (s.setHeld l).out = s.out := rfl
@[simp] theorem State.setHeld_free (l : List HeldReq) : (s.setHeld l).free = s.free := rfl

/- ## Events -/

theorem State.notifyAll_eq (e : TallyEntry) : ∀ (ds : List Nat) (s : State), ∃ n o, s.notifyAll e ds = (s.setNotify n).setOut o
  | [], s => ⟨s.notify, s.out, rfl⟩
  | d :: ds, s => by
    unfold State.notifyAll
    split
    · obtain ⟨n, o, h⟩ := State.notifyAll_eq e ds ((s.setNotify (Tbl.upd s.notify d NotifyQueue.init (·.push e))).send
        (.ibi (if (s.setNotify (Tbl.upd s.notify d NotifyQueue.init (·.push e))).od.i3c.waiting.isEmpty then 2 else 1)))
      exact ⟨n, o, h⟩
    · obtain ⟨n, o, h⟩ := State.notifyAll_eq e ds (s.setNotify (Tbl.upd s.notify d NotifyQueue.init (·.push e)))
      exact ⟨n, o, h⟩

theorem State.record_eq (e : TallyEntry) (room : Option Nat) (also : List Nat) :
    ∃ t n o, s.record e room also = ((s.setTally t).setNotify n).setOut o := by
  have put (t : Tally) : ∃ t' n o, s.setTally t = ((s.setTally t').setNotify n).setOut o := ⟨t, s.notify, s.out, rfl⟩
  unfold State.record
  dsimp only
  split
  · exact ⟨s.tally, s.notify, s.out, rfl⟩
  split
  · exact put _
  split
  · exact put _
  split
  · exact put _
  · obtain ⟨n, o, h⟩ := State.notifyAll_eq e (s.notifyDests e room also) (s.setTally (s.tally.append e))
    exact ⟨_, n, o, h⟩

/-- Raising an event changes the tally, the notification queues and what is sent, and nothing else. -/
theorem State.raise_eq (e : Ev) : ∃ t n o, s.raise e = ((s.setTally t).setNotify n).setOut o := by
  have one (s : State) (e : Ev) : ∃ t n o, s.raiseOne e = ((s.setTally t).setNotify n).setOut o := by
    let q := Tbl.put s.tally.seqs (e.region * 1024 + e.unit) ((s.nextSeq e.region e.unit + 1) % 2 ^ 32)
    obtain ⟨t, n, o, h⟩ := State.record_eq (s.setTally { s.tally with seqs := q }) (s.entryOf e) e.room e.also
    exact ⟨t, n, o, h⟩
  unfold State.raise
  dsimp only
  obtain ⟨t, n, o, h⟩ := one s e
  obtain ⟨t', n', o', h'⟩ := one (s.raiseOne e) (wrapEv (e.region * 1024 + e.unit))
  obtain ⟨t'', n'', o'', h''⟩ := one ((s.raiseOne e).raiseOne (wrapEv (e.region * 1024 + e.unit))) (wrapEv 5)
  split
  · split
    · exact ⟨t'', n'', o'', by rw [h'', h', h]; rfl⟩
    · exact ⟨t', n', o', by rw [h', h]; rfl⟩
  · exact ⟨t, n, o, h⟩

@[simp] theorem State.raise_pending (e : Ev) : (s.raise e).pending = s.pending := by obtain ⟨t, n, o, h⟩ := s.raise_eq e; rw [h]; rfl
@[simp] theorem State.raise_time (e : Ev) : (s.raise e).time = s.time := by obtain ⟨t, n, o, h⟩ := s.raise_eq e; rw [h]; rfl
@[simp] theorem State.raise_od (e : Ev) : (s.raise e).od = s.od := by obtain ⟨t, n, o, h⟩ := s.raise_eq e; rw [h]; rfl
@[simp] theorem State.raise_funcs (e : Ev) : (s.raise e).funcs = s.funcs := by obtain ⟨t, n, o, h⟩ := s.raise_eq e; rw [h]; rfl
@[simp] theorem State.raise_power (e : Ev) : (s.raise e).power = s.power := by obtain ⟨t, n, o, h⟩ := s.raise_eq e; rw [h]; rfl
@[simp] theorem State.raise_board (e : Ev) : (s.raise e).board = s.board := by obtain ⟨t, n, o, h⟩ := s.raise_eq e; rw [h]; rfl
@[simp] theorem State.raise_cistern (e : Ev) : (s.raise e).cistern = s.cistern := by obtain ⟨t, n, o, h⟩ := s.raise_eq e; rw [h]; rfl
@[simp] theorem State.raise_flush (e : Ev) : (s.raise e).flush = s.flush := by obtain ⟨t, n, o, h⟩ := s.raise_eq e; rw [h]; rfl
@[simp] theorem State.raise_rooms (e : Ev) : (s.raise e).rooms = s.rooms := by obtain ⟨t, n, o, h⟩ := s.raise_eq e; rw [h]; rfl
@[simp] theorem State.raise_adm (e : Ev) : (s.raise e).adm = s.adm := by obtain ⟨t, n, o, h⟩ := s.raise_eq e; rw [h]; rfl
@[simp] theorem State.raise_ports (e : Ev) : (s.raise e).ports = s.ports := by obtain ⟨t, n, o, h⟩ := s.raise_eq e; rw [h]; rfl
@[simp] theorem State.raise_pages (e : Ev) : (s.raise e).pages = s.pages := by obtain ⟨t, n, o, h⟩ := s.raise_eq e; rw [h]; rfl
@[simp] theorem State.raise_tier (e : Ev) : (s.raise e).tier = s.tier := by obtain ⟨t, n, o, h⟩ := s.raise_eq e; rw [h]; rfl
@[simp] theorem State.raise_landing (e : Ev) : (s.raise e).landing = s.landing := by obtain ⟨t, n, o, h⟩ := s.raise_eq e; rw [h]; rfl
@[simp] theorem State.raise_reqs (e : Ev) : (s.raise e).reqs = s.reqs := by obtain ⟨t, n, o, h⟩ := s.raise_eq e; rw [h]; rfl
@[simp] theorem State.raise_stairs (e : Ev) : (s.raise e).stairs = s.stairs := by obtain ⟨t, n, o, h⟩ := s.raise_eq e; rw [h]; rfl
@[simp] theorem State.raise_codec (e : Ev) : (s.raise e).codec = s.codec := by obtain ⟨t, n, o, h⟩ := s.raise_eq e; rw [h]; rfl
@[simp] theorem State.raise_store (e : Ev) : (s.raise e).store = s.store := by obtain ⟨t, n, o, h⟩ := s.raise_eq e; rw [h]; rfl
@[simp] theorem State.raise_retired (e : Ev) : (s.raise e).retired = s.retired := by obtain ⟨t, n, o, h⟩ := s.raise_eq e; rw [h]; rfl
@[simp] theorem State.raise_retirements (e : Ev) : (s.raise e).retirements = s.retirements := by obtain ⟨t, n, o, h⟩ := s.raise_eq e; rw [h]; rfl
@[simp] theorem State.raise_cellar (e : Ev) : (s.raise e).cellar = s.cellar := by obtain ⟨t, n, o, h⟩ := s.raise_eq e; rw [h]; rfl
@[simp] theorem State.raise_shelves (e : Ev) : (s.raise e).shelves = s.shelves := by obtain ⟨t, n, o, h⟩ := s.raise_eq e; rw [h]; rfl
@[simp] theorem State.raise_dir (e : Ev) : (s.raise e).dir = s.dir := by obtain ⟨t, n, o, h⟩ := s.raise_eq e; rw [h]; rfl
@[simp] theorem State.raise_pubs (e : Ev) : (s.raise e).pubs = s.pubs := by obtain ⟨t, n, o, h⟩ := s.raise_eq e; rw [h]; rfl
@[simp] theorem State.raise_integ (e : Ev) : (s.raise e).integ = s.integ := by obtain ⟨t, n, o, h⟩ := s.raise_eq e; rw [h]; rfl
@[simp] theorem State.raise_vault (e : Ev) : (s.raise e).vault = s.vault := by obtain ⟨t, n, o, h⟩ := s.raise_eq e; rw [h]; rfl
@[simp] theorem State.raise_sec (e : Ev) : (s.raise e).sec = s.sec := by obtain ⟨t, n, o, h⟩ := s.raise_eq e; rw [h]; rfl
@[simp] theorem State.raise_start (e : Ev) : (s.raise e).start = s.start := by obtain ⟨t, n, o, h⟩ := s.raise_eq e; rw [h]; rfl
@[simp] theorem State.raise_test (e : Ev) : (s.raise e).test = s.test := by obtain ⟨t, n, o, h⟩ := s.raise_eq e; rw [h]; rfl
@[simp] theorem State.raise_cores (e : Ev) : (s.raise e).cores = s.cores := by obtain ⟨t, n, o, h⟩ := s.raise_eq e; rw [h]; rfl
@[simp] theorem State.raise_free (e : Ev) : (s.raise e).free = s.free := by obtain ⟨t, n, o, h⟩ := s.raise_eq e; rw [h]; rfl

/- ## Responses -/

/-- A response changes its port and what is sent, and nothing else. -/
theorem State.respond_eq (p tag code : Nat) (data : Option (BitVec 512)) (arg : Nat) :
    ∃ q o, s.respond p tag code data arg = (s.setPorts q).setOut o := by
  unfold State.respond State.respondFor
  cases s.isLinked p
  · exact ⟨s.ports, s.out, rfl⟩
  · exact ⟨_, _, rfl⟩

@[simp] theorem State.respond_pending (p tag code : Nat) (d : Option (BitVec 512)) (a : Nat) : (s.respond p tag code d a).pending = s.pending := by
  obtain ⟨q, o, h⟩ := s.respond_eq p tag code d a; rw [h]; rfl
@[simp] theorem State.respond_time (p tag code : Nat) (d : Option (BitVec 512)) (a : Nat) : (s.respond p tag code d a).time = s.time := by
  obtain ⟨q, o, h⟩ := s.respond_eq p tag code d a; rw [h]; rfl
@[simp] theorem State.respond_tally (p tag code : Nat) (d : Option (BitVec 512)) (a : Nat) : (s.respond p tag code d a).tally = s.tally := by
  obtain ⟨q, o, h⟩ := s.respond_eq p tag code d a; rw [h]; rfl
@[simp] theorem State.respond_notify (p tag code : Nat) (d : Option (BitVec 512)) (a : Nat) : (s.respond p tag code d a).notify = s.notify := by
  obtain ⟨q, o, h⟩ := s.respond_eq p tag code d a; rw [h]; rfl
@[simp] theorem State.respond_od (p tag code : Nat) (d : Option (BitVec 512)) (a : Nat) : (s.respond p tag code d a).od = s.od := by
  obtain ⟨q, o, h⟩ := s.respond_eq p tag code d a; rw [h]; rfl
@[simp] theorem State.respond_funcs (p tag code : Nat) (d : Option (BitVec 512)) (a : Nat) : (s.respond p tag code d a).funcs = s.funcs := by
  obtain ⟨q, o, h⟩ := s.respond_eq p tag code d a; rw [h]; rfl
@[simp] theorem State.respond_power (p tag code : Nat) (d : Option (BitVec 512)) (a : Nat) : (s.respond p tag code d a).power = s.power := by
  obtain ⟨q, o, h⟩ := s.respond_eq p tag code d a; rw [h]; rfl
@[simp] theorem State.respond_board (p tag code : Nat) (d : Option (BitVec 512)) (a : Nat) : (s.respond p tag code d a).board = s.board := by
  obtain ⟨q, o, h⟩ := s.respond_eq p tag code d a; rw [h]; rfl
@[simp] theorem State.respond_cistern (p tag code : Nat) (d : Option (BitVec 512)) (a : Nat) : (s.respond p tag code d a).cistern = s.cistern := by
  obtain ⟨q, o, h⟩ := s.respond_eq p tag code d a; rw [h]; rfl
@[simp] theorem State.respond_flush (p tag code : Nat) (d : Option (BitVec 512)) (a : Nat) : (s.respond p tag code d a).flush = s.flush := by
  obtain ⟨q, o, h⟩ := s.respond_eq p tag code d a; rw [h]; rfl
@[simp] theorem State.respond_rooms (p tag code : Nat) (d : Option (BitVec 512)) (a : Nat) : (s.respond p tag code d a).rooms = s.rooms := by
  obtain ⟨q, o, h⟩ := s.respond_eq p tag code d a; rw [h]; rfl
@[simp] theorem State.respond_adm (p tag code : Nat) (d : Option (BitVec 512)) (a : Nat) : (s.respond p tag code d a).adm = s.adm := by
  obtain ⟨q, o, h⟩ := s.respond_eq p tag code d a; rw [h]; rfl
@[simp] theorem State.respond_pages (p tag code : Nat) (d : Option (BitVec 512)) (a : Nat) : (s.respond p tag code d a).pages = s.pages := by
  obtain ⟨q, o, h⟩ := s.respond_eq p tag code d a; rw [h]; rfl
@[simp] theorem State.respond_tier (p tag code : Nat) (d : Option (BitVec 512)) (a : Nat) : (s.respond p tag code d a).tier = s.tier := by
  obtain ⟨q, o, h⟩ := s.respond_eq p tag code d a; rw [h]; rfl
@[simp] theorem State.respond_landing (p tag code : Nat) (d : Option (BitVec 512)) (a : Nat) : (s.respond p tag code d a).landing = s.landing := by
  obtain ⟨q, o, h⟩ := s.respond_eq p tag code d a; rw [h]; rfl
@[simp] theorem State.respond_reqs (p tag code : Nat) (d : Option (BitVec 512)) (a : Nat) : (s.respond p tag code d a).reqs = s.reqs := by
  obtain ⟨q, o, h⟩ := s.respond_eq p tag code d a; rw [h]; rfl
@[simp] theorem State.respond_stairs (p tag code : Nat) (d : Option (BitVec 512)) (a : Nat) : (s.respond p tag code d a).stairs = s.stairs := by
  obtain ⟨q, o, h⟩ := s.respond_eq p tag code d a; rw [h]; rfl
@[simp] theorem State.respond_codec (p tag code : Nat) (d : Option (BitVec 512)) (a : Nat) : (s.respond p tag code d a).codec = s.codec := by
  obtain ⟨q, o, h⟩ := s.respond_eq p tag code d a; rw [h]; rfl
@[simp] theorem State.respond_store (p tag code : Nat) (d : Option (BitVec 512)) (a : Nat) : (s.respond p tag code d a).store = s.store := by
  obtain ⟨q, o, h⟩ := s.respond_eq p tag code d a; rw [h]; rfl
@[simp] theorem State.respond_retired (p tag code : Nat) (d : Option (BitVec 512)) (a : Nat) : (s.respond p tag code d a).retired = s.retired := by
  obtain ⟨q, o, h⟩ := s.respond_eq p tag code d a; rw [h]; rfl
@[simp] theorem State.respond_retirements (p tag code : Nat) (d : Option (BitVec 512)) (a : Nat) : (s.respond p tag code d a).retirements = s.retirements := by
  obtain ⟨q, o, h⟩ := s.respond_eq p tag code d a; rw [h]; rfl
@[simp] theorem State.respond_cellar (p tag code : Nat) (d : Option (BitVec 512)) (a : Nat) : (s.respond p tag code d a).cellar = s.cellar := by
  obtain ⟨q, o, h⟩ := s.respond_eq p tag code d a; rw [h]; rfl
@[simp] theorem State.respond_shelves (p tag code : Nat) (d : Option (BitVec 512)) (a : Nat) : (s.respond p tag code d a).shelves = s.shelves := by
  obtain ⟨q, o, h⟩ := s.respond_eq p tag code d a; rw [h]; rfl
@[simp] theorem State.respond_dir (p tag code : Nat) (d : Option (BitVec 512)) (a : Nat) : (s.respond p tag code d a).dir = s.dir := by
  obtain ⟨q, o, h⟩ := s.respond_eq p tag code d a; rw [h]; rfl
@[simp] theorem State.respond_pubs (p tag code : Nat) (d : Option (BitVec 512)) (a : Nat) : (s.respond p tag code d a).pubs = s.pubs := by
  obtain ⟨q, o, h⟩ := s.respond_eq p tag code d a; rw [h]; rfl
@[simp] theorem State.respond_integ (p tag code : Nat) (d : Option (BitVec 512)) (a : Nat) : (s.respond p tag code d a).integ = s.integ := by
  obtain ⟨q, o, h⟩ := s.respond_eq p tag code d a; rw [h]; rfl
@[simp] theorem State.respond_vault (p tag code : Nat) (d : Option (BitVec 512)) (a : Nat) : (s.respond p tag code d a).vault = s.vault := by
  obtain ⟨q, o, h⟩ := s.respond_eq p tag code d a; rw [h]; rfl
@[simp] theorem State.respond_sec (p tag code : Nat) (d : Option (BitVec 512)) (a : Nat) : (s.respond p tag code d a).sec = s.sec := by
  obtain ⟨q, o, h⟩ := s.respond_eq p tag code d a; rw [h]; rfl
@[simp] theorem State.respond_start (p tag code : Nat) (d : Option (BitVec 512)) (a : Nat) : (s.respond p tag code d a).start = s.start := by
  obtain ⟨q, o, h⟩ := s.respond_eq p tag code d a; rw [h]; rfl
@[simp] theorem State.respond_test (p tag code : Nat) (d : Option (BitVec 512)) (a : Nat) : (s.respond p tag code d a).test = s.test := by
  obtain ⟨q, o, h⟩ := s.respond_eq p tag code d a; rw [h]; rfl
@[simp] theorem State.respond_cores (p tag code : Nat) (d : Option (BitVec 512)) (a : Nat) : (s.respond p tag code d a).cores = s.cores := by
  obtain ⟨q, o, h⟩ := s.respond_eq p tag code d a; rw [h]; rfl
@[simp] theorem State.respond_free (p tag code : Nat) (d : Option (BitVec 512)) (a : Nat) : (s.respond p tag code d a).free = s.free := by
  obtain ⟨q, o, h⟩ := s.respond_eq p tag code d a; rw [h]; rfl

end Sys2Proof.Machine
end

