-- ==== Sys2Proof/Laws/Egress.lean ====
section
/-!
SUPPORT. Sys2Proof/Laws/Egress.lean: what the flits that the ports send can change: the ports, what is sent, and the counts of the room pairs.
-/

namespace Sys2Proof.Machine

variable (s : State)

/-- Data that crosses a link changes the room pairs' counts, and nothing else. -/
theorem State.crossed_eq (d : TxDue) : ∃ a, s.crossed d = s.setAdm a := by
  unfold State.crossed State.charged
  dsimp only
  split <;> split <;> exact ⟨_, rfl⟩

/-- A flit laid out and sent changes the port and what is sent, and nothing else. -/
theorem State.emit_eq (p : Nat) (q : Port) (type seq map : Nat) (body : List Byte) :
    ∃ q' o, s.emit p q type seq map body = (s.setPorts q').setOut o := by
  unfold State.emit State.setPort State.send
  cases q.framing type seq map
  exact ⟨_, _, rfl⟩

/-- A flit sent changes the ports, what is sent, and the room pairs' counts, and nothing else. -/
theorem State.sendFlit_eq {s t : State} {p : Nat} (h : s.sendFlit p = some t) : ∃ q o a, t = ((s.setPorts q).setOut o).setAdm a := by
  have all (l : List TxDue) (s : State) : ∃ a, l.foldl (fun s d => s.crossed d) s = s.setAdm a := by
    induction l generalizing s with
    | nil => exact ⟨s.adm, rfl⟩
    | cons d l ih =>
      obtain ⟨a, h⟩ := s.crossed_eq d
      obtain ⟨b, h'⟩ := ih (s.crossed d)
      exact ⟨b, by rw [List.foldl_cons, h', h]; rfl⟩
  unfold State.sendFlit at h
  dsimp only at h
  repeat' split at h
  all_goals first
    | (cases h; done)
    | (injection h with h; subst h; obtain ⟨q, o, e⟩ := s.emit_eq ..; exact ⟨q, o, s.adm, e⟩)
    | (injection h with h; subst h
       obtain ⟨b, e'⟩ := all _ (s.emit ..)
       obtain ⟨q, o, e⟩ := s.emit_eq ..
       exact ⟨q, o, b, by rw [e', e]⟩)

/- ## What passing time sends -/

/-- The state `t` is `s` with other ports, other items sent and other counts of the room pairs. -/
def State.sendsOnly (s t : State) : Prop := ∃ q o a, t = ((s.setPorts q).setOut o).setAdm a

theorem State.sendsOnly_self : s.sendsOnly s := ⟨s.ports, s.out, s.adm, rfl⟩

theorem State.sendsOnly_trans {a b c : State} (h : a.sendsOnly b) (h' : b.sendsOnly c) : a.sendsOnly c := by
  obtain ⟨q, o, d, rfl⟩ := h
  obtain ⟨q', o', d', rfl⟩ := h'
  cases a
  exact ⟨q', o', d', rfl⟩

theorem State.pumpPort_eq (p n : Nat) : s.sendsOnly (s.pumpPort p n) := by
  induction n generalizing s with
  | zero => exact s.sendsOnly_self
  | succ n ih =>
    unfold State.pumpPort
    cases h : s.sendFlit p with
    | none => exact s.sendsOnly_self
    | some t => exact State.sendsOnly_trans (State.sendFlit_eq h) (ih t)

/-- What the ports send in the part of a course that passes changes the ports, what is sent, and the room pairs' counts, and nothing else. -/
theorem State.pump_eq (first last : Nat) : s.sendsOnly (s.pump first last) := by
  have all (l : Tbl Port) (g : Port → Nat) (s : State) : s.sendsOnly (l.foldl (fun s e => s.pumpPort e.1 (g e.2)) s) := by
    induction l generalizing s with
    | nil => exact s.sendsOnly_self
    | cons x l ih => exact State.sendsOnly_trans (s.pumpPort_eq x.1 (g x.2)) (ih (s.pumpPort x.1 (g x.2)))
  exact all s.ports (fun q => flitsBy q.width last - flitsBy q.width first) s

@[simp] theorem State.pump_pending (a b : Nat) : (s.pump a b).pending = s.pending := by obtain ⟨q, o, d, h⟩ := s.pump_eq a b; rw [h]; rfl
@[simp] theorem State.pump_time (a b : Nat) : (s.pump a b).time = s.time := by obtain ⟨q, o, d, h⟩ := s.pump_eq a b; rw [h]; rfl
@[simp] theorem State.pump_tally (a b : Nat) : (s.pump a b).tally = s.tally := by obtain ⟨q, o, d, h⟩ := s.pump_eq a b; rw [h]; rfl
@[simp] theorem State.pump_notify (a b : Nat) : (s.pump a b).notify = s.notify := by obtain ⟨q, o, d, h⟩ := s.pump_eq a b; rw [h]; rfl
@[simp] theorem State.pump_od (a b : Nat) : (s.pump a b).od = s.od := by obtain ⟨q, o, d, h⟩ := s.pump_eq a b; rw [h]; rfl
@[simp] theorem State.pump_funcs (a b : Nat) : (s.pump a b).funcs = s.funcs := by obtain ⟨q, o, d, h⟩ := s.pump_eq a b; rw [h]; rfl
@[simp] theorem State.pump_power (a b : Nat) : (s.pump a b).power = s.power := by obtain ⟨q, o, d, h⟩ := s.pump_eq a b; rw [h]; rfl
@[simp] theorem State.pump_board (a b : Nat) : (s.pump a b).board = s.board := by obtain ⟨q, o, d, h⟩ := s.pump_eq a b; rw [h]; rfl
@[simp] theorem State.pump_cistern (a b : Nat) : (s.pump a b).cistern = s.cistern := by obtain ⟨q, o, d, h⟩ := s.pump_eq a b; rw [h]; rfl
@[simp] theorem State.pump_flush (a b : Nat) : (s.pump a b).flush = s.flush := by obtain ⟨q, o, d, h⟩ := s.pump_eq a b; rw [h]; rfl
@[simp] theorem State.pump_rooms (a b : Nat) : (s.pump a b).rooms = s.rooms := by obtain ⟨q, o, d, h⟩ := s.pump_eq a b; rw [h]; rfl
@[simp] theorem State.pump_pages (a b : Nat) : (s.pump a b).pages = s.pages := by obtain ⟨q, o, d, h⟩ := s.pump_eq a b; rw [h]; rfl
@[simp] theorem State.pump_tier (a b : Nat) : (s.pump a b).tier = s.tier := by obtain ⟨q, o, d, h⟩ := s.pump_eq a b; rw [h]; rfl
@[simp] theorem State.pump_landing (a b : Nat) : (s.pump a b).landing = s.landing := by obtain ⟨q, o, d, h⟩ := s.pump_eq a b; rw [h]; rfl
@[simp] theorem State.pump_reqs (a b : Nat) : (s.pump a b).reqs = s.reqs := by obtain ⟨q, o, d, h⟩ := s.pump_eq a b; rw [h]; rfl
@[simp] theorem State.pump_stairs (a b : Nat) : (s.pump a b).stairs = s.stairs := by obtain ⟨q, o, d, h⟩ := s.pump_eq a b; rw [h]; rfl
@[simp] theorem State.pump_codec (a b : Nat) : (s.pump a b).codec = s.codec := by obtain ⟨q, o, d, h⟩ := s.pump_eq a b; rw [h]; rfl
@[simp] theorem State.pump_store (a b : Nat) : (s.pump a b).store = s.store := by obtain ⟨q, o, d, h⟩ := s.pump_eq a b; rw [h]; rfl
@[simp] theorem State.pump_retired (a b : Nat) : (s.pump a b).retired = s.retired := by obtain ⟨q, o, d, h⟩ := s.pump_eq a b; rw [h]; rfl
@[simp] theorem State.pump_retirements (a b : Nat) : (s.pump a b).retirements = s.retirements := by obtain ⟨q, o, d, h⟩ := s.pump_eq a b; rw [h]; rfl
@[simp] theorem State.pump_cellar (a b : Nat) : (s.pump a b).cellar = s.cellar := by obtain ⟨q, o, d, h⟩ := s.pump_eq a b; rw [h]; rfl
@[simp] theorem State.pump_shelves (a b : Nat) : (s.pump a b).shelves = s.shelves := by obtain ⟨q, o, d, h⟩ := s.pump_eq a b; rw [h]; rfl
@[simp] theorem State.pump_dir (a b : Nat) : (s.pump a b).dir = s.dir := by obtain ⟨q, o, d, h⟩ := s.pump_eq a b; rw [h]; rfl
@[simp] theorem State.pump_pubs (a b : Nat) : (s.pump a b).pubs = s.pubs := by obtain ⟨q, o, d, h⟩ := s.pump_eq a b; rw [h]; rfl
@[simp] theorem State.pump_integ (a b : Nat) : (s.pump a b).integ = s.integ := by obtain ⟨q, o, d, h⟩ := s.pump_eq a b; rw [h]; rfl
@[simp] theorem State.pump_vault (a b : Nat) : (s.pump a b).vault = s.vault := by obtain ⟨q, o, d, h⟩ := s.pump_eq a b; rw [h]; rfl
@[simp] theorem State.pump_sec (a b : Nat) : (s.pump a b).sec = s.sec := by obtain ⟨q, o, d, h⟩ := s.pump_eq a b; rw [h]; rfl
@[simp] theorem State.pump_start (a b : Nat) : (s.pump a b).start = s.start := by obtain ⟨q, o, d, h⟩ := s.pump_eq a b; rw [h]; rfl
@[simp] theorem State.pump_test (a b : Nat) : (s.pump a b).test = s.test := by obtain ⟨q, o, d, h⟩ := s.pump_eq a b; rw [h]; rfl
@[simp] theorem State.pump_cores (a b : Nat) : (s.pump a b).cores = s.cores := by obtain ⟨q, o, d, h⟩ := s.pump_eq a b; rw [h]; rfl
@[simp] theorem State.pump_free (a b : Nat) : (s.pump a b).free = s.free := by obtain ⟨q, o, d, h⟩ := s.pump_eq a b; rw [h]; rfl

end Sys2Proof.Machine
end

