-- ==== Sys2Proof/Laws/Meanings.lean ====
section
/-!
SUPPORT. Sys2Proof/Laws/Meanings.lean: what the operations that the meanings share come to where the terms of Safety.lean hold: a request
to the object dictionary that reaches its entry, an instruction of a core that completes.
-/

namespace Sys2Proof.Machine

/- ## Requests to the object dictionary -/

theorem judgeWrite_of_bar (u : State) (rq : Rq) (e : Ent) (i j : Nat) (p : List Byte) (rooms : CallRooms) (act : Act)
    (h : u.barred rq.src e i j (some (ofLe p)) rooms = none) (h2 : e.row.acc ≠ .ro) (h3 : lengthFits e.row p.length = true)
    (h4 : valueFits e.row p = true) : u.judgeWrite rq e i j p rooms act = act u := by
  simp [State.judgeWrite, h, h2, h3, h4]

/-- A write that reaches its entry is acted on and answered. -/
theorem odWrite_of_takes {s : State} {rq : Rq} {e : Ent} {i j : Nat} {p : List Byte} (act : Act) (h : s.takes rq e i j p = true) :
    s.odWrite rq e i j p noCalls act = (act (s.openSess rq.src)).2.answers rq e i j (act (s.openSess rq.src)).1 := by
  simp only [State.takes, Bool.and_eq_true, Option.isNone_iff_eq_none, decide_eq_true_eq] at h
  obtain ⟨⟨⟨⟨⟨⟨h1, h2⟩, h3⟩, h4⟩, h5⟩, h6⟩, h7⟩ := h
  have hc : (s.classOf rq.src).isNone = false := by cases hx : s.classOf rq.src <;> simp_all
  simp only [State.odWrite, h1, hc, Bool.not_true, Bool.or_self, Bool.false_eq_true, if_false, Nat.not_lt.mpr h3,
    judgeWrite_of_bar _ rq e i j p noCalls act h4 h5 h6 h7, State.answers]

/-- A write of any length that reaches its entry is acted on and answered. -/
theorem odWhole_of_reach {s : State} {rq : Rq} {e : Ent} {i j : Nat} {p : List Byte} (act : Act) (h1 : s.odLive rq.src = true)
    (h2 : (s.classOf rq.src).isSome = true) (h4 : (s.openSess rq.src).barred rq.src e i j (some (ofLe p)) noCalls = none) (h5 : e.row.acc ≠ .ro)
    (h6 : lengthFits e.row p.length = true) (h7 : valueFits e.row p = true) :
    s.odWhole rq e i j p noCalls act = (act (s.openSess rq.src)).2.answers rq e i j (act (s.openSess rq.src)).1 := by
  have hc : (s.classOf rq.src).isNone = false := by cases hx : s.classOf rq.src <;> simp_all
  simp only [State.odWhole, h1, hc, Bool.not_true, Bool.or_self, Bool.false_eq_true, if_false,
    judgeWrite_of_bar _ rq e i j p noCalls act h4 h5 h6 h7, State.answers]

/-- A read that reaches its entry's value is answered with it, where it is 256 bytes or shorter. -/
theorem odRead_of_gives {s : State} {rq : Rq} {e : Ent} {i j : Nat} (get : State → List Byte × State) (h : s.gives rq e i j = true)
    (hl : (get (s.openSess rq.src)).1.length ≤ 256) :
    s.odRead rq e i j noCalls get = (get (s.openSess rq.src)).2.answers rq e i j (stOk, (get (s.openSess rq.src)).1) := by
  simp only [State.gives, Bool.and_eq_true, Option.isNone_iff_eq_none, decide_eq_true_eq] at h
  obtain ⟨⟨⟨⟨h1, h2⟩, h3⟩, h4⟩, h5⟩ := h
  have hc : (s.classOf rq.src).isNone = false := by cases hx : s.classOf rq.src <;> simp_all
  simp [State.odRead, State.judgeRead, h1, hc, h3, h4, h5, Nat.not_lt.mpr hl, State.answers]

/- ## Sessions, values and functions -/

theorem State.openSess_eq (s : State) (a : Arrival) : ∃ l, s.openSess a = s.setOd { s.od with sessions := l } := by
  unfold State.openSess
  split
  · exact ⟨s.od.sessions, rfl⟩
  · exact ⟨_, rfl⟩

@[simp] theorem State.openSess_pending (s : State) (a : Arrival) : (s.openSess a).pending = s.pending := by
  obtain ⟨l, h⟩ := s.openSess_eq a; rw [h]; rfl
@[simp] theorem State.openSess_time (s : State) (a : Arrival) : (s.openSess a).time = s.time := by
  obtain ⟨l, h⟩ := s.openSess_eq a; rw [h]; rfl
@[simp] theorem State.openSess_tally (s : State) (a : Arrival) : (s.openSess a).tally = s.tally := by
  obtain ⟨l, h⟩ := s.openSess_eq a; rw [h]; rfl
@[simp] theorem State.openSess_notify (s : State) (a : Arrival) : (s.openSess a).notify = s.notify := by
  obtain ⟨l, h⟩ := s.openSess_eq a; rw [h]; rfl
@[simp] theorem State.openSess_funcs (s : State) (a : Arrival) : (s.openSess a).funcs = s.funcs := by
  obtain ⟨l, h⟩ := s.openSess_eq a; rw [h]; rfl
@[simp] theorem State.openSess_power (s : State) (a : Arrival) : (s.openSess a).power = s.power := by
  obtain ⟨l, h⟩ := s.openSess_eq a; rw [h]; rfl
@[simp] theorem State.openSess_board (s : State) (a : Arrival) : (s.openSess a).board = s.board := by
  obtain ⟨l, h⟩ := s.openSess_eq a; rw [h]; rfl
@[simp] theorem State.openSess_cistern (s : State) (a : Arrival) : (s.openSess a).cistern = s.cistern := by
  obtain ⟨l, h⟩ := s.openSess_eq a; rw [h]; rfl
@[simp] theorem State.openSess_flush (s : State) (a : Arrival) : (s.openSess a).flush = s.flush := by
  obtain ⟨l, h⟩ := s.openSess_eq a; rw [h]; rfl
@[simp] theorem State.openSess_rooms (s : State) (a : Arrival) : (s.openSess a).rooms = s.rooms := by
  obtain ⟨l, h⟩ := s.openSess_eq a; rw [h]; rfl
@[simp] theorem State.openSess_adm (s : State) (a : Arrival) : (s.openSess a).adm = s.adm := by
  obtain ⟨l, h⟩ := s.openSess_eq a; rw [h]; rfl
@[simp] theorem State.openSess_ports (s : State) (a : Arrival) : (s.openSess a).ports = s.ports := by
  obtain ⟨l, h⟩ := s.openSess_eq a; rw [h]; rfl
@[simp] theorem State.openSess_pages (s : State) (a : Arrival) : (s.openSess a).pages = s.pages := by
  obtain ⟨l, h⟩ := s.openSess_eq a; rw [h]; rfl
@[simp] theorem State.openSess_tier (s : State) (a : Arrival) : (s.openSess a).tier = s.tier := by
  obtain ⟨l, h⟩ := s.openSess_eq a; rw [h]; rfl
@[simp] theorem State.openSess_landing (s : State) (a : Arrival) : (s.openSess a).landing = s.landing := by
  obtain ⟨l, h⟩ := s.openSess_eq a; rw [h]; rfl
@[simp] theorem State.openSess_reqs (s : State) (a : Arrival) : (s.openSess a).reqs = s.reqs := by
  obtain ⟨l, h⟩ := s.openSess_eq a; rw [h]; rfl
@[simp] theorem State.openSess_stairs (s : State) (a : Arrival) : (s.openSess a).stairs = s.stairs := by
  obtain ⟨l, h⟩ := s.openSess_eq a; rw [h]; rfl
@[simp] theorem State.openSess_codec (s : State) (a : Arrival) : (s.openSess a).codec = s.codec := by
  obtain ⟨l, h⟩ := s.openSess_eq a; rw [h]; rfl
@[simp] theorem State.openSess_store (s : State) (a : Arrival) : (s.openSess a).store = s.store := by
  obtain ⟨l, h⟩ := s.openSess_eq a; rw [h]; rfl
@[simp] theorem State.openSess_retired (s : State) (a : Arrival) : (s.openSess a).retired = s.retired := by
  obtain ⟨l, h⟩ := s.openSess_eq a; rw [h]; rfl
@[simp] theorem State.openSess_retirements (s : State) (a : Arrival) : (s.openSess a).retirements = s.retirements := by
  obtain ⟨l, h⟩ := s.openSess_eq a; rw [h]; rfl
@[simp] theorem State.openSess_cellar (s : State) (a : Arrival) : (s.openSess a).cellar = s.cellar := by
  obtain ⟨l, h⟩ := s.openSess_eq a; rw [h]; rfl
@[simp] theorem State.openSess_shelves (s : State) (a : Arrival) : (s.openSess a).shelves = s.shelves := by
  obtain ⟨l, h⟩ := s.openSess_eq a; rw [h]; rfl
@[simp] theorem State.openSess_dir (s : State) (a : Arrival) : (s.openSess a).dir = s.dir := by
  obtain ⟨l, h⟩ := s.openSess_eq a; rw [h]; rfl
@[simp] theorem State.openSess_pubs (s : State) (a : Arrival) : (s.openSess a).pubs = s.pubs := by
  obtain ⟨l, h⟩ := s.openSess_eq a; rw [h]; rfl
@[simp] theorem State.openSess_integ (s : State) (a : Arrival) : (s.openSess a).integ = s.integ := by
  obtain ⟨l, h⟩ := s.openSess_eq a; rw [h]; rfl
@[simp] theorem State.openSess_vault (s : State) (a : Arrival) : (s.openSess a).vault = s.vault := by
  obtain ⟨l, h⟩ := s.openSess_eq a; rw [h]; rfl
@[simp] theorem State.openSess_sec (s : State) (a : Arrival) : (s.openSess a).sec = s.sec := by
  obtain ⟨l, h⟩ := s.openSess_eq a; rw [h]; rfl
@[simp] theorem State.openSess_start (s : State) (a : Arrival) : (s.openSess a).start = s.start := by
  obtain ⟨l, h⟩ := s.openSess_eq a; rw [h]; rfl
@[simp] theorem State.openSess_test (s : State) (a : Arrival) : (s.openSess a).test = s.test := by
  obtain ⟨l, h⟩ := s.openSess_eq a; rw [h]; rfl
@[simp] theorem State.openSess_cores (s : State) (a : Arrival) : (s.openSess a).cores = s.cores := by
  obtain ⟨l, h⟩ := s.openSess_eq a; rw [h]; rfl
@[simp] theorem State.openSess_out (s : State) (a : Arrival) : (s.openSess a).out = s.out := by
  obtain ⟨l, h⟩ := s.openSess_eq a; rw [h]; rfl
@[simp] theorem State.openSess_free (s : State) (a : Arrival) : (s.openSess a).free = s.free := by
  obtain ⟨l, h⟩ := s.openSess_eq a; rw [h]; rfl
@[simp] theorem State.openSess_val (s : State) (a : Arrival) (e : Ent) (i j : Nat) : (s.openSess a).val e i j = s.val e i j := by
  obtain ⟨l, h⟩ := s.openSess_eq a; rw [h]; rfl
@[simp] theorem State.openSess_fn (s : State) (a : Arrival) (f : FnId) : (s.openSess a).fn f = s.fn f := by
  obtain ⟨l, h⟩ := s.openSess_eq a; rw [h]; rfl
@[simp] theorem State.val_setVal_self (s : State) (e : Ent) (i j v : Nat) : (s.setVal e i j v).val e i j = v := by
  simp [State.val, State.setVal]
theorem State.val_setVal_ne (s : State) (e f : Ent) (i j k l v : Nat) (h : f.row.key k l ≠ e.row.key i j) :
    (s.setVal e i j v).val f k l = s.val f k l := by simp [State.val, State.setVal, Tbl.get_put_ne _ _ _ _ _ h]
@[simp] theorem State.fn_setFn_self (s : State) (f : FnId) (w : FnWord) : (s.setFn f w).fn f = w := by simp [State.fn, State.setFn]

/- ## Instructions of a core -/

/-- An instruction that is legal issues on a core that owes nothing. -/
theorem issue_of_runs (s : State) (core : Fin 32) (regs : List Nat) (ck : Option Nat) (body : Core → Did) (h : s.runs core regs = true)
    (hc : ck = none) : s.issue core ck regs body = .next (s.settle core (body (s.core core))) := by
  simp only [State.runs, Bool.and_eq_true, decide_eq_true_eq] at h
  subst hc
  have h1 : (s.core core).owed regs = [] := by simpa using h.2
  simp [State.issue, h.1.1, h1, State.payOwed]

/-- A core that has completed an instruction stands at the next word. -/
theorem settle_of_runs (s : State) (core : Fin 32) (regs : List Nat) (c : Core) (h : s.runs core regs = true)
    (hw : c.words = (s.core core).words) (hp : c.pc = (s.core core).pc) : s.settle core (.done c) = s.stepped core c := by
  simp only [State.runs, Bool.and_eq_true, decide_eq_true_eq] at h
  simp [State.settle, hw, hp, h.1.2, State.stepped]

/-- A word's fields pass where the unused ones are zero, its formats are legal and its scalar fields name scalar registers. -/
theorem fieldCheck_eq_none (f : Fields) (u : Uses) (l : List (BitVec 6)) (legal : Bool) :
    fieldCheck f u l legal = none ↔ (zeroElse f u = true ∧ legal = true ∧ scalarFields l = true) := by
  have e : (l.any fun r => decide (31 < r.toNat)) = !scalarFields l := by
    rw [Bool.eq_iff_iff]; simp [scalarFields]
  unfold fieldCheck; rw [e]; cases zeroElse f u <;> cases legal <;> cases scalarFields l <;> simp

@[simp] theorem Core.setS_words (c : Core) (r : Nat) (v : Word) : (c.setS r v).words = c.words := by unfold Core.setS; split <;> rfl
@[simp] theorem Core.setS_pc (c : Core) (r : Nat) (v : Word) : (c.setS r v).pc = c.pc := by unfold Core.setS; split <;> rfl

end Sys2Proof.Machine
end

