-- ==== Sys2Proof/WellFormed.lean ====
section
/-!
DEFINITION. Sys2Proof/WellFormed.lean: the commands that the hardware's interfaces can carry: lists of the lengths that their messages and
their sensors have.
-/

namespace Sys2Proof

/-- The payload of a frame is up to 256 bytes (R444); a longer value travels by block transfer. -/
def payloadFits (p : List Byte) : Bool := decide (p.length ≤ 256)

/-- A flit is 256 bytes (R79). -/
def flitFits (f : List Byte) : Bool := decide (f.length = 256)

/-- Bytes that FEC corrected: up to 4 in each of a flit's two codewords, on its even and its odd bytes (R79, R81). -/
def correctedFits (c : List (BitVec 8)) : Bool :=
  let side (k : Nat) : Nat := (c.filter fun b => b.toNat % 2 = k).length
  decide (side 0 ≤ 4) && decide (side 1 ≤ 4) && decide c.Nodup

/-- A value staged by a block transfer, of up to 2^32 - 1 bytes (R448). -/
def imageFits (b : List Byte) : Bool := decide (b.length < 2 ^ 32)

/-- An SPDM message, within the entry that carries it (R420). -/
def messageFits (m : List Byte) : Bool := decide (4 ≤ m.length) && decide (m.length ≤ 65535)

/-- The data slots of a message: whole slots of 16 bytes, up to 264 of them (R84). -/
def slotsFit (d : List Byte) : Bool := decide (d.length % 16 = 0) && decide (d.length ≤ 264 * 16)

/-- The argument block of a Call: as many slots as its ARG_SLOTS says (R84). -/
def argsFit (w1 : Word) (a : List Byte) : Bool := decide (a.length = 16 * (w1.extractLsb 9 5).toNat)

/-- Readings of 53 dies (R514) and of the 12 cells of a pack (R387), of which a short list leaves some out. -/
def envFits (e : Env) : Bool :=
  decide (e.dieTemps.length ≤ 53) && decide (e.cellMv.length ≤ 12) && decide (e.cellTemps.length ≤ 12)

/-- One item for each of a pack's 12 cells, at most (R387). -/
def cellsFit {α : Type} (l : List α) : Bool := decide (l.length ≤ 12)

/-- A partner advertises its grants of the eight credit types (R86). -/
def partnerFits (p : Partner) : Bool := decide (p.credits.length = 8)

/-- What the members of a vault present: of up to 256 members, digests and hashes of 48 bytes (R483, R487). -/
def viewsFit (v : List PeerView) : Bool :=
  decide (v.length ≤ 256) && v.all fun x => decide (x.cert.length = 48) && decide (x.digest.length = 48)

/-- The units of one brick's read: each once (R369). -/
def faultsFit (f : ReadFaults) : Bool :=
  f.units.all fun u => decide ((f.units.filter fun x => decide (x.unit = u.unit)).length = 1)

/-- A coding table image is 136 bytes (R174). -/
def tableFits (t : List Byte) : Bool := decide (t.length = 136)

/-- The second image of a window's build, where there is one. -/
def expFits (t : List Byte) : Bool := t.isEmpty || tableFits t

/-- What the work of a start step finds. -/
def stepFits : StepEnd → Bool
  | .s01 _ => true
  | .s02 _ => true
  | .s03 b => decide (b.length ≤ 32)
  | .s04 g => decide (g.length ≤ 256)
  | .s05 _ => true
  | .s06 _ => true
  | .s07 _ => true
  | .s08 mv temps esr _ => cellsFit mv && cellsFit temps && cellsFit esr
  | .s09 => true
  | .s10 => true
  | .s11 => true
  | .s12 v => viewsFit v
  | .s13 _ => true

/-- A command that the hardware can be sent. -/
def Instr.wellFormed : Instr → Bool
  | .courseBoundary env => envFits env
  | .cappedReturnFull => true
  | .dieAtLimit _ => true
  | .regionFault _ => true
  | .keeperWatchdog => true
  | .keeperRestartDone => true
  | .quietEnter _ payload => payloadFits payload
  | .quietFreeze => true
  | .quietEntered => true
  | .quietExit _ payload => payloadFits payload
  | .quietExitEnd => true
  | .zeroingPassEnd => true
  | .powerCap _ payload => payloadFits payload
  | .pwrfailNAsserted => true
  | .inputBelow38v => true
  | .braceEnd => true
  | .braceLimit => true
  | .flushComplete _ _ => true
  | .railsFall _ _ => true
  | .powerReturn => true
  | .ptpMeasurement _ _ _ => true
  | .timeBeacon _ _ => true
  | .beaconSend => true
  | .timeHoldover => true
  | .holdoverEstimateAdrift => true
  | .tallyPageDrain => true
  | .tallyBlock _ => true
  | .portRole _ _ payload => payloadFits payload
  | .receiverDetected _ _ => true
  | .detectTimeout _ => true
  | .detectRetry _ => true
  | .equaliseDone _ => true
  | .equaliseLimit _ _ => true
  | .configureExchange _ partner _ _ => partnerFits partner
  | .configureTimeout _ => true
  | .retrain _ _ => true
  | .retrainDone _ _ => true
  | .retrainTimeout _ => true
  | .flitReceived _ flit corrected _ => flitFits flit && correctedFits corrected
  | .nack _ _ => true
  | .ackTimeout _ => true
  | .laneFecLimit _ _ => true
  | .rdLine _ _ _ _ => true
  | .rdOwn _ _ _ _ => true
  | .wrLine _ _ _ _ _ _ => true
  | .wrMask _ _ _ _ _ _ => true
  | .holdThresholdPassed _ _ => true
  | .pinLapse _ _ _ => true
  | .completionTimeout _ _ => true
  | .backInvAnswer _ _ _ => true
  | .backInvTimeout _ _ => true
  | .call _ _ _ _ w1 args => argsFit w1 args
  | .publish _ _ _ _ _ _ => true
  | .publishDecide _ => true
  | .pubSealed _ _ => true
  | .pubReleased _ _ => true
  | .openView _ _ _ _ _ _ _ => true
  | .configCommit _ payload => payloadFits payload
  | .configApply => true
  | .configDiscard _ payload => payloadFits payload
  | .roomErase _ _ payload => payloadFits payload
  | .fetchComplete _ => true
  | .writebackIdle _ => true
  | .writebackAgeMax _ => true
  | .writebackLag _ => true
  | .landingDwell _ => true
  | .landingFillDone _ faults => faultsFit faults
  | .landingSlotFreed _ _ => true
  | .storeReadComplete _ faults => faultsFit faults
  | .stairDeadlinePrefetch _ _ => true
  | .tableLoadImage _ payload => payloadFits payload
  | .tableBind _ _ _ payload => payloadFits payload
  | .tableFree _ payload => payloadFits payload
  | .tableBuilt _ _ byteImage expImage => tableFits byteImage && expFits expImage
  | .packedLoadGo _ _ payload => payloadFits payload
  | .packedLoadPage _ => true
  | .shelfRoom _ payload => payloadFits payload
  | .shelfRanges _ payload => payloadFits payload
  | .shelve _ payload => payloadFits payload
  | .shelveFreeze _ => true
  | .shelveCommit _ => true
  | .unshelve _ payload => payloadFits payload
  | .unshelveSwitch _ => true
  | .unshelveEnd _ => true
  | .shelfRelease _ payload => payloadFits payload
  | .manifestBlock _ => true
  | .hostFailed _ payload => payloadFits payload
  | .hostCrashScanStart _ => true
  | .hostCrashScanEnd _ => true
  | .crashBlock _ => true
  | .pubDefine _ _ _ payload => payloadFits payload
  | .pubDelete _ _ payload => payloadFits payload
  | .viewRegion _ _ _ payload => payloadFits payload
  | .callUnpark _ => true
  | .callTimeout _ => true
  | .callCompletion _ => true
  | .progInstall _ payload => payloadFits payload
  | .progRemove _ payload => payloadFits payload
  | .nop _ _ => true
  | .j _ _ => true
  | .jal _ _ => true
  | .jr _ _ => true
  | .br _ _ => true
  | .fence _ _ => true
  | .stepend _ _ => true
  | .cyc _ _ => true
  | .stamp _ _ => true
  | .add _ _ => true
  | .sub _ _ => true
  | .mul _ _ => true
  | .mulh _ _ => true
  | .mulhu _ _ => true
  | .div _ _ => true
  | .divu _ _ => true
  | .rem _ _ => true
  | .remu _ _ => true
  | .and _ _ => true
  | .or _ _ => true
  | .xor _ _ => true
  | .shl _ _ => true
  | .shr _ _ => true
  | .sar _ _ => true
  | .slt _ _ => true
  | .sltu _ _ => true
  | .min _ _ => true
  | .max _ _ => true
  | .li _ _ => true
  | .fadd _ _ => true
  | .fmul _ _ => true
  | .fmax _ _ => true
  | .lds _ _ => true
  | .sts _ _ => true
  | .ldw _ _ => true
  | .stw _ _ => true
  | .mvw _ _ => true
  | .wins _ _ => true
  | .wext _ _ => true
  | .vadd _ _ => true
  | .vsub _ _ => true
  | .vmul _ _ => true
  | .vfma _ _ => true
  | .vmax _ _ => true
  | .vmin _ _ => true
  | .vbcast _ _ => true
  | .vcvt _ _ => true
  | .vrsum _ _ => true
  | .vrmax _ _ => true
  | .vqmx _ _ => true
  | .mxsplit _ _ => true
  | .mma _ _ => true
  | .mvaw _ _ => true
  | .mvwa _ _ => true
  | .mvat _ _ => true
  | .mvta _ _ => true
  | .tclr _ _ => true
  | .tstat _ _ => true
  | .smx _ _ => true
  | .exp2 _ _ => true
  | .tkinit _ _ => true
  | .topk _ _ => true
  | .scfg _ _ => true
  | .sgo _ _ => true
  | .swait _ _ => true
  | .sstat _ _ => true
  | .sstop _ _ => true
  | .streamEnd _ _ => true
  | .streamStop _ _ => true
  | .refreshForced _ _ => true
  | .rowIdle _ _ _ => true
  | .urgencyUpdate => true
  | .writeQueueDrain _ => true
  | .rowHammerRefresh _ _ _ _ => true
  | .rhTableClear => true
  | .trainingSweep _ => true
  | .trainingSweepEnd _ _ _ => true
  | .storeSetPointMax _ payload => payloadFits payload
  | .setPointWave _ => true
  | .setPointResume _ => true
  | .rankMigrationStart _ => true
  | .rankMigrationEnd _ _ => true
  | .slotDeadCopyEnd _ => true
  | .bankMask _ payload => payloadFits payload
  | .rowProgramTimer _ _ => true
  | .rowProgramDone _ _ _ => true
  | .superblockEraseDone _ _ _ _ => true
  | .relocationStart _ => true
  | .readDisturbRelocate _ _ _ => true
  | .patrol _ _ _ _ => true
  | .cellarReadRecovered _ _ _ => true
  | .cellarRebuildEnd _ => true
  | .mapCheckpoint => true
  | .cellarChannelTraining _ => true
  | .loftScrubPass _ _ => true
  | .scrubPass _ => true
  | .brickRepair _ => true
  | .referrerSearchEnd _ => true
  | .repeatEntryExpire _ _ _ => true
  | .rowWeak _ _ _ => true
  | .ceilingRecompute => true
  | .chargeComplete => true
  | .chargeResume steps => cellsFit steps
  | .cisternFault _ _ => true
  | .cisternFaultClear => true
  | .checkNow _ payload => payloadFits payload
  | .checkInterval => true
  | .checkDischargeStart => true
  | .checkDefer => true
  | .cisternCheck cells => cellsFit cells
  | .cisternReserve _ payload => payloadFits payload
  | .lcAdvance _ payload => payloadFits payload
  | .alarm _ _ => true
  | .eraseDone => true
  | .lockRelease _ payload => payloadFits payload
  | .alarmResponse _ _ payload => payloadFits payload
  | .fwStage _ image => imageFits image
  | .fwActivate _ payload => payloadFits payload
  | .fwRestart _ payload => payloadFits payload
  | .fwCommit _ payload => payloadFits payload
  | .roomKeyGenerate _ _ payload => payloadFits payload
  | .roomKeyImport _ _ payload => payloadFits payload
  | .getVersion _ _ msg => messageFits msg
  | .getCapabilities _ _ msg => messageFits msg
  | .negotiateAlgorithms _ _ msg => messageFits msg
  | .getDigests _ _ msg => messageFits msg
  | .getCertificate _ _ msg => messageFits msg
  | .challenge _ _ msg => messageFits msg
  | .getMeasurements _ _ msg => messageFits msg
  | .keyExchange _ _ msg => messageFits msg
  | .finish _ _ msg => messageFits msg
  | .heartbeat _ _ msg => messageFits msg
  | .keyUpdate _ _ msg => messageFits msg
  | .endSession _ _ msg => messageFits msg
  | .getPqChain _ _ msg => messageFits msg
  | .getPqSignature _ _ msg => messageFits msg
  | .spdmUnsupportedRequest _ _ msg => messageFits msg
  | .write _ _ _ payload => payloadFits payload
  | .blockStart _ _ _ payload => payloadFits payload
  | .blockData _ _ _ payload => payloadFits payload
  | .blockEnd _ _ _ payload => payloadFits payload
  | .blockRead _ _ _ payload => payloadFits payload
  | .blockTransferTimeout _ _ _ => true
  | .sessionIdleTimeout _ => true
  | .uartFrameGap => true
  | .entdaa _ => true
  | .setdasa _ _ => true
  | .rstdaa => true
  | .enec _ => true
  | .disec _ => true
  | .getpid => true
  | .getbcr => true
  | .getdcr => true
  | .getmwl => true
  | .setmwl _ => true
  | .getmrl => true
  | .setmrl _ => true
  | .getstatus => true
  | .rstact _ => true
  | .privateRead => true
  | .functionEnable _ _ => true
  | .functionDisable _ _ => true
  | .functionStarted _ => true
  | .functionSafePoint _ => true
  | .functionStopped _ => true
  | .startBegin => true
  | .startStep e => stepFits e
  | .startStepLimit _ _ => true
  | .ledgerClearCounts _ payload => payloadFits payload
  | .sliceStart => true
  | .sliceEnd _ _ _ => true
  | .selftestFull _ payload _ _ => payloadFits payload
  | .benchRestore _ payload _ => payloadFits payload
  | .vaultJoin _ payload views => payloadFits payload && viewsFit views
  | .vaultLeave _ payload => payloadFits payload
  | .peerFailed _ payload => payloadFits payload
  | .poolGather _ _ payload => payloadFits payload
  | .joinRetry views => viewsFit views
  | .aliveSend => true
  | .peerSilence _ => true
  | .pageMoveResend => true
  | .moveReq _ _ _ _ _ => true
  | .moveOrder _ _ _ _ _ _ => true
  | .moveData _ _ _ _ _ _ data => slotsFit data
  | .moveEmpty _ _ _ _ _ => true
  | .moveSoon _ _ _ _ _ _ => true
  | .moveAck _ _ _ _ _ _ => true
  | .moveRelease _ _ _ _ _ _ => true
  | .moveDefer _ _ _ _ _ _ _ => true
  | .moveRefused _ _ _ _ _ _ => true
  | .moveQuery _ _ _ _ _ => true
  | .alive _ _ _ _ => true
  | .relay _ _ _ frame => slotsFit frame
  | .thermTripNAsserted => true
  | .resetNAsserted => true
  | .resetNDeasserted => true
  | .seatLost => true
  | .inputToggling _ _ => true
  | .inputFaulty _ => true
  | .inputRearm _ payload => payloadFits payload
  | .inputOvervoltage _ => true
  | .inputSwitchClose => true
  | .auxLost _ => true
  | .benchEnNAsserted => true
  | .benchEnNDeasserted => true
  | .ptpAnnounce _ _ => true
  | .rubbleBlock _ => true
  | .presentNAsserted => true
  | .inputDeasserted _ => true
  | .bypass => true
  | .idcode => true
  | .samplePreload _ => true
  | .extest => true

end Sys2Proof
end

