-- ==== Sys2Proof/Tests/Slice0.lean ====
section
/-!
SUPPORT. Sys2Proof/Tests/Slice0.lean: the ill-formed commands that WellFormed refuses, small tests from the spec's own figures, and for each
statement states and operands that meet its hypotheses.
-/

namespace Sys2Proof.Machine.Tests

set_option maxRecDepth 10000

/- ## WellFormed refuses an ill-formed command for each of its checks -/

def bytes (n : Nat) : List Byte := List.replicate n 0
def rq0 : Rq := ⟨.port 0, 1⟩

theorem test_payload_too_long : (Instr.powerCap rq0 (bytes 257)).wellFormed = false := by decide
theorem test_payload_fits : (Instr.powerCap rq0 (bytes 2)).wellFormed = true := by decide
theorem test_flit_short : (Instr.flitReceived 0 (bytes 255) [] true).wellFormed = false := by decide
theorem test_corrected_twice : (Instr.flitReceived 0 (bytes 256) [3, 3] true).wellFormed = false := by decide
theorem test_image_fits : imageFits (bytes 8) = true := by decide
theorem test_message_short : (Instr.getVersion rq0 none [1, 2, 3]).wellFormed = false := by decide
theorem test_move_data_not_whole_slots : (Instr.moveData 0 0 0 0 0 0 (bytes 17)).wellFormed = false := by decide
theorem test_call_args_short : (Instr.call 0 0 0 0 (BitVec.ofNat 64 (2 * 32)) (bytes 16)).wellFormed = false := by decide
theorem test_readings_of_54_dies :
    (Instr.courseBoundary ⟨0, 0, 0, 0, List.replicate 54 0, [], [], 0⟩).wellFormed = false := by decide
theorem test_thirteen_cells : (Instr.chargeResume (List.replicate 13 0)).wellFormed = false := by decide
theorem test_partner_grants : (Instr.configureExchange 0 ⟨.host, true, 0, []⟩ false 0).wellFormed = false := by decide
theorem test_view_without_certificate : (Instr.joinRetry [⟨1, true, true, [], 0, bytes 48, 0, false⟩]).wellFormed = false := by decide
theorem test_unit_read_twice : (Instr.storeReadComplete ⟨0, 0, 0⟩ ⟨[⟨0, []⟩, ⟨0, []⟩], 0, 0⟩).wellFormed = false := by decide
theorem test_table_short : (Instr.tableBuilt 0 0 (bytes 135) []).wellFormed = false := by decide
theorem test_second_table_short : (Instr.tableBuilt 0 0 (bytes 136) (bytes 5)).wellFormed = false := by decide
theorem test_step_with_33_blocks : (Instr.startStep (.s03 (List.replicate 33 (0, 0)))).wellFormed = false := by decide

/- ## States for the witnesses -/

/-- The state after reset with its power in a mode. -/
def inMode (m : PowerMode) : State := State.reset.setPower { Power.init with mode := m }
/-- The module in Full, nothing else done. -/
def fullOn : State := inMode .full

/-- Core 0 with a step that runs at word 0 of 64. -/
def stepCore : Core := { Core.init with running := true, call := some 7, room := some 0, words := 64 }
/-- A module whose core 0 is such a core. -/
def withCore (c : Core) : State := fullOn.setCore 0 c

/- ## States and operands that meet the hypotheses of the statements on cores -/

theorem witness_ScalarIntegerResults :
    (withCore stepCore).runs 0 [] ∧ scalarWord { mod := 1, d := 31, a := 31, imm := 5 } ∧ scalarWord { d := 1, a := 2, b := 31 } := by decide

theorem witness_ScalarOtherResults :
    (withCore stepCore).runs 0 [] ∧ zeroElse {} {} ∧ (zeroElse { d := 31, imm := 5 } { d := true, imm := allImm } ∧ scalarFields [31])
    ∧ (zeroElse { d := 31 } { d := true } ∧ scalarFields [31])
    ∧ (zeroElse { d := 31, a := 1, b := 2 } { d := true, a := true, b := true } ∧ scalarFields [31, 1, 2]) := by decide

theorem witness_JumpsAndBranches :
    (withCore stepCore).issues 0
    ∧ (zeroElse { imm := 63 } { imm := 2 ^ 32 - 1 } ∧ 63 < stepCore.words)
    ∧ (zeroElse { d := 31, imm := 63 } { d := true, imm := 2 ^ 32 - 1 } ∧ scalarFields [31])
    ∧ (zeroElse { a := 31 } { a := true } ∧ scalarFields [31] ∧ (stepCore.sreg 31).toNat < stepCore.words)
    ∧ (∀ cond < 6, zeroElse { mod := BitVec.ofNat 8 (16 * cond), a := 1, b := 31, imm := 63 } { mod := 0xF0, a := true, b := true, imm := 2 ^ 32 - 1 })
    ∧ scalarFields [1, 31] ∧ stepCore.pc + 1 < stepCore.words := by decide

theorem witness_StepsEnd :
    ((withCore stepCore).runs 0 [] ∧ zeroElse { mod := 0xF0, x := 0xFF } { mod := 0xF0, x := 0xFF }
      ∧ ∀ x, x < 8 → (stepCore.stream x).status ≠ ssRun)
    ∧ ((withCore stepCore).issues 0 ∧ zeroElse { mod := 2, a := 31 } { mod := 3, a := true } ∧ scalarFields [31]
      ∧ ∀ t ∈ stepCore.st, t.write = true → t.status ≠ ssRun)
    ∧ ((withCore stepCore).core 0).call = some 7
    ∧ zeroElse { d := 32 } { d := true, a := true, b := true } ∧ zeroElse { imm := 64 } { imm := 2 ^ 32 - 1 } ∧ stepCore.words ≤ 64 := by decide

theorem witness_ScalarRegisterZero : 0 < 31 ∧ 31 < stepCore.s.length := by decide

/-- A core whose s1 holds the last aligned place of the tile store for `n` bytes. -/
def lastPlace (n : Nat) : Core := stepCore.setS 1 (BitVec.ofNat 64 (2097152 - n))

theorem witness_TileStoreAndMoves :
    ((withCore (lastPlace 8)).runs 0 [] ∧ ((lastPlace 8).sreg 1 + 0).toNat + 8 ≤ 2097152 ∧ ((lastPlace 8).sreg 1 + 0).toNat % 8 = 0
      ∧ (zeroElse { d := 31, a := 1 } { d := true, a := true, imm := allImm } ∧ scalarFields [31, 1])
      ∧ (zeroElse { b := 31, a := 1 } { b := true, a := true, imm := allImm } ∧ scalarFields [31, 1]))
    ∧ ((withCore (lastPlace 512)).runs 0 [63] ∧ ((lastPlace 512).sreg 1 + 0).toNat + 512 ≤ 2097152 ∧ ((lastPlace 512).sreg 1 + 0).toNat % 64 = 0
      ∧ zeroElse { d := 63, a := 1 } { d := true, a := true, imm := allImm } ∧ zeroElse { b := 63, a := 1 } { b := true, a := true, imm := allImm })
    ∧ ((withCore stepCore).runs 0 [63, 62] ∧ zeroElse { d := 63, a := 62 } { d := true, a := true })
    ∧ (zeroElse { d := 63, b := 31, imm := 63 } { d := true, b := true, imm := 63 } ∧ scalarFields [31])
    ∧ (zeroElse { d := 31, a := 63, imm := 63 } { d := true, a := true, imm := 63 } ∧ scalarFields [31]) := by decide

theorem witness_TileStoreIsMemory : Memory.wf [(0, 5), (2097151, 1)] ∧ (2097150 < 2097151 ∨ 2097151 + 1 ≤ 2097150) := by decide

/-- The next state of an outcome. -/
def nextOf (o : Host.Outcome State Fault Refusal) : Option State := match o with | .next t => some t | _ => none

theorem witness_TileStoreStoresFrame :
    (stepCore.ts).wf ∧ (withCore stepCore).runs 0 [63]
    ∧ (nextOf (exec (.sts 0 { b := 31, a := 1 }) (withCore (lastPlace 8)))).isSome
    ∧ (nextOf (exec (.stw 0 { b := 63, a := 1 }) (withCore (lastPlace 512)))).isSome
    ∧ (nextOf (exec (.mvat 0 { mod := 0xF0, a := 1 }) (withCore (lastPlace 4096)))).isSome
    ∧ (nextOf (exec (.tkinit 0 { a := 1, b := 2 }) (withCore ((lastPlace 2112).setS 2 256)))).isSome
    ∧ (nextOf (exec (.topk 0 { a := 63, b := 2, c := 1 }) (withCore (lastPlace 2112)))).isSome := by
  refine ⟨by decide, by decide, rfl, rfl, rfl, rfl, rfl⟩

theorem witness_ElementwiseResults :
    (withCore stepCore).runs 0 [63, 62, 61] ∧ zeroElse { mod := 0x2E, d := 63, a := 62, b := 61 } { mod := 0xFE, d := true, a := true, b := true }
    ∧ isMx (Fields.etype { mod := 0x2E }) = false
    ∧ (withCore stepCore).runs 0 [63] ∧ zeroElse { mod := 0xF0, d := 63, a := 31 } { mod := 0xF0, d := true, a := true } ∧ scalarFields [31]
    ∧ isMx (Fields.etype { mod := 0xF0 }) = false := by decide

/-- VCVT of FP32 to FP8 E4M3, into the last bytes of w[D]. -/
def toFp8 : Fields := { mod := 0, d := 63, a := 62, x := 0x300000, imm := 384 * 65536 }
/-- VQMX of FP32 to MXFP8, its scales in the last bytes of w[B]. -/
def toMx : Fields := { d := 63, a := 62, b := 61, x := 0x800000, imm := 508 * 65536 }
/-- MXSPLIT of 16 blocks of MXFP8, from the last place of the tile store. -/
def split16 : Fields := { d := 63, a := 1, b := 61, x := 0x800010, imm := 0 }

theorem witness_ConversionsAndReductions :
    ((withCore stepCore).runs 0 [63, 62] ∧ zeroElse toFp8 { mod := 0xFE, d := true, a := true, x := 0xF00000, imm := 0x1FF01FF }
      ∧ isMx (Fields.etype toFp8) = false ∧ isMx (Fields.fmt toFp8) = false ∧ cvtPlace (Fields.etype toFp8) 0 ∧ cvtPlace (Fields.fmt toFp8) 384
      ∧ 8 * 0 + cvtCount (Fields.etype toFp8) (Fields.fmt toFp8) * widthOf (Fields.etype toFp8) ≤ 4096 ∧ 8 * 384 + cvtCount (Fields.etype toFp8) (Fields.fmt toFp8) * widthOf (Fields.fmt toFp8) ≤ 4096)
    ∧ (zeroElse { mod := 0xD0, d := 31, a := 62 } { mod := 0xFE, d := true, a := true } ∧ scalarFields [31] ∧ isMx (Fields.etype { mod := 0xD0 }) = false)
    ∧ (zeroElse { mod := 0x20, d := 31, a := 62 } { mod := 0xF0, d := true, a := true } ∧ isInt (Fields.etype { mod := 0x20 }) = false)
    ∧ ((withCore stepCore).runs 0 [63, 62, 61]
      ∧ zeroElse toMx { mod := 0xFE, d := true, a := true, b := true, x := 0xF00000, imm := 0x1FF01FF }
      ∧ (Fields.etype toMx) = 0 ∧ isMx (Fields.fmt toMx) ∧ 0 + 4 * (4 * widthOf (Fields.fmt toMx)) ≤ 512 ∧ 508 + 4 ≤ 512)
    ∧ ((withCore (lastPlace 528)).runs 0 [63, 61] ∧ zeroElse split16 { d := true, a := true, b := true, x := 0xF000FF, imm := 0xFF800000001FFFFF }
      ∧ scalarFields [1] ∧ (Fields.fmt split16) = 8 ∧ 16 * 32 ≤ 512 ∧ 0 + 16 ≤ 512 ∧ ((lastPlace 528).sreg 1 + 0).toNat + 16 * 33 ≤ 2097152) := by decide

/-- MMA of two FP16 operands into tile 15, and of two MXFP8 operands whose scales are in w[C]. -/
def mma16 : Fields := { mod := 0xF8, a := 63, b := 62, x := 0x110000 }
def mmaMx : Fields := { mod := 0xF4, a := 63, b := 62, c := 61, x := 0x88E000 }

theorem witness_MatrixAndTiles :
    ((withCore stepCore).runs 0 [63, 62] ∧ zeroElse mma16 { mod := 0xFC, a := true, b := true, c := false, x := 0xFF0000 })
    ∧ ((withCore stepCore).runs 0 [63, 62, 61] ∧ zeroElse mmaMx { mod := 0xFC, a := true, b := true, c := true, x := 0xFFE000 } ∧ isMx 8)
    ∧ ((withCore stepCore).runs 0 (eightFrom 56) ∧ zeroElse { mod := 0xF0, d := 56 } { mod := 0xF0, d := true }
      ∧ zeroElse { mod := 0xF0, a := 56 } { mod := 0xF0, a := true })
    ∧ ((withCore (lastPlace 4096)).runs 0 [] ∧ zeroElse { mod := 0xF0, a := 1 } { mod := 0xF0, a := true, imm := allImm } ∧ scalarFields [1]
      ∧ ((lastPlace 4096).sreg 1 + 0).toNat + 4096 ≤ 2097152 ∧ ((lastPlace 4096).sreg 1 + 0).toNat % 64 = 0)
    ∧ zeroElse { mod := 0xF0 } { mod := 0xF0 } ∧ (zeroElse { mod := 0xF0, d := 31 } { mod := 0xF0, d := true } ∧ scalarFields [31]) := by decide

/-- A core whose s1 points at an empty top-k record of 256 entries at the end of the tile store, and whose s2 holds 256. -/
def topkCore : Core := (((lastPlace 2112).setS 2 256).store (2097152 - 2112) 64 256)

theorem witness_SoftmaxAndTopkResults :
    ((withCore stepCore).runs 0 [63, 62] ∧ zeroElse { mod := 0x80, d := 63, a := 62, x := 0x200000 } { mod := 0xC0, d := true, a := true, x := 0xF00000 }
      ∧ zeroElse { d := 63, a := 62 } { mod := 0xC0, d := true, a := true, x := 0xF00000 }
      ∧ Fields.fmt { x := 0x200000 } = 2 ∧ Fields.fmt {} = 0)
    ∧ ((withCore stepCore).runs 0 [0, 60, 61, 62, 63]
      ∧ zeroElse { mod := 0x10, a := 0, d := 60, x := 0x200000, imm := 32 * 65536 + 0xFFFD } { mod := 0xF0, a := true, d := true, x := 0xF00000, imm := 0x3FFFFF }
      ∧ bitOf (32 * 65536 + 0xFFFD) 1 = false)
    ∧ ((withCore topkCore).runs 0 [] ∧ zeroElse { a := 1, b := 2 } { mod := 0xC0, a := true, b := true, imm := allImm } ∧ scalarFields [1, 2]
      ∧ (topkCore.sreg 1 + 0).toNat % 64 = 0 ∧ 1 ≤ (topkCore.sreg 2).toNat ∧ (topkCore.sreg 2).toNat ≤ 256
      ∧ (topkCore.sreg 1 + 0).toNat + 64 + 8 * (topkCore.sreg 2).toNat ≤ 2097152)
    ∧ ((withCore topkCore).runs 0 [63]
      ∧ zeroElse { a := 63, b := 2, c := 1, x := 0x200000 } { mod := 0xC0, a := true, b := true, c := true, x := 0xF00000, imm := allImm }
      ∧ topkCore.load (2097152 - 2112) 4 = 256 ∧ topkCore.load (2097152 - 2112 + 4) 4 = 0 ∧ 2097152 - 2112 + 64 + 8 * 256 ≤ 2097152)
    ∧ [(0, 1)].length ≤ 1 ∧ ofFp32 0x7FC00000 = Val.nan ∧ ∀ e ∈ [(0, 1)], ofFp32 e.1 ≠ Val.nan := by decide

/-- A call of room 0 with a step on core 0. -/
def someCall : Call := ⟨7, 1, 0, 0, 7, 32, 65536, [], 0, some 0, .ready, 0, 0, false, false, 0, [], [], none, none⟩
/-- A context that reads so many bytes to the tile store. -/
def reading (status moved : Nat) : Stream := ⟨true, false, 0, 64, 0, 0, 2, 0, status, moved, 0, [], none, none⟩
/-- A module whose core 0 has such a context for context 7. -/
def streaming (status moved : Nat) : State :=
  let s := withCore (stepCore.setStream 7 (reading status moved))
  s.setCores { s.cores with calls := [someCall] }

/-- A state with bytes left to any class. -/
def withBudget (s : State) : State := s.setAdm { s.adm with remainder := 64 }

theorem witness_StreamsRunAndEnd :
    ((withCore ((stepCore.setS 2 64).setS 3 0)).runs 0 []
      ∧ zeroElse { mod := 0xE0, a := 1, b := 2, c := 3, imm := 2 * 2 ^ 61 + 2097088 } { mod := 0xE0, a := true, b := true, c := true, imm := 0xE0000000001FFFFF }
      ∧ scalarFields [1, 2, 3] ∧ Stream.valid ⟨true, false, 0, 64, 0, 0, 2, 2097088, ssIdle, 0, 0, [], none, none⟩)
    ∧ (∀ x ∈ [ssIdle, ssEnd, ssPoison, ssDenied, ssAbsent, ssHeld], (streaming x 0).runs 0 [] ∧ (((streaming x 0).core 0).stream 7).configured
      ∧ (((streaming x 0).core 0).stream 7).status = x)
    ∧ (zeroElse { mod := 0xE0, d := 31, a := 1 } { mod := 0xE0, d := true, a := true } ∧ scalarFields [31, 1])
    ∧ (zeroElse { mod := 0xE0, d := 31 } { mod := 0xE0, d := true, imm := 3 } ∧ zeroElse { mod := 0xE0, d := 31, imm := 2 } { mod := 0xE0, d := true, imm := 3 })
    ∧ zeroElse { mod := 0xE0 } { mod := 0xE0 }
    ∧ (((streaming ssRun 64).core 0).running ∧ (((streaming ssRun 64).core 0).stream 7).status = ssRun
      ∧ ((((streaming ssRun 64).streamOut 0 7).core 0).stream 7).status = ssEnd)
    ∧ ((((withBudget (streaming ssRun 0)).core 0).stream 7).status = ssRun ∧ ((((withBudget (streaming ssRun 0)).streamOut 0 7).core 0).stream 7).status = ssDenied)
    ∧ (((streaming ssRun 0).streamOut 0 7).core 0).ending = none := by
  refine ⟨by decide, by decide, by decide, by decide, by decide, by decide, by decide, by decide⟩

/- ## Requests to the object dictionary -/

/-- A module whose port 0 is an Up Companion. -/
def byPort (m : PowerMode) : State := (inMode m).setPort 0 { Port.init with role := .companion, link := .up }
/-- A request from port 0, one from the board and one from the bench. -/
def rq : Rq := ⟨.port 0, 1⟩
def rqBench : Rq := ⟨.uart, 1⟩
/-- A module with the bench connected. -/
def byBench (m : PowerMode) : State := (inMode m).setBoard { Board.init with bench := true }
/-- The payload of a command. -/
def one : List Byte := [1]

theorem witness_PowerRequestsTakeEffect :
    ((byPort .full).takes rq .quietEnter 0 0 one ∧ ofLe one = 1 ∧ ((byPort .full).openSess rq.src).serving
      ∧ ((byPort .full).openSess rq.src).power.quiet = .none ∧ ((byPort .full).openSess rq.src).quietFits)
    ∧ ((byPort .quiet).takes rq .quietExit 0 0 one ∧ ((byPort .quiet).openSess rq.src).quieted)
    ∧ ((byPort .full).takes rq .powerCap 0 0 (leBytes 2 300) ∧ (byPort .full).takes rq .powerCap 0 0 (leBytes 2 650)) := by decide

theorem witness_RoomRequestsTakeEffect :
    ((byPort .full).takes rq .configCommit 0 0 one ∧ ((byPort .full).openSess rq.src).adm.commitAt = none)
    ∧ (byPort .full).takes rq .configDiscard 0 0 one
    ∧ ((byPort .full).takes rq .roomErase 63 0 one ∧ (((byPort .full).openSess rq.src).fn (.room 63)).state = .off
      ∧ ((((byPort .full).openSess rq.src).eraseRoom 63).fn (.room 63)).cause ≠ 8) := by decide

theorem witness_RolesAndFunctionRequests :
    ((byPort .full).takes rq .portRole 31 0 (leBytes 2 1) ∧ (byPort .full).takes rq .portRole 31 0 (leBytes 2 2)
      ∧ (∃ q < 32, q ≠ 31 ∧ ((byPort .full).openSess rq.src).wantedRole q = .companion))
    ∧ ((byPort .full).takes rq .portRole 31 0 (leBytes 2 0) ∧ ∀ k < 64, ((byPort .full).openSess rq.src).owns 31 k = false)
    ∧ ((byPort .full).takes rq (fnEnt (.stair 255)).1 (fnEnt (.stair 255)).2.1 (fnEnt (.stair 255)).2.2 (leBytes 2 1))
    ∧ ((byPort .full).takes rq (fnEnt (.port 31)).1 (fnEnt (.port 31)).2.1 (fnEnt (.port 31)).2.2 (leBytes 2 0)
      ∧ ∀ p, FnId.port 31 = .port p → ((byPort .full).openSess rq.src).lastCompanion p = false)
    ∧ FnId.room 0 ≠ .room 63 := by
  refine ⟨by decide, by decide, by decide, ⟨by decide, ?_⟩, by decide⟩
  rintro p ⟨⟩; decide

theorem witness_WindowedReadsAnswer :
    (byPort .full).gives rq .tallyBlock 0 0 ∧ (byPort .full).gives rq .manifestBlock 0 0
    ∧ ((byPort .full).gives rq .crashBlock 0 0 ∧ (getCrashBlock rq.src ((byPort .full).openSess rq.src)).1.length ≤ 256)
    ∧ (byPort .full).gives rq .rubbleBlock 0 0 := by decide

/-- The table image in which one code of one bit stands for value 0 and the other for the escape (R172). -/
def tableImage : List Byte :=
  let head : List Byte := [1, 0x11, 0, 0]
  let lens : List Byte := 0x10 :: List.replicate 127 0
  head ++ leBytes 4 (crc32c (head ++ lens)) ++ lens

/-- A room that is On with two windows of 2 MiB, window 0 from address 0 and window 1 behind it. -/
def loadRoom : State :=
  let s := (byPort .full).setFn (.room 63) { FnWord.init with state := .on }
  let s := (s.setVal .windowSize 63 0 2097152).setVal .windowBase 63 1 2097152
  let s := (s.setVal .windowSize 63 1 2097152).setVal .packedLoadDst 63 0 2097152
  s.setVal .packedLoadPages 63 0 512

theorem witness_TableRequestsTakeEffect :
    ((byPort .full).takes rq .tableLoadImage 0 0 tableImage ∧ tableImage.length = 136 ∧ tableCheck tableImage = 0
      ∧ ((byPort .full).openSess rq.src).slotBound (((byPort .full).openSess rq.src).sessVal rq.src .tableLoadSlot) = false)
    ∧ (let s := (byPort .full).setVal .roomTableMode 63 0 0
      s.takes rq .tableBind 63 31 (leBytes 2 0) ∧ (s.openSess rq.src).tableCount 63 31 = 0 ∧ (s.openSess rq.src).val .roomTableMode 63 0 = 0
        ∧ bitOf (ofLe (leBytes 2 0)) 15 = false)
    ∧ ((byPort .full).takes rq .tableFree 0 0 (leBytes 2 4095) ∧ ((byPort .full).openSess rq.src).slotBound 4095 = false ∧ ofLe (leBytes 2 4095) = 4095)
    ∧ (let u := loadRoom.openSess rq.src
      loadRoom.takes rq .packedLoadGo 63 0 one ∧ (u.load 63).state ≠ 1 ∧ u.roomOn 63
        ∧ u.windowAt 63 0 = some 0 ∧ u.windowAt 63 2097152 = some 1 ∧ u.val .packedLoadSrc 63 0 = 0 ∧ u.val .packedLoadDst 63 0 = 2097152
        ∧ u.val .packedLoadPages 63 0 = 512 ∧ 2097152 + 4096 * 512 ≤ u.val .windowBase 63 1 + u.val .windowSize 63 1
        ∧ 0 + 128 * 512 ≤ u.val .windowBase 63 0 + u.val .windowSize 63 0 ∧ attrSealed (u.attr 63 1) = false ∧ u.viewOf 63 1 = none) := by
  refine ⟨by decide +kernel, by decide, by decide, by decide⟩

/-- Shelf 4095, which the session of port 0 has selected and which is allotted to room 63. -/
def shelfState : State :=
  let s := loadRoom.openSess rq.src
  (s.setSessVal rq.src .shelfSelect 4095).setShelf 4095 { Shelf.init with room := 63 }

theorem witness_ShelfRequestsTakeEffect :
    ((byPort .full).takes rq .shelfRoom 0 0 [63] ∧ ofLe [63] < 64
      ∧ (let u := (byPort .full).openSess rq.src
        (u.shelf (u.sessVal rq.src .shelfSelect)).room ≠ 63 ∧ (u.shelf (u.sessVal rq.src .shelfSelect)).vers = []
          ∧ (u.shelf (u.sessVal rq.src .shelfSelect)).job = none))
    ∧ (let p : List Byte := leBytes 8 0 ++ leBytes 8 4096 ++ leBytes 8 8192 ++ leBytes 8 4096 ++ List.replicate 224 0
      let u := shelfState.openSess rq.src
      let l := rangesOf 16 p
      shelfState.takes rq .shelfRanges 0 0 p ∧ p.length = 256 ∧ u.sessVal rq.src .shelfSelect = 4095 ∧ (u.shelf 4095).room = 63
        ∧ l = [(0, 4096), (8192, 4096)] ∧ apart l ∧ (∀ r ∈ l, u.meetsPool 63 r = false) ∧ u.rangesFit 63 l
        ∧ (u.shelves.filter fun e => decide (e.1 ≠ 4095) && decide (e.2.room = 63)) = [])
    ∧ (let p : List Byte := leBytes 1 1 ++ [0] ++ leBytes 2 4095 ++ leBytes 4 0
      let u := shelfState.openSess rq.src
      shelfState.takes rq .shelfCommand 0 0 p ∧ (u.shelf 4095).room < 64 ∧ u.classOf rq.src = some .steward ∧ (u.shelfOp 1 4095 0 .od).1 = 0) := by
  refine ⟨by decide, by decide, by decide⟩

/-- A retained version of a shelf. -/
def shelfVer (version : Nat) : ShelfVer := ⟨version, 0, 0, [], [], [], []⟩

theorem witness_ShelfJobsBegin :
    ((shelfState.shelf 4095).job = none ∧ shelfState.slotsLow = false ∧ (shelfState.shelf 4095).vers.length < 32 ∧ (shelfState.shelf 4095).highest ≠ 0xFFFFFFFF)
    ∧ (let s := shelfState.setShelf 4095 { Shelf.init with room := 63, vers := [shelfVer 5] }
      (s.shelf 4095).job = none ∧ (s.shelf 4095).vers.find? (fun x => x.version = 5) = some (shelfVer 5)
        ∧ s.rangesFit (s.shelf 4095).room (s.shelf 4095).ranges ∧ s.roomOn (s.shelf 4095).room)
    ∧ ((shelfState.setShelf 4095 { Shelf.init with job := some ⟨1, 0, .od, false, false, 0, [], [], [], [], [], 0, 0, none⟩ }).shelf 4095).job.isSome := by
  refine ⟨by decide, by decide, by decide⟩

/-- Windows 0 of room 63 fit for a publisher: durable, published. -/
def pubRoom63 : State := loadRoom.setVal .windowAttr 63 0 (2 ^ 20 + 2 ^ 18)
/-- Region 255 in that window. -/
def pubRegion255 : State := ((pubRoom63.setVal .pubRoom 255 0 63).setVal .pubBase 255 0 0).setVal .pubSize 255 0 2097152

/-- The least program image: a header of 64 bytes and one word (R274). -/
def progImage : List Byte := [1, 0, 0, 0] ++ leBytes 4 1 ++ List.replicate 72 0
/-- A session of port 0 that has selected program 5, its image and digest loaded. -/
def progState : State :=
  let s := ((byPort .full).openSess rq.src).setSessVal rq.src .progSelect 5
  (s.setBlob .progImage 0 0 progImage).setBlob .progDigest 0 0 (sha384 progImage)

theorem witness_PublishAndProgramRequests :
    (let s := ((byPort .full).setPort 31 { Port.init with role := .host }).setFn (.port 31) { FnWord.init with state := .on };
      s.takes rq .hostFailed 0 0 [31] ∧ ((s.openSess rq.src).roleOf 31 = .host) ∧ ((s.openSess rq.src).fn (.port 31)).state ≠ .off)
    ∧ (let u := pubRoom63.openSess rq.src;
      pubRoom63.takes rq .pubRoom 255 0 [63] ∧ (u.pub 255).vers = [] ∧ pubRoom63.takes rq .pubBase 255 0 (leBytes 8 4096)
        ∧ pubRegion255.takes rq .pubSize 255 0 (leBytes 8 2097152)
        ∧ (pubRegion255.openSess rq.src).rangeIn 63 (fun a => attrDurable a && attrPublisher a) 17 0 2097152)
    ∧ (pubRegion255.takes rq .pubDelete 255 0 one ∧ ∀ x ∈ ((pubRegion255.openSess rq.src).pub 255).vers, (pubRegion255.openSess rq.src).openViews 255 x.version = [])
    ∧ (let u := pubRegion255.openSess rq.src;
      pubRegion255.takes rq .viewRegion 63 1 (leBytes 2 0) ∧ pubRegion255.takes rq .viewRegion 63 1 (leBytes 2 (128 * 256 + 255))
        ∧ u.val .windowSize 63 1 ≠ 0 ∧ u.pubDefined 255 ∧ u.val .windowSize 63 1 = u.val .pubSize 255 0 ∧ u.poolWindow 63 1 = false
        ∧ u.val .viewRegion 63 1 ≠ 128 * 256 + 255 ∧ ∀ e ∈ u.pages, pageRoom e.1 ≠ 63)
    ∧ (let u := progState.openSess rq.src;
      progState.takes rq .progInstall 0 0 one ∧ u.sessVal rq.src .progSelect = 5 ∧ sha384 (u.blob .progImage 0 0 []) = fit 48 (u.blob .progDigest 0 0 [])
        ∧ imageOk (u.blob .progImage 0 0 []) ∧ handleReserved 5 = false ∧ (u.blob .progImage 0 0 []).length ≤ u.progFree ∧ u.cores.progs.length < 256)
    ∧ (let s := progState.setCores { progState.cores with progs := [⟨0, 5, 0, progImage, true⟩] };
      s.takes rq .progRemove 0 0 one ∧ (s.openSess rq.src).cores.progs.any (fun x => x.current && decide (x.handle = 5))) := by
  refine ⟨by decide, by decide, by decide, by decide, by decide +kernel, by decide +kernel⟩

/-- A module in the Bench lifecycle, the bench connected. -/
def inBench : State := (byBench .full).setSec { Sec.init with log := [1, 2, 3] }

theorem witness_SettingsAndBenchRequests :
    ((byPort .full).takes rq .storeSetPointMax 0 0 (leBytes 2 2))
    ∧ (let p : List Byte := leBytes 4 1 ++ leBytes 4 2 ++ leBytes 4 4 ++ leBytes 4 8;
      inBench.takes rqBench .bankMask 0 0 p ∧ p.length = 16 ∧ masksOk (masksOf p))
    ∧ (byPort .full).takes rq .checkNow 0 0 one
    ∧ ((byPort .full).takes rq .cisternReserve 0 0 (leBytes 2 1000) ∧ (byPort .full).takes rq .cisternReserve 0 0 (leBytes 2 3000))
    ∧ ((byPort .full).takes rq .ledgerClearCounts 0 0 (leBytes 2 383) ∧ (byPort .full).takes rq .ledgerClearCounts 0 0 (leBytes 2 512)
      ∧ (byPort .full).takes rq .ledgerClearCounts 0 0 (leBytes 2 799))
    ∧ (let s := ((byPort .full).setInput 0 ⟨true, false, true, true, 0, none⟩).setInput 1 ⟨false, false, true, true, 0, none⟩;
      s.takes rq .inputRearm 0 0 [3] ∧ ∀ i < 2, bitOf (ofLe [3]) i → ((s.openSess rq.src).input i).faulty ∧ ((s.openSess rq.src).input i).seen)
    ∧ (let s := (byPort .full).setStart { Start.init with step := 14 };
      s.takes rq .selftestFull 0 0 one ∧ (s.openSess rq.src).lifecycle = 0 ∧ (s.openSess rq.src).start.step = 14)
    ∧ (let s := inBench.setRetired [3 * 1024 + 0x3A];
      s.takes rqBench .benchRestore 0 0 (leBytes 2 (3 * 4096 + 0x3A)) ∧ (s.openSess rqBench.src).lifecycle = 3
        ∧ (s.openSess rqBench.src).isRetired 3 0x3A) := by
  refine ⟨by decide, by decide, by decide, by decide, by decide, by decide, by decide, by decide⟩

theorem witness_SecurityRequestsTakeEffect :
    (let u := inBench.openSess rqBench.src;
      inBench.takes rqBench .lcAdvance 0 0 (leBytes 2 1) ∧ u.lcAllowed 1 ∧ u.sec.erasing = none ∧ ¬ (u.lifecycle = 2 ∧ 1 = 3))
    ∧ (let s := (byBench .full).setSec { Sec.init with log := [1, 2] };
      let u := s.openSess rqBench.src;
      s.takes rqBench .lcAdvance 0 0 (leBytes 2 3) ∧ u.lcAllowed 3 ∧ u.sec.erasing = none ∧ u.lifecycle = 2)
    ∧ (let s := byPort .full;
      let u := s.openSess rq.src;
      s.odLive rq.src ∧ (s.classOf rq.src).isSome ∧ u.barred rq.src .fwStage 0 0 (some 0) noCalls = none
        ∧ lengthFits Ent.fwStage.row 20480 ∧ u.stageSlot = some 1)
    ∧ (let s := (byPort .quiet).setSlot 1 ⟨.staged, 1, 5, [], true⟩;
      s.takes rq .fwActivate 0 0 one ∧ (upTo 2).find? (fun i => ((s.openSess rq.src).slot i).mode = .staged) = some 1
        ∧ s.takes rq .fwRestart 0 0 one ∧ (s.openSess rq.src).power.mode = .quiet)
    ∧ (let s := ((byPort .full).setSlot 0 ⟨.trial, 1, 5, [], true⟩).setStart { Start.init with step := 14 };
      let u := s.openSess rq.src;
      s.takes rq .fwCommit 0 0 one ∧ (u.slot u.sec.running).mode = .trial ∧ u.start.step = 14 ∧ u.sec.running < 2 ∧ u.sec.slots.length = 2)
    ∧ (let s := (byPort .full).setSec { Sec.init with lockState := 1 };
      s.takes rq .lockRelease 0 0 one ∧ (s.openSess rq.src).sec.lockState ≠ 0 ∧ (s.openSess rq.src).sec.hard &&& (s.openSess rq.src).sec.tripped = 0)
    ∧ ((byPort .full).takes rq .alarmResponse 0 5 (leBytes 2 2) ∧ ((byPort .full).openSess rq.src).alarmSet 5 ≤ 2)
    ∧ ((byPort .full).takes rq .roomKeyGenerate 63 0 one ∧ ((byPort .full).openSess rq.src).keyWanted 63)
    ∧ (let s := (byPort .full).setSec { Sec.init with spdm := [⟨rq.src, .negotiated, [], [], none, 2, 1, 0, 0, [], [], [], 0, 0⟩] };
      s.takes rq .roomKeyImport 63 0 (leBytes 64 1) ∧ s.secured rq.src ∧ (leBytes 64 1).length = 64 ∧ (s.openSess rq.src).keyWanted 63
        ∧ keysEqual (BitVec.ofNat 512 (ofLe (leBytes 64 1))) = false) := by
  refine ⟨by decide, by decide, by decide, by decide, by decide, by decide, by decide, by decide, by decide +kernel⟩

theorem witness_VaultRequestsTakeEffect :
    ((byPort .full).takes rq .vaultJoin 0 0 one ∧ ((byPort .full).openSess rq.src).poolConflict = false)
    ∧ (let s := (byPort .full).setVault { Vault.init with mode := .joined, far := [(5, .asked)] };
      let u := s.openSess rq.src;
      s.takes rq .vaultLeave 0 0 one ∧ u.vault.records = [] ∧ u.vault.here = [] ∧ u.vault.leaving = []
        ∧ u.vault.far.any (fun e => decide (e.2 = FarMode.landed)) = false)
    ∧ (let s := (byPort .full).setPeer 4095 ⟨.joined, 0, 0, 0, false⟩;
      s.takes rq .peerFailed 0 0 (leBytes 2 4095) ∧ ((s.openSess rq.src).peer 4095).st = .joined)
    ∧ (let s := (byPort .full).setVault { Vault.init with mode := .joined };
      s.takes rq .poolGather 63 0 one ∧ (s.openSess rq.src).vault.mode = .joined) := by
  refine ⟨by decide, by decide, by decide, by decide⟩

theorem witness_WriteSetsAnEntry :
    Ent.at 0x111F 0x05 = some (.holdThreshold, 31, 0) ∧ (byPort .full).takes rq .holdThreshold 31 0 [64]
    ∧ Ent.portRole.row.key 31 0 ≠ Ent.holdThreshold.row.key 31 0
    ∧ Ent.at 0xFFFF 0xFF = none ∧ (byPort .full).odLive rq.src ∧ ((byPort .full).classOf rq.src).isSome := by
  refine ⟨by decide, by decide, by decide, by decide, by decide, by decide⟩

/-- A block transfer to SHELF_RANGES of 256 bytes: `got` of them have come. -/
def transferred (got : Nat) : State :=
  let s := loadRoom.openSess rq.src
  s.putTransfer rq.src ⟨Ent.shelfRanges.row.key 0 0, 256, List.replicate got 0, 1, 0⟩

theorem witness_BlockTransfers :
    Ent.at 0x3800 0x03 = some (.shelfRanges, 0, 0) ∧ (byPort .full).odLive rq.src ∧ ((byPort .full).classOf rq.src).isSome
    ∧ (let u := loadRoom.openSess rq.src;
      u.barred rq.src .shelfRanges 0 0 (some 0) u.callRooms = none ∧ blockEntry .shelfRanges ∧ (leBytes 4 256).length = 4
        ∧ octetsFit .shelfRanges (ofLe (leBytes 4 256)) ∧ u.transferElsewhere rq.src (Ent.shelfRanges.row.key 0 0) = false
        ∧ u.barred rq.src .shelfRanges 0 0 none u.callRooms = none ∧ Ent.shelfRanges.row.acc = .rw)
    ∧ (let u := (transferred 0).openSess rq.src;
      u.power.keeperDown = false ∧ u.transfer rq.src (Ent.shelfRanges.row.key 0 0) = some ⟨Ent.shelfRanges.row.key 0 0, 256, [], rq.seq.toNat, 0⟩
        ∧ List.replicate 256 (0 : Byte) ≠ [] ∧ 0 + (List.replicate 256 (0 : Byte)).length ≤ 256)
    ∧ (let u := (transferred 256).openSess rq.src;
      u.transfer rq.src (Ent.shelfRanges.row.key 0 0) = some ⟨Ent.shelfRanges.row.key 0 0, 256, List.replicate 256 0, rq.seq.toNat, 0⟩
        ∧ (List.replicate 256 (0 : Byte)).length = 256) := by
  refine ⟨by decide, by decide, by decide, by decide, by decide, by decide⟩

/-- A time so many courses after the start of time. -/
def atCourse (n : Nat) (s : State) : State := s.setTime { s.time with course := n }

theorem witness_TransportsEndAndI3c :
    (let s := atCourse 5000000 (transferred 0);
      s.transfer (.port 0) (0x3800 * 256 + 3) = some ⟨0x3800 * 256 + 3, 256, [], 1, 0⟩ ∧ 0 + 5000000 * 4096 ≤ s.now)
    ∧ (let s := atCourse 15000000 (fullOn.openSess (.rack 5));
      s.sess (.rack 5) = some ⟨.rack 5, [], [], 0, []⟩ ∧ 0 + 15000000 * 4096 ≤ s.now)
    ∧ ((byBench .full).board.bench ∧ (byBench .full).odLive .uart)
    ∧ (0x12 = (fullOn.setVal .i3cStaticAddr 0 0 0x12).val .i3cStaticAddr 0 0)
    ∧ (fullOn.auxIn ∧ fullOn.od.i3c.addr = 0 ∧ (1 : Byte).getLsbD 0)
    ∧ (fullOn.i3cAddress 127).i3cOn := by
  refine ⟨by decide, by decide, by decide, by decide, by decide, by decide⟩

theorem witness_TimeStateFollowsMeasurements :
    fullOn.time.mode = .free ∧ ((if (1001 : Int).natAbs ≤ 250 then TimeMode.locked else .adrift) ≠ .free)
    ∧ ((inMode .full).setTime { Time.init with mode := .locked }).time.mode = .locked := by decide

/-- A module in Holdover, its last measurement 500,000 courses ago and 1.001 µs off. -/
def adrift : State := fullOn.setTime { Time.init with mode := .holdover, course := 500000, offset := 1001 }

theorem witness_TimeAndTallyCommands :
    (fullOn.timeless = false ∧ (0 : Byte).toNat = fullOn.val .ptpDomain 0 0 ∧ fullOn.time.master = none)
    ∧ (let s := fullOn.setPort 31 { Port.init with role := .peer, link := .up };
      s.dark = false ∧ s.isUp 31 ∧ s.roleOf 31 = .peer ∧ s.ptpActive = false ∧ (⟨true, true, 2, 0, 0, 0, 0⟩ : Beacon).locked)
    ∧ (let s := fullOn.setTime { Time.init with mode := .loose, course := 500000 };
      s.time.mode = .loose ∧ s.time.lastMeas + 500000 * 4096 ≤ 4096 * s.time.course ∧ s.dark = false ∧ s.time.pos = 0)
    ∧ (adrift.time.mode = .holdover ∧ adrift.dark = false ∧ adrift.time.pos = 0
      ∧ 1000 * (500000 * 4096) < adrift.time.offset.natAbs * (500000 * 4096) + 100 * (4096 * adrift.time.course - adrift.time.lastMeas))
    ∧ (let s := (fullOn.setTally { Tally.init with entries := [⟨0, 0, 0, 0, 0, 0, 0, false, false, 0, []⟩] }).setTime { Time.init with course := 500 };
      s.dark = false ∧ s.pageDue) := by decide

/- ## Time, power and links -/

theorem witness_EventsAndNotifications :
    (fullOn.tally.sealed = false ∧ fullOn.power.keeperDown = false ∧ fullOn.tally.held = [] ∧ fullOn.tally.infoOff = false ∧ fullOn.tally.noticeOff = false
      ∧ 10 * fullOn.tally.undrained + 10 < 9 * 2097152 ∧ fullOn.nextSeq 3 1023 < 2 ^ 32 - 1)
    ∧ (NotifyQueue.init.queue.length < 256
      ∧ (NotifyQueue.mk (List.replicate 256 ⟨0, 0, 0, 0, 0, 0, 0, false, false, 0, []⟩) 0 0 none).queue.length = 256) := by decide

/-- A power record in a mode. -/
def power (m : PowerMode) : Power := { Power.init with mode := m }

theorem witness_PowerStateEvents :
    ((power .capped).mode = .capped ∧ 1000 ≤ { power .capped with calmRun := 1000 }.calmRun ∧ (power .capped).step = 0)
    ∧ (let s := State.reset.setPower { power .full with quiet := .writing };
      s.power.quiet = .writing ∧ s.time.pos = 0 ∧ (s.quietPages.map fun e => storedSize e.2.store).sum ≤ 5000000)
    ∧ (let s := State.reset.setPower { power .full with quiet := .frozen };
      s.power.quiet = .frozen ∧ s.reqs.opened.all (fun r => decide (r.why = .quiet)) ∧ s.quietPages = [] ∧ s.landing = []
        ∧ s.shelves.all fun e => e.2.job.isNone)
    ∧ { power .quiet with exitAt := some 5 }.exitAt.isSome ∧ { power .full with zeroing := true }.zeroing
    ∧ (fullOn.isRunning ∧ (fullOn.input 0).faulty = false)
    ∧ ((inMode .brace).power.mode = .brace ∧ (inMode .brace).reqs.opened = [] ∧ (inMode .brace).pubs.waiting = [] ∧ (inMode .brace).pubs.opens = [])
    ∧ (let s := (inMode .brace).setTime { Time.init with course := 65536 };
      s.power.mode = .brace ∧ s.power.braceStamp + 4096 * s.val .braceLimit 0 0 ≤ s.now)
    ∧ (((inMode .sealed).setBoard { Board.init with pins := [] }).powerReturns) := by
  refine ⟨by decide, by decide, by decide, by decide, by decide, by decide, by decide, by decide, by decide⟩

theorem witness_FlushAndRailsEnd :
    ∀ m ∈ [PowerMode.flush, .sealed, .off, .brace, .starting], (inMode m).power.mode = m := by decide

theorem witness_FailuresAndWatchdog :
    (let s := fullOn.setBoard { Board.init with hot := [(0, 50), (4, 50), (36, 50), (52, 50)] };
      s.dark = false ∧ (∀ d ∈ [0, 4, 36, 52], 50 ≤ Tbl.get s.board.hot d 0) ∧ (∀ c < 32, s.isRetired (c / 8) (cchanUnit c) = false))
    ∧ fullOn.isRunning ∧ fullOn.power.keeperRestart = none
    ∧ (let s := (State.reset.setPower { power .full with keeperRestart := some 1 }).setTime { Time.init with course := 300000000 };
      s.isRunning ∧ s.power.keeperRestart = some 1 ∧ s.now < 1 + 300000000 * 4096)
    ∧ { power .full with keeperDown := true }.keeperDown := by decide

theorem witness_CoursesAndTheGovernor :
    (State.reset.power.mode = .off ∧ fullOn.power.mode ≠ .off ∧ (inMode .sealed).power.mode = .sealed)
    ∧ (Power.init.core < 6 ∧ Power.init.cut = none ∧ Power.init.x2 = false ∧ Power.init.store = 0)
    ∧ (6 ≤ { Power.init with core := 6, store := 2, x2 := true }.core ∧ 2 ≤ { Power.init with core := 6, store := 2, x2 := true }.store)
    ∧ { Power.init with cut := some 0 }.cut.isSome := by decide

/-- A module with port 31 in a state. -/
def linked (m : LinkMode) : State := fullOn.setPort 31 { Port.init with role := .host, link := m, lanes := 15 }

theorem witness_LinkStatesFollowTheTable :
    (((linked .detect).port 31).link = .detect ∧ (linked .detect).goodLanes 31 8 ≠ 0 ∧ (atCourse 500 (linked .detect)).now ≤ ((linked .detect).port 31).since + 500 * 4096)
    ∧ (atCourse 500 (linked .detect)).now = 500 * 4096
    ∧ (let s := atCourse 5000 (((linked .down).setFn (.port 31) { FnWord.init with state := .starting }).updPort 31 fun q => { q with retry := true });
      (s.port 31).link = .down ∧ (s.port 31).retry ∧ (s.fn (.port 31)).state = .starting ∧ (s.port 31).since + 5000 * 4096 ≤ s.now)
    ∧ (let s := atCourse 2500 (linked .equalise);
      (s.port 31).link = .equalise ∧ (s.port 31).since + 2500 * 4096 ≤ s.now ∧ s.now ≤ (s.port 31).since + 2500 * 4096 ∧ s.goodLanes 31 ((s.port 31).lanes &&& 0) = 0
        ∧ s.goodLanes 31 ((s.port 31).lanes &&& 1) ≠ 0)
    ∧ (let s := atCourse 500 (linked .configure);
      (s.port 31).link = .configure ∧ s.now ≤ (s.port 31).since + 500 * 4096 ∧ (s.port 31).since + 500 * 4096 ≤ s.now ∧ (s.port 31).role = .host ∧ (linkWidth (s.goodLanes 31 15) (s.mostLanes 31)).1 = 4
        ∧ s.val .portMinWidth 31 0 ≤ 4 ∧ 4 < (s.setVal .portMinWidth 31 0 5).val .portMinWidth 31 0)
    ∧ ((linked .up).port 31).link = .up
    ∧ (let s := (linked .retrain).updPort 31 fun q => { q with oldWidth := 4 };
      (s.port 31).link = .retrain ∧ (linkWidth (s.goodLanes 31 0) 4).1 < max 1 (s.val .portMinWidth 31 0)
        ∧ max 1 (s.val .portMinWidth 31 0) ≤ (linkWidth (s.goodLanes 31 15) (min (s.port 31).oldWidth (s.mostLanes 31))).1)
    ∧ ((atCourse 250 (linked .retrain)).port 31).since + 250 * 4096 = (atCourse 250 (linked .retrain)).now
    ∧ ((linked .up).updPort 31 fun q => { q with sinceAck := 512 }).port 31 = { (linked .up).port 31 with sinceAck := 512 }
    ∧ (let s := (linked .up).updPort 31 fun q => { q with fec := [(3, 2 ^ 40)] };
      s.val .laneFecLimit 0 0 < laneCount (s.port 31).fec 3 ∧ s.isLinked 31) := by
  refine ⟨by decide, by decide, by decide, by decide, by decide, by decide, by decide, by decide, by decide, by decide⟩

/-- A flit of a type that checks: its first eight bytes, its slots empty. -/
def flit (w : Nat) : List Byte :=
  let head : List Byte := leBytes 8 w ++ List.replicate 224 0
  head ++ leBytes 8 (plainCrc 64 0x42F0E1EBA9EA3693 (2 ^ 64 - 1) head) ++ List.replicate 16 0

theorem witness_FlitsAreTakenOrReplayed :
    ((linked .up).isUp 31 ∧ flitGood [] true = false ∧ flitGood (flit 0) false = false)
    ∧ (flitGood (flit 0) true ∧ bitsOf 0 63 60 = 0 ∧ bitsOf 0 59 48 = (((linked .up).fecCounted 31 []).port 31).rxSeq)
    ∧ (flitGood (flit (4095 * 2 ^ 48)) true ∧ bitsOf (4095 * 2 ^ 48) 63 60 = 0
      ∧ bitsOf (4095 * 2 ^ 48) 59 48 ≠ (((linked .up).fecCounted 31 []).port 31).rxSeq)
    ∧ (flitGood (flit (2 ^ 60)) true ∧ flitGood (flit (2 * 2 ^ 60)) true ∧ flitGood (flit (3 * 2 ^ 60)) true)
    ∧ (((linked .up).fecCounted 31 []).port 31).nackSent < 7 := by
  refine ⟨by decide +kernel, by decide +kernel, by decide +kernel, by decide +kernel, by decide⟩

/-- Room 63 is On with a window up to line 65,535, in a power mode, and port 0 is an Up Companion that is capable of Holds. -/
def served (m : PowerMode) : State :=
  let s := (byPort m).setFn (.room 63) { FnWord.init with state := .on }
  (s.setVal .windowSize 63 0 4194304).updPort 0 fun q => { q with hold := true }

theorem witness_LineRequestsAreTried :
    (∀ op ∈ [1, 2, 3, 4], (served .brace).turned op 0 4095 63 65535 = none ∧ (served .flush).turned op 0 4095 63 65535 = none
      ∧ (served .full).turned op 0 4095 63 65535 = none)
    ∧ (served .full).reqs.held.find? (fun h => decide (h.port = 0) && decide (h.op = .rd) && decide (h.room = 63) && decide (h.line = 65535)) = none
    ∧ (let s := (served .full).setHeld [⟨0, .mask, 63, 65535, .fetch, 4096⟩];
      s.reqs.held.find? (fun h => decide (h.port = 0) && decide (h.op = .mask) && decide (h.room = 63) && decide (h.line = 65535))
        = some ⟨0, .mask, 63, 65535, .fetch, 4096⟩
      ∧ s.turned 4 0 4095 63 65535 = none ∧ s.now < 4096 ∧ 4096 ≤ (atCourse 1 s).now) := by
  refine ⟨by decide, by decide, by decide⟩

theorem witness_RequestsAreDenied :
    ((served .full).isUp 0 ∧ (served .full).windowAt 63 (65536 * 64) = none)
    ∧ ((fullOn.setPort 0 { Port.init with role := .peer, link := .up }).isUp 0
      ∧ (fullOn.setPort 0 { Port.init with role := .peer, link := .up }).roleOf 0 = .peer)
    ∧ (let s := (served .full).setOpen [⟨0, 4095, .rd, 63, 65535, 0, 0, false, 0, .fetch, 0, none, false, false, false⟩];
      s.isUp 0 ∧ s.tagOpen 0 4095 = true)
    ∧ (let s := served .full;
      s.roleOf 0 = .companion ∧ s.windowAt 63 (65535 * 64) = some 0 ∧ (s.fn (.room 63)).state = .on ∧ s.sec.locked = false
        ∧ s.tagOpen 0 4095 = false) := by
  refine ⟨by decide, by decide, by decide, by decide⟩

/-- A request of port 0 that has been open since reset. -/
def openReq (why : Wait) : OpenReq := ⟨0, 4095, .rd, 63, 65535, 0, 0, false, 0, why, 0, none, false, false, false⟩

theorem witness_OpenRequestsEnd :
    (let s := atCourse 500 ((served .full).setOpen [openReq .fetch]);
      s.openOf 0 4095 = some (openReq .fetch) ∧ s.holdCapable 0 ∧ (openReq .fetch).gone = false ∧ (openReq .fetch).heldFor ≠ some .fetch ∧ (openReq .fetch).admitted + 4096 * s.val .holdThreshold 0 0 ≤ s.now
        ∧ (openReq .fetch).admitted + 500 * 4096 ≤ s.now ∧ (openReq .fetch).why ≠ .far)
    ∧ (let s := atCourse 500 ((served .full).setOpen [openReq .far]);
      s.openOf 0 4095 = some (openReq .far) ∧ s.holdCapable 0 ∧ (openReq .far).gone = false ∧ (openReq .far).heldFor ≠ some .far ∧ (openReq .far).admitted + 4096 * s.val .holdThreshold 0 0 ≤ s.now)
    ∧ (let s := atCourse 64 ((served .full).setHeld [⟨0, .rd, 63, 65535, .fetch, 0⟩]);
      s.reqs.held.find? (fun h => decide (h.port = 0) && decide (h.room = 63) && decide (h.line = 65535) && decide (h.ready + 64 * 4096 ≤ s.now))
        = some ⟨0, .rd, 63, 65535, .fetch, 0⟩)
    ∧ (let s := atCourse 500 ((served .full).setDir { Dir.init with recalls := [⟨0, 4095, 5, 0, false⟩] });
      s.dir.recalls.find? (fun r => decide (r.port = 0) && decide (r.tag = 4095)) = some ⟨0, 4095, 5, 0, false⟩ ∧ 0 + 500 * 4096 ≤ s.now)
    ∧ ((served .full).dir.recalls.find? (fun r => decide (r.port = 0) && decide (r.tag = 4095)) = none ∧ (served .full).isUp 0) := by
  refine ⟨by decide +kernel, by decide +kernel, by decide, by decide, by decide⟩

/-- Program 5 is installed for room 63. -/
def callable : State := (served .full).setCores { Cores.init with progs := [⟨0, 5, 2 ^ 63, progImage, true⟩] }
/-- A call of room 63 in a state. -/
def callIn (m : CallMode) (e : Option Ending) : Call := ⟨7, 5, 63, 0, 7, 32, 65536, [], 0, some 0, m, 0, 0, false, false, 0, [], [], e, none⟩
/-- A module with that call. -/
def calling (m : CallMode) (e : Option Ending) : State := atCourse 5000000 ((callable.setVal .windowAttr 63 0 0).setCores { callable.cores with calls := [callIn m e] })

theorem witness_CallsRunTheirCourse :
    (let w : Word := BitVec.ofNat 64 (5 * 2 ^ 32 + 32 * 2 ^ 26 + 16 * 2 ^ 5);
      callable.turned 0x10 0 4095 63 65535 = none ∧ callable.power.mode = .full ∧ callable.quieted = false ∧ callable.power.exitAt = none ∧ callable.power.quiet = .none
        ∧ bitsOf w.toNat 9 5 = 16 ∧ (bytes 256).length = 16 * bitsOf w.toNat 9 5 ∧ bitsOf w.toNat 31 26 = 32 ∧ w.toNat % 32 = 0
        ∧ bitsOf w.toNat 63 32 < 0xFFFFFF01 ∧ callable.progFor (bitsOf w.toNat 63 32) 63 = some ⟨0, 5, 2 ^ 63, progImage, true⟩ ∧ callable.callsOpen < 1024)
    ∧ ((calling .parked none).call 7 = some (callIn .parked none) ∧ (calling .parked none).ofShown (callIn .parked none).kept ≤ (calling .parked none).now
      ∧ (callIn .parked none).prog.isSome
      ∧ (callIn .parked none).accepted + 4096 * (calling .parked none).val .callTimeout 0 0 ≤ (calling .parked none).now)
    ∧ (let e : Ending := ⟨4, 0, 0, 0, 0, 0, []⟩;
      (calling .ending (some e)).call 7 = some (callIn .ending (some e)) ∧ (calling .ending (some e)).callRuns 7 = false ∧ (callIn .ending (some e)).digest = none
        ∧ ((calling .ending (some e)).ownWrite 63 0 (lineFrom ((callIn .ending (some e)).completion e))).1 = true) := by
  refine ⟨by decide, by decide, by decide +kernel⟩

/-- Version 5 of region 255. -/
def pubVer (isSealed : Bool) : PubVer := ⟨5, 0, isSealed, false, 0, [], 0, []⟩
/-- A module that holds it. -/
def holding (isSealed : Bool) : State := (served .full).setPub 255 ⟨6, [⟨6, 0, true, false, 0, [], 0, []⟩, pubVer isSealed]⟩

theorem witness_VersionsAndConfiguration :
    (let s := served .full;
      s.turned 0x30 0 4095 63 65535 = none ∧ s.turned 0x31 0 4095 63 65535 = none ∧ s.power.mode ≠ .brace ∧ s.power.mode ≠ .flush
        ∧ s.quieted = false ∧ s.power.exitAt = none)
    ∧ ((holding false).pubVer 255 5 = some (pubVer false) ∧ (pubVer false).isSealed = false ∧ (holding false).time.pos = 0 ∧ (holding false).stillAwaits (pubVer false).awaits = false
      ∧ (holding false).bringing 255 5 = false)
    ∧ ((holding true).pubVer 255 5 = some (pubVer true) ∧ (holding true).time.pos = 0 ∧ (holding true).retains 255 (pubVer true) = false)
    ∧ (let s := (byPort .full).setAdm { Adm.init with commitAt := some 0 };
      s.adm.commitAt = some 0 ∧ 0 ≤ s.now ∧ s.time.pos = 0 ∧ s.commitCheck.isNone)
    ∧ (let s := (served .full).setAdm { Adm.init with commitAt := some 0, staging := [(Ent.windowSize.row.key 0 0, 1)] };
      s.adm.commitAt = some 0 ∧ 0 ≤ s.now ∧ s.time.pos = 0 ∧ s.commitCheck.isSome) := by
  refine ⟨by decide, by decide, by decide, by decide +kernel, by decide +kernel⟩

theorem witness_LineWritesMerge :
    (bytes 256).length = 256 ∧ 3 < 4 ∧ 15 < 16 ∧ (0 : BitVec 64).toNat ≠ fullMask ∧ bitOf 15 3 = true ∧ bitOf 7 3 = false := by decide

/- ## The tiers -/

/-- A brick of zeros. -/
def zeroBrick : Laid := ⟨mkRecord (crc32c (List.replicate 256 0)) 1 0 .zero 0 false false, [], [], [], none⟩
/-- The key of page 0 of room 63. -/
def key63 : Nat := pageKey 63 0
/-- A page of room 63 with one brick, in a mode. -/
def paged (m : PageMode) : State :=
  (served .full).setPage key63 { Page.init with mode := m, bricks := zeroBrick :: List.replicate 15 Laid.blank, frame := some 0, slot := some 5 }
/-- The image of that page in the Cellar. -/
def imaged (m : PageMode) : State :=
  let s := paged m
  s.setCellar { s.cellar with images := [(5, ⟨key63, 1, 1, [], zeroBrick :: List.replicate 15 Laid.blank, some ⟨0, 0, 0, 0, 0, 65535⟩, 1, false⟩)] }
/-- A landing slot for its brick 0. -/
def landed (filling queued : Bool) : State :=
  (paged .volatile).setLanding [(brickKey key63 0, ⟨List.replicate 256 0, 0, 0, filling, 0, queued, none, 0, false, none⟩)]
/-- The page and the brick as commands name them. -/
def page63 : PageId := ⟨63, 0, 0⟩
def brick63 : BrickId := ⟨63, 0, 0⟩
/-- No fault of a read. -/
def noFaults : ReadFaults := ⟨[], 0, 0⟩

theorem witness_PagesMoveThroughTheTiers :
    (let s := (imaged .cellar).setTier { Tier.init with fetches := [⟨key63, .placement, 0, 40, 0, false, none, some 0⟩] };
      pageIdKey page63 = key63 ∧ s.fetchOf key63 = some ⟨key63, .placement, 0, 40, 0, false, none, some 0⟩ ∧ (some 0).isSome ∧ ((s.page key63).slot.bind s.image).isSome
        ∧ (s.page key63).mode = .cellar
        ∧ ((s.setTier Tier.init).findRun ((s.setTier Tier.init).frameRegion (loftRegion (s.page key63)))
            (baysFor (s.page key63).bricks ((s.setTier Tier.init).footingOf key63 (s.page key63).bricks))).isSome)
    ∧ (let s := atCourse (2 * fullOn.val .writebackIdle 0 0 + 2 * fullOn.val .writebackAgeMax 0 0) (paged .dirty);
      (s.page key63).mode = .dirty ∧ (s.page key63).lastTouch + s.val .writebackIdle 0 0 ≤ s.time.course
        ∧ (s.page key63).dirtySince + 8192 * s.val .writebackAgeMax 0 0 ≤ s.now ∧ s.quiet64 s.tier.lagAt)
    ∧ (let s := atCourse 64 (landed false false);
      brickIdKey brick63 = brickKey key63 0 ∧ s.slotOf (brickKey key63 0) = some ⟨List.replicate 256 0, 0, 0, false, 0, false, none, 0, false, none⟩
        ∧ 0 + 4096 * s.val .landingDwell 0 0 ≤ s.now)
    ∧ (let s := landed true false;
      s.slotOf (brickKey key63 0) = some ⟨List.replicate 256 0, 0, 0, true, 0, false, none, 0, false, none⟩ ∧ s.brickStored (brickKey key63 0) ∧ s.sec.keysOff = false
        ∧ ((s.readBrick (brickKey key63 0) noFaults).1 matches .ok _) ∧ ((s.readBrick (brickKey key63 0) ⟨[], 0, 2⟩).1 matches .once)
        ∧ ((s.readBrick (brickKey key63 0) ⟨[], 2, 0⟩).1 matches .poisoned))
    ∧ (let s := landed false true;
      s.slotOf (brickKey key63 0) = some ⟨List.replicate 256 0, 0, 0, false, 0, true, none, 0, false, none⟩ ∧ s.sec.keysOff = false ∧ (s.page (brickKey key63 0 / 16)).inStore
        ∧ (s.storeSlot (brickKey key63 0) ⟨List.replicate 256 0, 0, 0, false, 0, true, none, 0, false, none⟩ 0).isSome)
    ∧ (let l : Landing := { Landing.init 0 with under := some (List.replicate 256 0, 0) };
      let s := (landed false true).setLanding [(brickKey key63 0, l)];
      s.slotOf (brickKey key63 0) = some l ∧ (s.storeSlot (brickKey key63 0) { l with data := List.replicate 256 0, poison := 0 } 0).isSome)
    ∧ (let s := (fullOn.setFn (.stair 255) { FnWord.init with state := .on }).setVal .stairMode 255 0 1;
      s.stairRuns 255 ∧ s.stairTimed 255 ∧ s.stairDue 255 255) := by
  refine ⟨by decide +kernel, by decide +kernel, by decide +kernel, by decide +kernel, by decide +kernel, by decide +kernel, by decide⟩

/-- A load of room 63 from address 0 to page 1, none of its two pages placed, and page 1 Clean. -/
def loading (done : Nat) : State :=
  let s := (served .full).setLoad 63 ⟨0, 4096, 2, done, 1, 0, 0, 128⟩
  (s.setPage (pageKey 63 1) { Page.init with mode := .clean, slot := some 6 }).setVal .windowAttr 63 0 0

/-- The packed page that the load of room 63 comes to next can be placed at its page 1. -/
def placeable (s : State) : Bool :=
  let k := pageKey 63 1
  let l := s.load 63
  let r := s.chargeUp 63 (s.pageClass k) (ceilDiv 128 64 - l.paid)
  let v := r.2.setLoad 63 { l with paid := l.paid + r.1 }
  match s.roomBytes 63 0 128 with
  | some (.ok hdr) =>
    let recs := (upTo 16).map fun b => ofLe ((hdr.drop (8 * b)).take 8)
    recs.all packedRecordOk && decide (128 + 32 * (recs.map recSectors).sum = 128) && s.inWindow 63 0 128 && (s.windowOf k).isSome
      && (upTo 16).all (fun b => s.expandCoded k b ((bricksOf hdr).getD b Stored.blank) noFooting matches .ok _)
      && decide (ceilDiv 128 64 ≤ l.paid + r.1) && !v.isShared k && (v.replacePage k (bricksOf hdr)).isSome
  | _ => false

/-- A shelf with a job. -/
def withJob (j : ShelfJob) (vers : List ShelfVer) : State :=
  atCourse 1 (shelfState.setShelf 4095 { Shelf.init with room := 63, vers := vers, job := some j })

theorem witness_TablesShelvesAndScans :
    (let s := (served .full).setCodec { Codec.init with queue := [(3, 16 * 63 + 15)], samples := [(16 * 63 + 15, ⟨0, [(0, 5)], [], false⟩)] };
      s.codec.queue.find? (fun x => x.2 = 16 * 63 + 15) = some (3, 16 * 63 + 15) ∧ s.codec.queue.find? (fun x => x.1 = 3) = some (3, 16 * 63 + 15)
        ∧ builtOk tableImage (Tbl.get s.codec.samples (16 * 63 + 15) ⟨0, [], [], false⟩).values
        ∧ attrElement ((s.setVal .windowAttr 63 15 0).attr 63 15) = 0)
    ∧ (let s := loading 0;
      (s.load 63).state = 1 ∧ s.sec.keysOff = false ∧ s.roomOn 63 = true ∧ ((s.setFuncs []).roomOn 63) = false ∧ (s.load 63).done < (s.load 63).total
        ∧ ((s.roomBytes 63 0 128) matches some (.ok _)) ∧ (s.page (pageKey 63 1)).mode = .clean
        ∧ attrDurable (s.pageAttr (pageKey 63 1)) = false ∧ s.dir.entries = [] ∧ placeable s)
    ∧ ((loading 2).load 63).total ≤ ((loading 2).load 63).done
    ∧ (let j : ShelfJob := ⟨1, 0, .od, false, false, 0, [], [], [], [], [], 0, 0, none⟩;
      ((withJob j []).shelf 4095).job = some j ∧ boundaryAfter j.start ≤ (withJob j []).now)
    ∧ (let j : ShelfJob := ⟨1, 1, .od, true, true, 0, [], [], [⟨0, 1, 5, 0, []⟩], [], [], 0, 0, some 0⟩;
      let s := (withJob j []).setCellar (imaged .clean).cellar;
      (s.shelf 4095).job = some j ∧ j.manifest = some 0 ∧ s.pagesDone (s.shelf 4095) j ∧ ∀ q ∈ j.pages, (s.page (pageKey 63 q.page)).transit ≠ .writing ∧ (s.image q.slot).isSome
        ∧ ((s.image q.slot).bind fun i => i.loc).isSome)
    ∧ (let j : ShelfJob := ⟨2, 5, .od, false, false, 0, [], [], [], [], [], 0, 0, none⟩;
      let s := withJob j [shelfVer 5];
      (s.shelf 4095).vers.find? (fun v => v.version = j.version) = some (shelfVer 5) ∧ boundaryAfter j.start ≤ s.now
        ∧ (s.unshelveQueue.take (64 - s.unshelving)).contains 4095)
    ∧ (let j : ShelfJob := ⟨2, 5, .od, true, false, 0, [], [], [], [], [], 0, 0, none⟩;
      let v : ShelfVer := { shelfVer 5 with digest := digestOf [] };
      ((withJob j [v]).shelf 4095).vers.find? (fun v => v.version = j.version) = some v ∧ digestOf (v.pages.map id) = v.digest)
    ∧ ((fullOn.setDir { Dir.init with downs := [Scan.init 31 0 false], scans := [{ Scan.init 31 0 false with walked := 2 ^ 20 }] }).dir.downs.find? (fun c => decide (c.port = 31) && decide (c.start ≤ fullOn.now)) = some (Scan.init 31 0 false)
      ∧ (fullOn.setDir { Dir.init with downs := [Scan.init 31 0 false], scans := [{ Scan.init 31 0 false with walked := 2 ^ 20 }] }).dir.scans.find? (fun c => c.port = 31) = some { Scan.init 31 0 false with walked := 2 ^ 20 }) := by
  refine ⟨by decide +kernel, by decide +kernel, by decide, by decide, by decide +kernel, by decide, by decide +kernel, by decide⟩

/- ## The Store and the Cellar -/

/-- Channel 127 changed. -/
def withChan (f : Chan → Chan) : State := fullOn.setChan 127 (f { Chan.init with mode := .serving })

theorem witness_StoreControllerEvents :
    (Tbl.find (fullOn.setStore { Store.init with rows := [(bankKey 127 1 15, 262143, 0)] }).store.rows (bankKey 127 1 15) = some (262143, 0))
    ∧ (let s := (fullOn.setStore { Store.init with refresh := [(255, { RankRefresh.init with need := 1 })] }).setTime { Time.init with pos := 3277 };
      (s.rankRefresh 127 1).need ≠ 0 ∧ 3277 ≤ s.time.pos)
    ∧ (let s := withChan id;
      (s.chan 127).mode = .serving ∧ (s.chan 127).sweep = none ∧ (s.chan 127).reads = []
        ∧ (s.sweepDue 127).isSome ∧ s.packageSweeps 127 = false ∧ s.waveNow 127 = false ∧ s.time.pos = 0)
    ∧ (let n := fullOn.val .rhThreshold 0 0;
      let s := fullOn.setStore { Store.init with hammer := [(bankKey 127 1 15, ⟨[(262143, n)], 0, 0⟩)] };
      Tbl.find (Tbl.get s.store.hammer (bankKey 127 1 15) ⟨[], 0, 0⟩).counts 262143 = some n ∧ s.val .rhThreshold 0 0 ≤ n)
    ∧ ((atCourse 16000 fullOn).store.clearedAt + 16000 * 4096 ≤ (atCourse 16000 fullOn).now)
    ∧ ((withChan fun c => { c with sweep := some ⟨0, 2, 1⟩ }).chan 127).sweep = some ⟨0, 2, 1⟩
    ∧ (let s := (atCourse 3 fullOn).setStore { Store.init with changes := [⟨0, 1, 0, 0⟩] };
      s.store.changes.find? (fun p => decide (p.at_ + 3 * 4096 = stampOf s.time.course 0)) = some ⟨0, 1, 0, 0⟩)
    ∧ ((withChan fun c => { c with mode := .paused }).chan 127).mode = .paused
    ∧ (let s := fullOn.setStore { Store.init with waiting := [(3, 61, 1)] };
      s.store.waiting.find? (fun w => w.1 = 3) = some (3, 61, 1) ∧ Tbl.find s.store.migrations 3 = none ∧ s.time.pos = 0)
    ∧ (let s := atCourse 2000000 (fullOn.setStore { Store.init with migrations := [(3, ⟨61, 5, some 62, 1, 0, [7], 0⟩)] });
      Tbl.find s.store.migrations 3 = some ⟨61, 5, some 62, 1, 0, [7], 0⟩ ∧ s.copyDone 3 ⟨61, 5, some 62, 1, 0, [7], 0⟩ = true)
    ∧ (let s := fullOn.setStore { Store.init with migrations := [(3, ⟨61, 5, none, 1, 0, [], 0⟩)] };
      Tbl.find s.store.migrations 3 = some ⟨61, 5, none, 1, 0, [], 0⟩ ∧ s.copyDone 3 ⟨61, 5, none, 1, 0, [], 0⟩ = true ∧ (s.copyFrames (fun b => decide (b % 62 = 61)) (s.framesIn 3)).1 = true) := by
  refine ⟨by decide, by decide, by decide, by decide, by decide, by decide, by decide, by decide, by decide, by decide, by decide⟩

/-- The highest superblock of set 0. -/
def lastSb : Nat := sbKey 0 7 2542
/-- A Cellar whose highest superblock is in a state. -/
def withSuper (m : SbMode) : State := (imaged .clean).setSuper lastSb ⟨m, 512, 5, 9⟩
/-- A Cellar with so many superblocks of set 0 in use, and one Sealed. -/
def crowded : State :=
  let used : Tbl Superblock := (List.range 20343).map fun k => (k, ⟨.opened, 0, 0, 0⟩)
  (imaged .clean).setCellar { (imaged .clean).cellar with supers := used ++ [(20343, ⟨.sealed, 512, 5, 9⟩)] }

theorem crowded_low : crowded.erasedTlc 0 < 48 := by
  have h1 : crowded.cellar.zoneSet = false := rfl
  have h2 : (Tbl.count crowded.cellar.supers fun k b => decide (sbSet k = 0) && !crowded.isZone k && decide (b.mode ≠ .erased)) = 20344 := by
    have h : crowded.cellar.supers = ((List.range 20343).map fun k => (k, (⟨.opened, 0, 0, 0⟩ : Superblock))) ++ [(20343, ⟨.sealed, 512, 5, 9⟩)] := rfl
    have hz : ∀ k, crowded.isZone k = false := fun k => by simp [State.isZone, h1]
    rw [Tbl.count, Tbl.keep, List.filter_eq_self.mpr, h]
    · simp
    · intro e he
      rw [h] at he
      simp only [List.mem_append, List.mem_map, List.mem_range, List.mem_singleton] at he
      rcases he with ⟨k, hk, rfl⟩ | rfl
      · simp [sbSet, hz, Nat.div_eq_of_lt (show k < 65536 by omega)]
      · simp [hz, sbSet]
  simp only [State.erasedTlc, h1, h2]
  decide

theorem crowded_victim : crowded.pickVictim 0 = some 20343 := by
  have h : (crowded.cellar.supers.filter fun e => decide (sbSet e.1 = 0) && !crowded.isZone e.1 && decide (e.2.mode = .sealed))
      = [(20343, ⟨.sealed, 512, 5, 9⟩)] := by
    have h : crowded.cellar.supers = ((List.range 20343).map fun k => (k, (⟨.opened, 0, 0, 0⟩ : Superblock))) ++ [(20343, ⟨.sealed, 512, 5, 9⟩)] := rfl
    have hz : ∀ k, crowded.isZone k = false := fun k => by simp [State.isZone, show crowded.cellar.zoneSet = false from rfl]
    rw [h, List.filter_append, List.filter_eq_nil_iff.mpr]
    · simp [hz, sbSet]
    · intro e he
      obtain ⟨k, -, rfl⟩ := List.mem_map.mp he
      simp
  simp only [State.pickVictim, h]
  rfl

theorem witness_CellarControllerEvents :
    (let s := atCourse 500 (fullOn.setCellar { Cellar.init with rows := [(3, ⟨0, 0, [], 64, 0, 65535⟩)] });
      Tbl.find s.cellar.rows (rowKey (bit01 true) true) = some ⟨0, 0, [], 64, 0, 65535⟩ ∧ 0 + 500 * 4096 ≤ s.now)
    ∧ (let s := fullOn.setCellar { Cellar.init with programs := [(3, ⟨lastSb, 510, [], 64, 0, 65535⟩)], supers := [(lastSb, ⟨.opened, 510, 0, 0⟩)] };
      s.firstProgram (rowKey (bit01 true) true) = some ⟨lastSb, 510, [], 64, 0, 65535⟩
        ∧ ((s.endProgram 3 ⟨lastSb, 510, [], 64, 0, 65535⟩).super lastSb).rows + 1 < rowsPerSb)
    ∧ ((withSuper .erasing).super (sbKey (bit01 false) 7 2542)).mode = .erasing
    ∧ (crowded.erasedTlc (bit01 false) < 48 ∧ crowded.pickVictim (bit01 false) = some 20343)
    ∧ (let s := (withSuper .sealed).setCellar { (withSuper .sealed).cellar with senses := [(senseKey 0 7 2542 3, 200000)] };
      s.val .readDisturbLimit 0 0 * (if s.isZone lastSb then 5 else 1) ≤ ((upTo 4).map fun x => Tbl.get s.cellar.senses (senseKey 0 7 2542 x) 0).foldl max 0
        ∧ (s.super (sbKey (0 % 2) 7 2542)).mode = .sealed)
    ∧ (((imaged .clean).image 5).isSome ∧ (((imaged .clean).image 5).bind fun i => i.loc).isSome)
    ∧ (let s := fullOn.setCellar { Cellar.init with rebuilds := [(1, [⟨5, 1, [], 0, 0⟩])] };
      Tbl.get s.cellar.rebuilds (bit01 true) [] = [⟨5, 1, [], 0, 0⟩] ∧ s.rebuildRuns ⟨5, 1, [], 0, 0⟩)
    ∧ (let s := atCourse 150000000 (fullOn.setCchan 31 { CellarChan.init with mode := .serving });
      (s.cchan 31).mode = .serving ∧ (s.cchan 31).trainedAt + 150000000 * 4096 ≤ s.now) := by
  refine ⟨by decide, by decide, by decide, ⟨crowded_low, crowded_victim⟩, by decide, by decide, by decide, by decide⟩

/-- A module with a repair of page 0's brick 0 queued. -/
def repairing (m : PageMode) : State :=
  ((paged m).setVal .windowAttr 63 0 0).setInteg { Integ.init with repairs := [⟨brickKey key63 1, 0, List.replicate 256 0⟩] }
/-- A module whose image in slot 5 is lost. -/
def lostImage (m : PageMode) : State :=
  (paged m).setCellar { Cellar.init with images := [(5, ⟨key63, 1, 1, [], [], none, 1, true⟩)] }
/-- A repeat table of region 3 with unit 7 of bay 9 corrected three times. -/
def repeated : State := fullOn.setInteg { Integ.init with repeats := [(3, [⟨9, 7, 3, 0⟩])] }

theorem witness_ScrubbingAndRepair :
    ((atCourse 500000 fullOn).dark = false ∧ (atCourse 500000 fullOn).integ.loftFrom + 500000 * 4096 ≤ (atCourse 500000 fullOn).now)
    ∧ (((fullOn.setFn .scrubber { FnWord.init with state := .on }).fn .scrubber).state = .on ∧ fullOn.power.mode ≠ .quiet ∧ fullOn.power.zeroing = false)
    ∧ (let s := repairing .volatile;
      brickIdKey ⟨63, 1, 0⟩ = brickKey key63 1 ∧ s.integ.repairs.find? (fun r => r.brick = brickKey key63 1) = some ⟨brickKey key63 1, 0, List.replicate 256 0⟩
        ∧ (s.page (brickKey key63 1 / 16)).inStore = true ∧ s.landingFull = false ∧ attrDurable (s.pageAttr (brickKey key63 1 / 16)) = false
        ∧ (s.baseOf (brickKey key63 1) matches .ready _ _))
    ∧ ((repairing .cellar).page (brickKey key63 1 / 16)).inStore = false
    ∧ (let s := lostImage .clean;
      s.image 5 = some ⟨key63, 1, 1, [], [], none, 1, true⟩
        ∧ ((s.pages.filter fun e => e.2.slot = some 5).find? fun e => e.2.mode = .clean).isSome)
    ∧ (((lostImage .cellar).pages.filter fun e => e.2.slot = some 5).find? fun e => e.2.mode = .clean) = none
    ∧ (∃ e ∈ Tbl.get repeated.integ.repeats 3 [], e.bay = 9 ∧ e.unit = 7 ∧ 3 ≤ e.count)
    ∧ (let at_ := repeated.unitRow 3 9 7;
      let w := rowWord (rankChannel 3 at_.1) (at_.1 % 2) at_.2.1 at_.2.2;
      (repeated.rubble 3).contains w = false ∧ (repeated.rubble 3).length < 4096
        ∧ ((repeated.setStore { Store.init with rubble := [(3, [w])] }).rubble 3).contains w = true) := by
  refine ⟨by decide, by decide, by decide, by decide, by decide +kernel, by decide +kernel, by decide, by decide⟩

/-- A Cistern in a state, every cell at a voltage. -/
def pack (m : CisternMode) (mv : Nat) : Cistern := { Cistern.init with mode := m, cells := List.replicate 12 ⟨mv, 250, 10000, 0, none⟩ }

theorem witness_CisternEvents :
    (fullOn.time.pos = 0 ∧ (pack .ready 3780).mode ≠ .idle ∧ fullOn.time.course % 1000 = 0)
    ∧ ((pack .charging 3780).mode = .charging ∧ (pack .charging 3780).full)
    ∧ ((pack .ready 3759).mode = .ready ∧ (pack .ready 3759).cells.any (fun x => decide (x.mv < 3760)) ∧ (pack .ready 3759).mayCharge
      ∧ (pack .ready 3759).phase = .none)
    ∧ (fullOn.dark = false ∧ (pack .ready 3780).fault = none)
    ∧ ({ pack .ready 3780 with fault := some (0, .voltage), okRun := 1000 }.fault.isSome ∧ 1000 ≤ { pack .ready 3780 with okRun := 1000 }.okRun)
    ∧ (pack .ready 3780).nextCheck ≤ (atCourse (pack .ready 3780).nextCheck fullOn).time.course
    ∧ (let s := fullOn.setCistern { pack .ready 3780 with phase := .waiting 0, ceiling := 10 ^ 9 };
      s.cistern.phase = .waiting 0 ∧ s.cistern.due = none ∧ s.dirtyStored ≤ s.ceiling ∧ 0 ≤ s.time.course)
    ∧ (let s := ((paged .dirty).setVal .windowAttr 63 0 (2 ^ 20)).setCistern { pack .ready 3780 with phase := .waiting 0 };
      s.cistern.phase = .waiting 0 ∧ s.ceiling < s.dirtyStored)
    ∧ { pack .ready 3780 with phase := .discharging }.phase = .discharging := by
  refine ⟨by decide, by decide, by decide, by decide, by decide, by decide, by decide, by decide +kernel, by decide⟩

/- ## Security, the start, the vault and the board -/

theorem witness_AlarmsErasesAndSpdm :
    ({ Sec.init with erasing := some (5, 3) }.erasing = some (5, 3))
    ∧ (let s := byPort .full;
      s.odLive rq.src ∧ (s.classOf rq.src).isSome ∧ ((s.openSess rq.src).barred rq.src .spdmMessage 0 0 (some (ofLe [0x13, 0xE0, 0, 0])) noCalls).isNone
        ∧ lengthFits Ent.spdmMessage.row 4 ∧ lengthFits Ent.spdmMessage.row 65535)
    ∧ (field [0x10, 0x84, 0, 0] 0 1 = (if field [0x10, 0x84, 0, 0] 1 1 = 0x84 then 0x10 else 0x13))
    ∧ (field [0x13, 0xE0, 0, 0] 0 1 = (if field [0x13, 0xE0, 0, 0] 1 1 = 0x84 then 0x10 else 0x13))
    ∧ (field [0x12, 0xE0, 0, 0] 0 1 ≠ (if field [0x12, 0xE0, 0, 0] 1 1 = 0x84 then 0x10 else 0x13))
    ∧ (let s := (byPort .full).setSec { Sec.init with spdm := [⟨rq.src, .negotiated, [], [], none, 2, 0xFFFFFFFF, 0, 0, [], [], [], 0, 0⟩] };
      let x := (s.openSess rq.src).spdmOf rq.src;
      (x.session = 2 ∧ x.sid = (0xFFFFFFFF : BitVec 32).toNat) ∧ (x.session = 0 ∨ x.sid ≠ (0 : BitVec 32).toNat)) := by decide

/-- A start whose step n runs. -/
def startAt (n : Nat) : State :=
  let r : StartRec := { StartRec.init with steps := (List.replicate 13 ⟨0, 0, 0, 0, 0, 0⟩).set (n - 1) ⟨1, 0, 0, 0, 0, 0⟩ }
  (inMode .starting).setStart { Start.init with step := n, ledger := [r] }

theorem witness_FunctionsStartsAndSlices :
    (let s := atCourse 1 (fullOn.setFn (.core 31) { FnWord.init with state := .starting });
      (s.fn (.core 31)).state = .starting ∧ (s.fn (.core 31)).pendDis = false ∧ s.startedNow (.core 31))
    ∧ ((fullOn.setFn (.core 31) { FnWord.init with state := .starting, pendDis := true }).fn (.core 31)).pendDis = true
    ∧ (let s := fullOn.setFn (.port 31) { FnWord.init with state := .stopping };
      (s.fn (.port 31)).state = .stopping ∧ s.stoppedNow (.port 31))
    ∧ (let s := State.reset.setBoard { Board.init with pins := [(3, ⟨true, false, false, false, 0, none⟩)] };
      s.startCause = some 1 ∧ s.mayStart ∧ s.sec.erasing = none)
    ∧ (∀ n ∈ [1, 2, 3, 4, 5, 6, 7, 8, 9, 10, 11, 12, 13], (startAt n).stepRuns n)
    ∧ ((startAt 11).setTime { Time.init with acquired := true }).time.acquired
    ∧ (let s := atCourse 5000000 (startAt 11);
      s.stepLimit 11 = some 5000000 ∧ s.stepRuns 11 ∧ (s.startRec.step 11).start + 4096 * 5000000 ≤ s.now)
    ∧ (let s := fullOn.setTest { SelfTest.init with running := some (⟨1, 0, 0x280, 0⟩, 0) };
      s.test.running = some (⟨1, 0, 0x280, 0⟩, 0) ∧ 0 + 4096 * sliceCourses 1 ≤ (atCourse 1 s).now) := by
  refine ⟨by decide, by decide, by decide, by decide, by decide, by decide, by decide, by decide⟩

/-- A Fielded module with a slice interval behind it and headroom. -/
def sliceable : State :=
  atCourse 1000000 ((State.reset.setPower { power .full with input := 100 }).setSec { Sec.init with log := [1, 2] })

theorem witness_slices :
    sliceable.time.pos = 0 ∧ sliceable.lifecycle = 2 ∧ sliceable.decided .selftestEnable 0 0 = 1 ∧ sliceable.power.keeperDown = false
    ∧ sliceable.power.mode = .full ∧ sliceable.test.running = none ∧ sliceable.power.step = 0
    ∧ sliceable.test.last + 4096 * sliceable.decided .sliceInterval 0 0 ≤ sliceable.now
    ∧ (sliceable.slicesLeft.find? fun x => sliceable.headroom x.kind && !sliceable.recoveryIn x.region).any fun x => decide (x.kind ≠ 8) := by
  decide +kernel

/-- A Joined member, module 1, of a room whose pool has the members 2 and 1 by turns, page by page; port 0 is an Up Peer port. -/
def pooled (base : Nat) : State :=
  let s := ((served .full).setPort 0 { Port.init with role := .peer, link := .up }).setVault { Vault.init with mode := .joined, peers := [(2, ⟨.joined, 0, 0, 0, false⟩)] }
  let s := ((s.setVal .moduleIndex 0 0 1).setVal .poolWindows 63 0 1).setVal .poolStripe 63 0 1
  s.setBlob .poolMembers 63 0 (leBytes 2 base ++ leBytes 2 (3 - base) ++ List.replicate 508 255)
/-- The state after a message of member 2 on port 0 is answered. -/
def heard (s : State) : State := (s.hear 2).respond 0 4095 0 none 0
/-- What a message finds of page 0 of room 63. -/
def withVault (base : Nat) (f : Vault → Vault) : State := (pooled base).setVault (f (pooled base).vault)

theorem witness_VaultEventsAndMessages :
    (let s := atCourse 500000 (fullOn.setVault { Vault.init with mode := .joining });
      s.vault.triedAt + 500000 * 4096 ≤ s.now ∧ s.vault.mode = .joining ∧ s.power.mode ≠ .starting)
    ∧ (let s := atCourse (fullOn.val .vaultLossCourses 0 0) (pooled 2);
      (s.peer 2).st = .joined ∧ (s.peer 2).heard + 4096 * s.val .vaultLossCourses 0 0 ≤ s.now)
    ∧ (let s := pooled 2;
      s.isUp 0 ∧ s.roleOf 0 = .peer ∧ s.quieted = false ∧ s.power.exitAt = none ∧ s.vaultLive ∧ s.tagOpen 0 4095 = false ∧ ¬ ((heard s).peer 2).st = .fenced
        ∧ (∀ kind ∈ [1, 2, 3, 4, 5, 6, 7, 8, 9, 10, 11, 12], (heard s).heeds 2 kind))
    ∧ (let u := heard (withVault 2 fun v => { v with here := [key63] });
      u.isPool key63 ∧ u.homedHere key63 ∧ u.baseModule key63 = 2 ∧ Tbl.find u.vault.leaving key63 = none)
    ∧ ((heard (withVault 2 fun v => { v with far := [(key63, .asked)] })).awaited key63)
    ∧ (Tbl.find (heard (withVault 1 fun v => { v with records := [(key63, ⟨1, some 2, 0, 0⟩)] })).vault.records key63 = some ⟨1, some 2, 0, 0⟩)
    ∧ ((Tbl.find (heard (withVault 2 fun v => { v with leaving := [(key63, ⟨3, true, 0⟩)] })).vault.leaving key63).isSome)
    ∧ (let u := heard ((pooled 2).setPeer 2 ⟨.fenced, 0, 0, 0, false⟩);
      (u.peer 2).st = .fenced ∧ u.heeds 2 11 ∧ u.heeds 2 12) := by
  refine ⟨by decide, by decide, by decide, by decide, by decide, by decide, by decide, by decide⟩

theorem witness_BoardEvents :
    ((inMode .starting).power.mode = .starting)
    ∧ (8 < (9 : BitVec 16).toNat ∧ (fullOn.input 4).toggling = false)
    ∧ (let s := atCourse 5000000 (fullOn.setInput 1 ⟨true, false, false, false, 0, none⟩);
      (s.input 1).taken ∧ (s.input 1).faulty = false ∧ (s.input 1).since + 5000000 * 4096 ≤ s.now ∧ s.diesCool ∧ s.dark = false)
    ∧ (let s := atCourse 5000000 (fullOn.setInput 0 ⟨true, false, false, false, 0, none⟩);
      (s.input 0).taken ∧ s.vinIn)
    ∧ (fullOn.board.switchOpen = false ∧ 63000 < (63001 : BitVec 16).toNat)
    ∧ ((fullOn.setBoard { fullOn.board with aux := 3134 }).auxIn = false ∧ fullOn.board.auxLost = false)
    ∧ ((fullOn.setInput 4 ⟨true, false, false, false, 0, none⟩).input 4).taken
    ∧ State.reset.inReset := by
  refine ⟨by decide, by decide, by decide, by decide, by decide, by decide, by decide, by decide⟩

theorem witness_StepRunsTheFrontCommand :
    (State.reset.setPending [.benchEnNAsserted, .seatLost]).pending = [.benchEnNAsserted, .seatLost]
    ∧ (State.reset.pending = [] ∧ State.reset.power.mode = .off) ∧ (fullOn.pending = [] ∧ fullOn.power.mode ≠ .off) := by
  refine ⟨rfl, ⟨rfl, rfl⟩, rfl, by decide⟩

theorem witness_FramesAreReadBack : 1 ≤ 6 ∧ 6 ≤ 6 ∧ 65535 < 2 ^ 16 ∧ 255 < 2 ^ 8 ∧ (bytes 256).length ≤ 256 ∧ 0 < 4 := by decide

theorem witness_FusesStayBurnt :
    (State.reset.setPending [.benchEnNAsserted]).sec.epoch ≤ 32 ∧ (nextOf (step (State.reset.setPending [.benchEnNAsserted]))).isSome := ⟨by decide, rfl⟩

/-- A FILL brick of the pattern of eight bytes 5, and one whose last byte is not zero. -/
def fillBrick (last : Byte) : Stored :=
  ⟨mkRecord (crc32c (List.replicate 256 5)) 1 0 .fill 1 false false, List.replicate 8 5 ++ List.replicate 23 0 ++ [last]⟩

theorem witness_FillBricksExpand :
    (recMode (fillBrick 0).record = .fill ∧ recordOk (fillBrick 0).record ∧ (fillBrick 0).body.length = 32
      ∧ (∀ i, 8 ≤ i → i < 32 → (fillBrick 0).body.getD i 0 = 0)
      ∧ crc32c ((upTo 256).map fun i => (fillBrick 0).body.getD (i % 8) 0) = recCrc (fillBrick 0).record)
    ∧ (recMode (fillBrick 1).record = .fill ∧ recordOk (fillBrick 1).record ∧ (fillBrick 1).body.length = 32
      ∧ ∃ i, 8 ≤ i ∧ i < 32 ∧ (fillBrick 1).body.getD i 0 ≠ 0) := by
  refine ⟨⟨by decide +kernel, by decide +kernel, by decide, ?_, by decide +kernel⟩, by decide +kernel, by decide +kernel, by decide, 31, by decide⟩
  intro i h1 h2
  exact (show ∀ i < 32, 8 ≤ i → (fillBrick 0).body.getD i 0 = 0 by decide) i h2 h1

theorem witness_KeeperRestartLeavesTheKeystone :
    (fullOn.isRunning ∧ fullOn.power.keeperRestart = none)
    ∧ (let s := atCourse 300000000 (State.reset.setPower { power .full with keeperRestart := some 0 });
      s.isRunning ∧ s.power.keeperRestart = some 0 ∧ 0 + 300000000 * 4096 ≤ s.now)
    ∧ { power .full with keeperDown := true }.keeperDown := by decide

theorem witness_CompatibilityBand :
    State.reset.sec.slots[State.reset.sec.running]? = some ⟨.committed, 0, 0, List.replicate 48 0, true⟩ ∧ 0 < 2 ^ 32 := by decide

end Sys2Proof.Machine.Tests
end

/- # The architecture: power requests and events, power loss, failures and reset -/

namespace Sys2Proof.Machine

/- ## Power, the restart and the failure of the module -/

theorem State.mode_ne_off_of_isRunning {s : State} (h : s.isRunning = true) : s.power.mode ≠ .off := by
  intro hoff
  simp [State.isRunning, State.serving, hoff] at h

theorem State.powerLoss_of_isRunning {s : State} (cause : BraceCause) (h : s.isRunning = true) : s.powerLoss cause = s.startBrace cause := by
  simp [State.powerLoss, h]

theorem State.moduleFail_of_isRunning {s : State} (h : s.isRunning = true) :
    s.moduleFail = (s.assertFault.startBrace .failure).updPower fun p => { p with failure := true } := by
  have hb : s.assertFault.isRunning = true := h
  simp [State.moduleFail, State.mode_ne_off_of_isRunning h, State.powerLoss_of_isRunning _ hb]

/-- Settles O14: each request reaches its entry and its action, which is the one its rule names. -/
theorem powerRequestsTakeEffect : Obligations.PowerRequestsTakeEffect := by
  unfold Obligations.PowerRequestsTakeEffect
  intro rq p s u v
  refine ⟨?enter, ?leave, ?cap⟩
  case enter =>
    rintro ⟨htakes, hv, hserving, hquiet, hfits⟩
    have hact : actQuietEnter v u = (rOk, u.updPower fun p => { p with quiet := .calls }) := by
      simp [actQuietEnter, hv, hserving, hquiet, hfits]
    simp only [exec_quietEnter, execQuietEnter, odWrite_of_takes _ htakes]
    rw [hact]; rfl
  case leave =>
    rintro ⟨htakes, hv, hq⟩
    have hact : actQuietExit v u = (rOk, u.startExit.2) := by simp [actQuietExit, hv, hq]
    simp only [exec_quietExit, execQuietExit, odWrite_of_takes _ htakes]
    rw [hact]
  case cap =>
    rintro ⟨htakes, hlo, hhi⟩
    have hact : actPowerCap v u = (rOk, (u.setVal .powerCap 0 0 v).updPower fun p => { p with capAt := u.decidedAt }) := by
      have hr : ¬(v < 300 ∨ 650 < v) := by omega
      simp only [actPowerCap, if_neg hr]
    refine ⟨(u.setVal .powerCap 0 0 v).updPower fun p => { p with capAt := u.decidedAt }, ?_, u.val_setVal_self .powerCap 0 0 v, rfl,
      s.openSess_pages rq.src, s.openSess_ports rq.src⟩
    simp only [exec_powerCap, execPowerCap, odWrite_of_takes _ htakes]
    rw [hact]

/-- What stands in the way of Quiet once its writes are frozen (R36 step 5) is gone. -/
theorem quietEntered_ready {s : State} (hreqs : s.reqs.opened.all (fun r => decide (r.why = .quiet)) = true) (hpages : s.quietPages = [])
    (hland : s.landing = []) (hjobs : s.shelves.all (fun e => e.2.job.isNone) = true) :
    ((s.reqs.opened.any fun r => decide (r.why ≠ .quiet)) || !s.quietPages.isEmpty || !s.landing.isEmpty
      || s.shelves.any fun e => e.2.job.isSome) = false := by
  have hopen : (s.reqs.opened.any fun r => decide (r.why ≠ .quiet)) = false := by simpa using hreqs
  have hbusy : (s.shelves.any fun e => e.2.job.isSome) = false := by
    rw [List.all_eq_not_any_not, Bool.not_eq_true'] at hjobs
    simpa only [Option.not_isNone] using hjobs
  rw [hopen, hbusy, hpages, hland]; rfl

/-- Settles O31: the guard of each event holds, and the event is then its rule's change. -/
theorem powerStateEvents : Obligations.PowerStateEvents := by
  unfold Obligations.PowerStateEvents
  intro s
  dsimp only
  refine ⟨?full, ?freeze, ?entered, ?exitEnd, ?zeroed, ?pwrfail, ?below, ?region, ?braceEnd, ?braceLimit, ?back⟩
  case full => exact fun h => congrArg _ (if_pos h)
  case freeze => exact fun h => congrArg _ (if_pos h)
  case entered =>
    rintro ⟨hfrozen, hreqs, hpages, hland, hjobs⟩
    have hready := quietEntered_ready hreqs hpages hland hjobs
    have hguard : ¬(s.power.quiet ≠ .frozen ∨ _ = true) := not_or.mpr ⟨fun hne => hne hfrozen, Bool.eq_false_iff.mp hready⟩
    exact ⟨_, if_neg hguard, rfl, rfl, rfl, rfl⟩
  case exitEnd =>
    rintro ⟨hmode, hexit⟩
    exact if_neg (by simp [hmode, Option.isSome_iff_ne_none.mp hexit])
  case zeroed => exact fun h => if_neg (by simp [h])
  case pwrfail =>
    rintro ⟨hrun, hok⟩
    have htaken : (s.takeInput 0).isRunning = true := hrun
    simp [execPwrfailNAsserted, State.pwrfail, hok, State.powerLoss_of_isRunning _ htaken]
  case below =>
    intro hrun
    rw [exec_inputBelow38v, execInputBelow38v, State.powerLoss_of_isRunning _ hrun]
  case region =>
    intro hrun r
    rw [exec_regionFault, execRegionFault, State.moduleFail_of_isRunning hrun]
  case braceEnd =>
    rintro ⟨hmode, hreqs, hwaiting, hopens⟩
    rw [exec_braceEnd, execBraceEnd, hreqs, hwaiting, hopens, if_pos ⟨hmode, rfl, rfl, rfl⟩]
  case braceLimit =>
    intro hlimit
    rw [exec_braceLimit, execBraceLimit, if_pos hlimit]
  case back =>
    intro hback
    rw [exec_powerReturn, execPowerReturn, if_pos hback]

/- ## What the last phase of a power loss touches -/

theorem State.portsQuiet_eq (s : State) : ∃ p o v, s.portsQuiet = ((s.setPorts p).setOd o).setVault v := by
  have hback : ∃ p v, (upTo 32).foldl (fun s p => s.movesBack p) s = (s.setPorts p).setVault v := by
    refine List.foldlRecOn (upTo 32) _ (motive := fun t : State => ∃ p v, t = (s.setPorts p).setVault v) ⟨s.ports, s.vault, rfl⟩ ?_
    rintro _ ⟨p, v, rfl⟩ k -
    exact ⟨_, _, rfl⟩
  obtain ⟨p, v, h⟩ := hback
  exact ⟨_, _, v, by rw [State.portsQuiet, h]; rfl⟩

@[simp] theorem State.portsQuiet_flush (s : State) : s.portsQuiet.flush = s.flush := by
  obtain ⟨p, o, v, h⟩ := s.portsQuiet_eq; rw [h]; rfl
@[simp] theorem State.portsQuiet_power (s : State) : s.portsQuiet.power = s.power := by
  obtain ⟨p, o, v, h⟩ := s.portsQuiet_eq; rw [h]; rfl

@[simp] theorem State.updCistern_flush (s : State) (f : Cistern → Cistern) : (s.updCistern f).flush = s.flush := rfl
@[simp] theorem State.updCistern_power (s : State) (f : Cistern → Cistern) : (s.updCistern f).power = s.power := rfl
@[simp] theorem State.updCistern_cistern (s : State) (f : Cistern → Cistern) : (s.updCistern f).cistern = f s.cistern := rfl
@[simp] theorem State.updPower_flush (s : State) (f : Power → Power) : (s.updPower f).flush = s.flush := rfl
@[simp] theorem State.updPower_power (s : State) (f : Power → Power) : (s.updPower f).power = f s.power := rfl
@[simp] theorem State.railsLost_flush (s : State) : s.railsLost.flush = s.flush := rfl

theorem State.enterSealed_flush (s : State) : s.enterSealed.flush = s.flush := by
  rw [State.enterSealed, State.updCistern_flush, State.portsQuiet_flush, State.updPower_flush]
theorem State.enterSealed_power (s : State) : s.enterSealed.power = { s.power with mode := .sealed, sealedAt := s.now } := by
  rw [State.enterSealed, State.updCistern_power, State.portsQuiet_power, State.updPower_power]
theorem State.enterSealed_cistern_mode (s : State) : s.enterSealed.cistern.mode = .idle := by
  rw [State.enterSealed, State.updCistern_cistern]

theorem State.goOff_flush (s : State) : s.goOff.flush = s.flush := by
  rw [State.goOff, State.updPower_flush, State.updCistern_flush, State.portsQuiet_flush, State.railsLost_flush]
theorem State.goOff_mode (s : State) : s.goOff.power.mode = .off := by
  rw [State.goOff, State.updPower_power]

/-- A list of pages takes slots in the Cellar and nothing else (R399 step 3). -/
theorem State.listPages_eq : ∀ (l : List (Nat × Page)) (s : State), ∃ c, (s.listPages l).2 = s.setCellar c
  | [], s => ⟨s.cellar, rfl⟩
  | (k, p) :: rest, s => by
    simp only [State.listPages]
    split
    · exact State.listPages_eq rest s
    · obtain ⟨c, h⟩ := State.listPages_eq rest (s.putImage (s.slotFor p) (imageOf k p.form none 0))
      exact ⟨c, h⟩

@[simp] theorem State.listPages_time (s : State) (l : List (Nat × Page)) : (s.listPages l).2.time = s.time := by
  obtain ⟨c, h⟩ := State.listPages_eq l s; rw [h]; rfl

/-- Sealing the zone's superblocks is a change of the Cellar. -/
theorem State.sealZone_eq (s : State) (set rows : Nat) : ∃ c, s.sealZone set rows = s.setCellar c := by
  refine List.foldlRecOn _ _ (motive := fun t : State => ∃ c, t = s.setCellar c) ⟨s.cellar, rfl⟩ ?_
  rintro _ ⟨c, rfl⟩ x -
  exact ⟨_, rfl⟩

@[simp] theorem State.sealZone_flush (s : State) (set rows : Nat) : (s.sealZone set rows).flush = s.flush := by
  obtain ⟨c, h⟩ := s.sealZone_eq set rows; rw [h]; rfl
@[simp] theorem State.sealZone_time (s : State) (set rows : Nat) : (s.sealZone set rows).time = s.time := by
  obtain ⟨c, h⟩ := s.sealZone_eq set rows; rw [h]; rfl

theorem State.replaceBlock_eq (s : State) (k p plane : Nat) : ∃ c, s.replaceBlock k p plane = s.setCellar c := by
  simp only [State.replaceBlock]
  split
  · exact ⟨s.cellar, rfl⟩
  · split
    · exact ⟨_, rfl⟩
    · split <;> exact ⟨_, rfl⟩

@[simp] theorem State.failBlock_time (s : State) (k : Nat) (f : BlockFail) (cause : Nat) : (s.failBlock k f cause).time = s.time := by
  have hretire : (s.retireBlock f cause).time = s.time := by simp only [State.retireBlock, State.raise_time]; rfl
  simp only [State.failBlock]
  split
  · obtain ⟨c, h⟩ := (s.retireBlock f cause).replaceBlock_eq k (f.channel.val / 2) f.plane
    rw [h, State.setCellar_time, hretire]
  · exact hretire

theorem State.foldl_failBlock_time (l : List (Nat × ZoneFail)) (s : State) :
    (l.foldl (fun s x => s.failBlock x.1 x.2.fail 3) s).time = s.time := by
  induction l generalizing s with
  | nil => rfl
  | cons x xs ih => rw [List.foldl_cons, ih, State.failBlock_time]

/-- Images laid in the zone are those of the list, in its order; only where each lies is new. -/
theorem State.placeZone_map {α : Type} (s : State) (lost : Nat → List Nat) (g : FlushItem → α)
    (hg : ∀ x loc, g { x with loc := loc } = g x) (l : List FlushItem) (at_ : (Nat × Nat) × (Nat × Nat)) :
    (s.placeZone lost at_ l).1.map g = l.map g := by
  induction l generalizing at_ with
  | nil => rfl
  | cons x xs ih => simp only [State.placeZone, List.map_cons, hg, ih]

theorem State.placeZone_length (s : State) (lost : Nat → List Nat) (l : List FlushItem) (at_ : (Nat × Nat) × (Nat × Nat)) :
    (s.placeZone lost at_ l).1.length = l.length := by
  simpa using congrArg List.length (s.placeZone_map lost (fun _ => ()) (fun _ _ => rfl) l at_)

/-- What a completed flush leaves (R399, R400): the images of its list laid in the zone before those of step 6, under one manifest. -/
theorem execFlushComplete_of_flush {s : State} (drawn : BitVec 32) (zone : ZoneFlush) (hmode : s.power.mode = .flush) :
    ∃ (u : State) (f : Flush) (m : FlushManifest), execFlushComplete drawn zone s = .next (u.setFlush f).enterSealed
      ∧ u.time = s.time ∧ f.sealed = true ∧ f.listDone = true ∧ f.done = s.flush.list.length
      ∧ (∃ v lost at_ vol, f.list = (State.placeZone v lost at_ (s.flush.list ++ vol)).1.take s.flush.list.length)
      ∧ f.durable = some m ∧ m.kind = 0 ∧ m.seq = s.flush.seq ∧ m.entries = f.list.length := by
  rw [execFlushComplete, if_neg fun hne => hne hmode]
  refine ⟨_, _, _, rfl, ?time, rfl, rfl, rfl, ⟨_, _, _, _, rfl⟩, rfl, rfl, rfl, rfl⟩
  case time => simp only [State.setCellar_time, State.foldl_failBlock_time, State.sealZone_time, State.listPages_time]

/-- What rails that fall in a flush leave where its list is programmed (R402). -/
theorem execRailsFall_of_flush {s : State} (n : BitVec 40) (hmode : s.power.mode = .flush) :
    ∃ (u : State) (f : Flush), execRailsFall true n s = .next (u.setFlush f).goOff ∧ f.listDone = true ∧ f.sealed = s.flush.sealed
      ∧ (∃ lost at_, f.list = (s.placeZone lost at_ (s.flush.list.take n.toNat)).1 ++ s.flush.list.drop n.toNat)
      ∧ f.done = min n.toNat s.flush.list.length := by
  simp only [execRailsFall, hmode]
  refine ⟨_, _, rfl, rfl, ?sealed, ⟨fun _ => [], ((s.zoneRows (8 * s.flush.list.length), 64), (0, 64)), ?list⟩, ?done⟩
  case sealed => simp only [State.setCellar_flush, State.sealZone_flush]
  case list => simp only [State.setCellar_flush, State.sealZone_flush]; rfl
  case done => exact (s.placeZone_length _ _ _).trans List.length_take

/-- Settles O32: the lists keep their order since laying images in the zone changes only where they lie, and every end is through `enterSealed` or
`goOff`. -/
theorem flushAndRailsEnd : Obligations.FlushAndRailsEnd := by
  unfold Obligations.FlushAndRailsEnd
  intro s drawn vol n lost
  refine ⟨?complete, ?dark, ?early, ?brace, ?flush, ?starting, s.goOff_mode⟩
  case complete =>
    intro hmode
    obtain ⟨u, f, m, heq, htime, hsealed, hdone, hcount, ⟨v, missed, at_, items, hlist⟩, hdurable, hkind, hseq, hentries⟩ :=
      execFlushComplete_of_flush drawn ⟨vol, lost⟩ hmode
    have hkept : f.list.map (fun x => (x.slot, x.seq, x.page)) = s.flush.list.map fun x => (x.slot, x.seq, x.page) := by
      rw [hlist, List.map_take, v.placeZone_map missed _ fun _ _ => rfl, ← List.map_take, List.take_left]
    have hlen : f.list.length = s.flush.list.length := by simpa using congrArg List.length hkept
    have hnow : (u.setFlush f).now = s.now := by rw [State.now, State.now, State.setFlush_time, htime]
    have hflush : (u.setFlush f).enterSealed.flush = f := State.enterSealed_flush _
    refine ⟨_, m, heq, ?_, ?_, State.enterSealed_cistern_mode _, ?_⟩
    · rw [State.enterSealed_power]
    · rw [State.enterSealed_power, hnow]
    · rw [hflush]
      exact ⟨hsealed, hdone, hcount, hkept, hdurable, hkind, hseq, hentries.trans hlen⟩
  case dark => rintro (hmode | hmode) <;> simp [execRailsFall, hmode]
  case early => rintro (hmode | hmode) <;> simp [execRailsFall, hmode]
  case brace => intro hmode; simp [execRailsFall, hmode]
  case flush =>
    intro hmode
    obtain ⟨u, f, heq, hdone, hsealed, ⟨missed, at_, hlist⟩, hcount⟩ := execRailsFall_of_flush n hmode
    have hflush : (u.setFlush f).goOff.flush = f := State.goOff_flush _
    refine ⟨_, heq, State.goOff_mode _, ?_⟩
    rw [hflush, hlist, List.map_append, s.placeZone_map missed _ fun _ _ => rfl, ← List.map_append, List.take_append_drop]
    exact ⟨hdone, hsealed, hcount, rfl⟩
  case starting => intro hmode; simp [execRailsFall, hmode, State.updStart]

/- ## Failed clusters and the watchdog -/

/-- The Keeper had a restart less than ten minutes ago (R31). -/
def State.restartedLately (s : State) : Bool :=
  match s.power.keeperRestart with | some t => decide (s.now < t + 300000000 * 4096) | none => false

theorem State.restartedLately_of_none {s : State} (h : s.power.keeperRestart = none) : s.restartedLately = false := by
  simp [State.restartedLately, h]

theorem State.restartedLately_of_some {s : State} {t : Nat} (h : s.power.keeperRestart = some t) :
    s.restartedLately = decide (s.now < t + 300000000 * 4096) := by
  simp [State.restartedLately, h]

/-- The watchdog where the Keeper serves (R31). -/
theorem execKeeperWatchdog_of_serving {s : State} (h : s.isRunning = true ∨ s.power.mode = .brace ∨ s.power.mode = .flush) :
    execKeeperWatchdog s = .next (if s.restartedLately then s.moduleFail
      else s.setPower { s.power with keeperDown := true, keeperRestart := some s.now }) :=
  if_pos (h.imp_right (Or.imp_right Or.inl))

/-- Settles O33: a case for each kind of die, one for the Keeper's last restart, and the end of a restart. -/
theorem failuresAndWatchdog : Obligations.FailuresAndWatchdog := by
  unfold Obligations.FailuresAndWatchdog
  intro s d hdark
  refine ⟨fun hhot => ?die, fun hserving => ⟨?restart, ?again⟩, ?done⟩
  case die =>
    have hguard : ¬(Tbl.get s.board.hot d 0 < 50 ∨ s.dark = true) := by simp [hdark, hhot]
    simp only [exec_dieAtLimit, execDieAtLimit, if_neg hguard]
    refine ⟨?logic, ?loft, ?package, ?cellar⟩
    case logic => exact fun h => if_pos h
    case loft =>
      rintro ⟨hlo, hhi⟩
      rw [if_neg (by omega), if_pos hhi]
    case package =>
      rintro ⟨hlo, hhi⟩
      rw [if_neg (by omega), if_neg (by omega), if_pos hhi]
    case cellar =>
      rintro ⟨hlo, hserve⟩
      have hd := d.isLt
      rw [if_neg (by omega), if_neg (by omega), if_neg (by omega), hserve (2 * (d.val - 37)) (by omega)]
      rfl
  case restart =>
    intro hlast
    have hlate : s.restartedLately = false := by
      rcases hlast with hnone | ⟨t, ht, hold⟩
      · exact State.restartedLately_of_none hnone
      · rw [State.restartedLately_of_some ht, decide_eq_false_iff_not]; omega
    rw [exec_keeperWatchdog, execKeeperWatchdog_of_serving hserving, hlate]; rfl
  case again =>
    rintro t ⟨ht, hsoon⟩
    have hlate : s.restartedLately = true := by rw [State.restartedLately_of_some ht, decide_eq_true hsoon]
    rw [exec_keeperWatchdog, execKeeperWatchdog_of_serving hserving, hlate]; rfl
  case done => exact fun h => congrArg _ (if_pos h)

/- ## Reset -/

/-- Settles O54: the tables are empty at reset, so that every reading is its default, and an Off module lets no time pass. -/
theorem resetValues : Obligations.ResetValues := by
  unfold Obligations.ResetValues
  refine ⟨rfl, rfl, rfl, fun _ _ _ => ⟨rfl, rfl⟩, fun f => ?fn, fun _ => rfl, fun _ => rfl, rfl, rfl, rfl, rfl, rfl⟩
  case fn =>
    change (fnDflt f).state = .off
    unfold fnDflt
    split <;> rfl

end Sys2Proof.Machine

/- # Courses, stamps and the tally: events, the time base, the course boundary and the step -/

namespace Sys2Proof.Machine

/- ## The bytes of an entry (R62) -/

@[simp] theorem leBytes_length (n v : Nat) : (leBytes n v).length = n := by
  induction n generalizing v with
  | zero => rfl
  | succ n ih => rw [leBytes, List.length_cons, ih]

@[simp] theorem fit_length (n : Nat) (bs : List Byte) : (fit n bs).length = n := by
  rw [fit, List.length_take, List.length_append, List.length_replicate]
  omega

theorem TallyEntry.body_length (e : TallyEntry) : e.body.length = 30 := by simp [TallyEntry.body]

theorem TallyEntry.bytes_length (e : TallyEntry) : e.bytes.length = 32 := by
  rw [TallyEntry.bytes, List.length_append, e.body_length, leBytes_length]

/- ## Notification queues (R456) -/

theorem NotifyQueue.push_of_lt {q : NotifyQueue} (e : TallyEntry) (h : q.queue.length < 256) :
    q.push e = { q with queue := q.queue ++ [e] } :=
  if_pos (by rw [List.length_append]; exact h)

theorem NotifyQueue.push_of_full {q : NotifyQueue} (e : TallyEntry) (h : q.queue.length = 256) :
    q.push e = { q with queue := q.queue.drop 1 ++ [e], dropped := q.dropped + 1 } := by
  have hfull : ¬(q.queue ++ [e]).length ≤ 256 := by simp [h]
  rw [← List.drop_append_of_le_length (by omega)]
  exact if_neg hfull

/- ## An event and a tally that takes entries (R65 to R67) -/

/-- The tally writes an entry of every severity at once: the writer runs and holds nothing back, and the ring is below the fill that shuts
out Info (R67). -/
structure State.writesTally (s : State) : Prop where
  unsealed : s.tally.sealed = false
  keeperUp : s.power.keeperDown = false
  noneHeld : s.tally.held = []
  infoOn : s.tally.infoOff = false
  noticeOn : s.tally.noticeOff = false
  room : 10 * s.tally.undrained + 10 < 9 * ringSize

/-- Advancing the counters of the sources leaves the tally as ready as it was. -/
theorem State.writesTally.setSeqs {s : State} (h : s.writesTally) (q : Tbl Nat) : (s.setTally { s.tally with seqs := q }).writesTally :=
  ⟨h.unsealed, h.keeperUp, h.noneHeld, h.infoOn, h.noticeOn, h.room⟩

theorem State.writesTally.shut_eq_false {s : State} (h : s.writesTally) (sev : Nat) : s.tally.shut sev = false := by
  have hinfo : ¬9 * ringSize ≤ 10 * s.tally.undrained := by have := h.room; omega
  have hnotice : ¬ringSize ≤ s.tally.undrained := by omega
  simp [Tally.shut, h.infoOn, h.noticeOn, hinfo, hnotice]

theorem State.record_of_writesTally {s : State} (h : s.writesTally) (e : TallyEntry) (room : Option Nat) (also : List Nat) :
    s.record e room also = (s.setTally (s.tally.append e)).notifyAll e (s.notifyDests e room also) := by
  have hroom : ¬ringSize ≤ s.tally.undrained := by have := h.room; omega
  simp [State.record, h.unsealed, h.keeperUp, h.shut_eq_false, h.noneHeld, hroom]

@[simp] theorem State.notifyAll_tally (s : State) (e : TallyEntry) (ds : List Nat) : (s.notifyAll e ds).tally = s.tally := by
  obtain ⟨n, o, h⟩ := State.notifyAll_eq e ds s; rw [h]; rfl

theorem State.raise_of_seq_lt {s : State} {e : Ev} (h : s.nextSeq e.region e.unit < 2 ^ 32 - 1) : s.raise e = s.raiseOne e :=
  if_neg (Nat.ne_of_lt h)

/-- An event's entry joins the ring, and its source's counter moves on by one. -/
theorem State.raise_tally_of_writesTally {s : State} (h : s.writesTally) {e : Ev} (hseq : s.nextSeq e.region e.unit < 2 ^ 32 - 1) :
    (s.raise e).tally = Tally.append
      { s.tally with seqs := Tbl.put s.tally.seqs (e.region * 1024 + e.unit) (s.nextSeq e.region e.unit + 1) } (s.entryOf e) := by
  have hnowrap : (s.nextSeq e.region e.unit + 1) % 2 ^ 32 = s.nextSeq e.region e.unit + 1 := Nat.mod_eq_of_lt (by omega)
  rw [State.raise_of_seq_lt hseq, State.raiseOne, hnowrap, State.record_of_writesTally (h.setSeqs _), State.notifyAll_tally,
    State.setTally_tally, State.setTally_tally]

theorem State.nextSeq_raise_of_writesTally {s : State} (h : s.writesTally) {e : Ev} (hseq : s.nextSeq e.region e.unit < 2 ^ 32 - 1) :
    (s.raise e).nextSeq e.region e.unit = s.nextSeq e.region e.unit + 1 := by
  rw [State.nextSeq, State.raise_tally_of_writesTally h hseq]
  exact Tbl.get_put_self ..

/-- Settles O30: the counter does not wrap, so one entry is written, and the writer appends it; an event leaves all but the tally, the queues
and what is sent (`State.raise_eq`); a queue is pushed below 256 entries or at 256. -/
theorem eventsAndNotifications : Obligations.EventsAndNotifications := by
  unfold Obligations.EventsAndNotifications
  refine ⟨?event, ?queue⟩
  case event =>
    intro s e hsealed hkeeper hheld hinfo hnotice hroom hseq
    have h : s.writesTally := ⟨hsealed, hkeeper, hheld, hinfo, hnotice, hroom⟩
    have htally := State.raise_tally_of_writesTally h hseq
    have hstamp : (s.entryOf e).stamp = 4096 * s.time.course + s.time.pos := congrArg (· + s.time.pos) (Nat.mul_comm ..)
    exact ⟨congrArg Tally.entries htally, hstamp, rfl, rfl, rfl, rfl, (s.entryOf e).bytes_length, State.nextSeq_raise_of_writesTally h hseq,
      (congrArg Tally.drained htally).trans rfl, s.raise_pages e, s.raise_ports e, s.raise_od e, s.raise_power e, s.raise_rooms e, s.raise_cores e,
      s.raise_sec e, s.raise_pending e⟩
  case queue =>
    intro q e hle
    refine ⟨?bound, ?below, ?full⟩
    case bound =>
      rcases Nat.lt_or_eq_of_le hle with hlt | hfull
      · rw [NotifyQueue.push_of_lt e hlt, List.length_append]; exact hlt
      · rw [NotifyQueue.push_of_full e hfull]; simp [hfull]
    case below => intro hlt; rw [NotifyQueue.push_of_lt e hlt]; exact ⟨rfl, rfl⟩
    case full => intro hfull; rw [NotifyQueue.push_of_full e hfull]; exact ⟨rfl, rfl⟩

/- ## The time base (R58, R60) -/

@[simp] theorem State.timeTo_time (s : State) (new : TimeMode) (off : Int) :
    (s.timeTo new off).time = { s.time with mode := new, runNear := 0, runOff := 0, runFar := 0 } :=
  State.raise_time ..
@[simp] theorem State.timeTo_od (s : State) (new : TimeMode) (off : Int) : (s.timeTo new off).od = s.od := State.raise_od ..
@[simp] theorem State.timeTo_ports (s : State) (new : TimeMode) (off : Int) : (s.timeTo new off).ports = s.ports := State.raise_ports ..

/-- PTP messages are heeded in the domain of PTP_DOMAIN while time is kept (R58). -/
theorem State.ptpHeeded {s : State} {domain : Byte} (htime : s.timeless = false) (hdomain : domain.toNat = s.val .ptpDomain 0 0) :
    ¬(s.timeless || decide (domain.toNat ≠ s.val .ptpDomain 0 0)) = true := by
  simp [htime, hdomain]

/-- Beacons are heeded on an Up Peer port (R58). -/
theorem State.beaconHeeded {s : State} {p : Nat} (hdark : s.dark = false) (hup : s.isUp p = true) (hrole : s.roleOf p = .peer) :
    ¬(s.dark || !s.isUp p || decide (s.roleOf p ≠ .peer)) = true := by
  simp [hdark, hup, hrole]

theorem execTimeBeacon_of_request {s : State} {port : Fin 32} {b : Beacon} (hdark : s.dark = false) (hup : s.isUp port = true)
    (hrole : s.roleOf port = .peer) (hreq : b.reply = false) :
    execTimeBeacon port b s = .next (s.sendBeacon port
      (s.ownBeacon true b.t1 (BitVec.ofNat 64 (s.shown s.now)) (BitVec.ofNat 64 (s.shown s.now)))) := by
  simp only [execTimeBeacon, if_neg (State.beaconHeeded hdark hup hrole), hreq, Bool.not_false, if_true]

/-- A reply from a Locked peer with a hop count of 2 or less, where no PTP arrives, is measured (R58). -/
theorem execTimeBeacon_of_reply {s : State} {port : Fin 32} {b : Beacon} (hdark : s.dark = false) (hup : s.isUp port = true)
    (hrole : s.roleOf port = .peer) (hreply : b.reply = true) (htime : s.timeless = false) (hptp : s.ptpActive = false)
    (hlocked : b.locked = true) (hhops : b.hops.toNat ≤ 2) :
    let u := s.setTime { s.time with linkDelay := Tbl.put s.time.linkDelay port (beaconDelay b) }
    let x := u.acquire (beaconOffset b) (s.val .vaultEpoch 0 0 + (unitsToNs ((b.t3.toNat : Int) + beaconDelay b)).toNat)
    execTimeBeacon port b s = .next ((x.2.setTime { x.2.time with hops := b.hops.toNat + 1 }).measured x.1 (.beacon port)) := by
  have hptp' : (s.setTime { s.time with linkDelay := Tbl.put s.time.linkDelay port (beaconDelay b) }).ptpActive = false := hptp
  simp only [execTimeBeacon, if_neg (State.beaconHeeded hdark hup hrole), hreply, htime, hptp', hlocked, hhops, Bool.not_true,
    Bool.false_eq_true, if_false, decide_true, Bool.and_self, if_true]
  rfl

theorem execTimeHoldover_of_silence {s : State} (hmode : s.time.mode = .locked ∨ s.time.mode = .loose)
    (hsecond : s.time.lastMeas + 500000 * 4096 ≤ 4096 * s.time.course) (hdark : s.dark = false) (hpos : s.time.pos = 0) :
    execTimeHoldover s = .next (s.timeTo .holdover s.time.offset) := by
  have hdue : s.time.lastMeas + oneSecond ≤ stampOf s.time.course 0 := by
    rw [oneSecond, stampOf, Nat.mul_comm s.time.course]; exact hsecond
  exact if_pos (by simp [hmode, hdue, hdark, hpos])

/-- Past 1 µs Holdover ends in Adrift, with the offset as it is then estimated (R60). -/
theorem execHoldoverEstimateAdrift_of_far {s : State} (hmode : s.time.mode = .holdover) (hdark : s.dark = false) (hpos : s.time.pos = 0)
    (hfar : 1000 * (500000 * 4096) < s.time.offset.natAbs * (500000 * 4096) + 100 * (4096 * s.time.course - s.time.lastMeas)) :
    ∃ est, execHoldoverEstimateAdrift s = .next (s.timeTo .adrift est) := by
  have hest : 1000 * oneSecond < s.time.offset.natAbs * oneSecond + 100 * (stampOf s.time.course 0 - s.time.lastMeas) := by
    rw [oneSecond, stampOf, Nat.mul_comm s.time.course]; exact hfar
  exact ⟨_, if_pos (by simp [hmode, hest, hdark, hpos])⟩

/-- An announcement that is taken becomes the master's (R58). -/
theorem execPtpAnnounce_of_taken {s : State} {domain : Byte} {a : Announce} (htime : s.timeless = false)
    (hdomain : domain.toNat = s.val .ptpDomain 0 0)
    (htaken : s.time.master = none ∨ ∃ m st, s.time.master = some (m, st) ∧ (m.identity = a.identity ∨ announceBetter a m
      ∨ st + 4096 * Config.announceTimeout ≤ s.now)) :
    execPtpAnnounce domain a s = .next (s.setTime { s.time with master := some (a, s.now) }) := by
  rw [execPtpAnnounce, if_neg (State.ptpHeeded htime hdomain)]
  rcases htaken with hnone | ⟨m, st, hmaster, hsame | hbetter | hsilent⟩
  · simp [hnone]
  · simp [hmaster, hsame]
  · simp [hmaster, hbetter]
  · simp [hmaster, hsilent]

/-- Settles O29: the guard of each command holds, and the command is then its rule's change. -/
theorem timeAndTallyCommands : Obligations.TimeAndTallyCommands := by
  unfold Obligations.TimeAndTallyCommands
  intro s
  refine ⟨?ptp, ?beacon, ?round, ?holdover, ?adrift, ?drain, ?announce⟩
  case ptp =>
    rintro domain offset tai ⟨htime, hdomain⟩
    exact if_neg (State.ptpHeeded htime hdomain)
  case beacon =>
    rintro port b ⟨hdark, hup, hrole⟩
    refine ⟨?request, ?reply⟩
    case request => exact execTimeBeacon_of_request hdark hup hrole
    case reply =>
      rintro ⟨hreply, htime, hptp, hlocked, hhops⟩
      exact execTimeBeacon_of_reply hdark hup hrole hreply htime hptp hlocked hhops
  case round => exact fun hdark => if_neg (Bool.eq_false_iff.mp hdark)
  case holdover =>
    rintro ⟨hmode, hsecond, hdark, hpos⟩
    exact ⟨_, execTimeHoldover_of_silence hmode hsecond hdark hpos, by rw [State.timeTo_time], by rw [State.timeTo_time],
      State.timeTo_od .., State.timeTo_ports ..⟩
  case adrift =>
    rintro ⟨hmode, hdark, hpos, hfar⟩
    obtain ⟨est, heq⟩ := execHoldoverEstimateAdrift_of_far hmode hdark hpos hfar
    exact ⟨_, heq, by rw [State.timeTo_time], State.timeTo_od .., State.timeTo_ports ..⟩
  case drain =>
    rintro ⟨hdark, hdue⟩
    exact if_neg (by simp [hdark, hdue])
  case announce =>
    rintro domain a ⟨htime, hdomain, htaken⟩
    exact execPtpAnnounce_of_taken htime hdomain htaken

/- ## The course boundary and the governor (R45, R48, R38) -/

/-- The readings of a dark module change the board, the Keystone and the Cistern, and nothing else; the supplies read are the board's. -/
theorem State.readings_of_dark {s : State} (env : Env) (h : s.dark = true) :
    ∃ b x c, s.readings env = ((s.setBoard b).setSec x).setCistern c ∧ b.vin = env.vin.toNat ∧ b.aux = env.aux.toNat := by
  have hdark : ((s.boardRead env).updSec fun x => { x with tripped := env.sensors.toNat }).dark = true := h
  rw [State.readings]
  simp only [hdark, if_true]
  -- whether a slice tests the Cistern's sensors, then whether a cell reads low
  split <;> split <;> exact ⟨(s.boardRead env).board, _, _, rfl, rfl, rfl⟩

theorem State.dark_of_sealed {s : State} (h : s.power.mode = .sealed) : s.dark = true := by simp [State.dark, h]

/-- A boundary in Sealed counts the course and takes its readings; no page, request or tally entry changes (R45). -/
theorem State.readings_of_sealed {s : State} (env : Env) (h : s.power.mode = .sealed) :
    let w := s.pump s.time.pos 4096
    let u := (w.setTime { w.time with course := w.time.course + 1, pos := 0 }).readings env
    u.dark ∧ u.time.course = s.time.course + 1 ∧ u.time.pos = 0 ∧ u.board.vin = env.vin.toNat ∧ u.board.aux = env.aux.toNat
      ∧ u.pages = s.pages ∧ u.reqs = s.reqs ∧ u.tally = s.tally := by
  dsimp only
  have hw : (s.pump s.time.pos 4096).power.mode = .sealed := by rw [State.pump_power, h]
  generalize hv : (s.pump s.time.pos 4096).setTime _ = v
  have hdark : v.dark = true := by rw [← hv]; exact State.dark_of_sealed hw
  obtain ⟨b, x, c, heq, hvin, haux⟩ := State.readings_of_dark env hdark
  rw [heq]
  refine ⟨hdark, ?_, ?_, hvin, haux, ?_, ?_, ?_⟩ <;> simp [← hv]

/-- Settles O34: the boundary by the power state, and the governor's steps by the first that is still to be taken or undone. -/
theorem coursesAndTheGovernor : Obligations.CoursesAndTheGovernor := by
  unfold Obligations.CoursesAndTheGovernor
  refine ⟨fun env s => ⟨?off, ?on, State.readings_of_sealed env⟩,
    fun s => ⟨?cores, ?store, ?ports, ?energy, ?undoCores, ?undoStore, ?undoPorts, ?undoEnergy⟩⟩
  case off => exact fun hoff => if_pos hoff
  case on => exact fun hon => if_neg hon
  case cores => exact fun hcore => if_pos hcore
  case store =>
    rintro ⟨hcore, hstore⟩
    rw [State.governUp, if_neg (Nat.not_lt.mpr hcore), if_pos hstore]
  case ports =>
    rintro ⟨hcore, hstore, hx2⟩
    rw [State.governUp, if_neg (Nat.not_lt.mpr hcore), if_neg (Nat.not_lt.mpr hstore), hx2]; rfl
  case energy =>
    rintro ⟨hcore, hstore, hx2⟩
    exact ⟨_, by rw [State.governUp, if_neg (Nat.not_lt.mpr hcore), if_neg (Nat.not_lt.mpr hstore), hx2]; rfl⟩
  case undoCores =>
    rintro ⟨hcut, hx2, hstore, hcore⟩
    simp [State.governDown, hcut, hx2, hstore, hcore]
  case undoStore =>
    rintro ⟨hcut, hx2, hstore⟩
    simp [State.governDown, hcut, hx2, hstore]
  case undoPorts =>
    rintro ⟨hcut, hx2⟩
    simp [State.governDown, hcut, hx2]
  case undoEnergy => exact fun hcut => if_pos hcut

/- ## The step of the block -/

theorem step_of_cons {s : State} {c : Instr} {rest : List Instr} (h : s.pending = c :: rest) : step s = exec c (s.setPending rest) := by
  rw [step, h]

theorem step_of_nil {s : State} (h : s.pending = []) : step s = .next s.tick := by rw [step, h]

theorem State.tick_of_off {s : State} (h : s.power.mode = .off) : s.tick = s := if_pos h

theorem State.tick_of_on {s : State} (h : s.power.mode ≠ .off) :
    s.tick = ((s.pump s.time.pos (min 4095 (s.time.pos + 1))).setTime { s.time with pos := min 4095 (s.time.pos + 1) }).walkOn :=
  if_neg h

/-- Settles O53: the queue has a front command, or a tick passes, which lets no time pass in Off. -/
theorem stepRunsTheFrontCommand : Obligations.StepRunsTheFrontCommand := by
  unfold Obligations.StepRunsTheFrontCommand
  intro s
  refine ⟨fun c rest => step_of_cons, ?off, ?on⟩
  case off =>
    rintro ⟨hempty, hoff⟩
    rw [step_of_nil hempty, State.tick_of_off hoff]
  case on =>
    rintro ⟨hempty, hon⟩
    rw [step_of_nil hempty, State.tick_of_on hon]

end Sys2Proof.Machine

/- # The Merash link: link states, flits, line requests, calls, line writes, roles and function requests -/

namespace Sys2Proof.Machine

/- ## Link ports: reading a port after a change -/

@[simp] theorem State.port_raise (s : State) (e : Ev) (p : Nat) : (s.raise e).port p = s.port p :=
  congrArg (Tbl.get · p Port.init) (s.raise_ports e)

@[simp] theorem State.port_send (s : State) (o : Out) (p : Nat) : (s.send o).port p = s.port p := rfl

theorem State.port_setPort_ne (s : State) {k o : Nat} (v : Port) (h : o ≠ k) : (s.setPort k v).port o = s.port o := by
  rw [State.port_setPort, if_neg h]

@[simp] theorem State.port_linkTo_self (s : State) (p : Nat) (m : LinkMode) :
    (s.linkTo p m).port p = { s.port p with link := m, since := s.now } := State.port_updPort_self ..

theorem State.port_linkTo_ne (s : State) {p r : Nat} (m : LinkMode) (h : r ≠ p) : (s.linkTo p m).port r = s.port r :=
  s.port_updPort_ne p r _ h

@[simp] theorem State.linkTo_funcs (s : State) (p : Nat) (m : LinkMode) : (s.linkTo p m).funcs = s.funcs := rfl
@[simp] theorem State.linkTo_reqs (s : State) (p : Nat) (m : LinkMode) : (s.linkTo p m).reqs = s.reqs := rfl

theorem State.isUp_iff {s : State} {p : Nat} : s.isUp p = true ↔ (s.port p).link = .up := decide_eq_true_iff

/- ## A Retrain begun (R77) -/

/-- What a Retrain begun leaves: the port's counters of R81 and R86 that it is to come back Up with, the other ports and the open requests. -/
structure State.beginsRetrain (s t : State) (p trigger : Nat) : Prop where
  link : (t.port p).link = .retrain
  trigger : (t.port p).trigger = trigger
  retrains : (t.port p).retrains = (s.port p).retrains + 1
  spent : (t.port p).spent = (s.port p).spent
  rx : (t.port p).rx = (s.port p).rx
  acked : (t.port p).acked = (s.port p).acked
  others : ∀ r : Nat, r ≠ p → t.port r = s.port r
  reqs : t.reqs = s.reqs

@[simp] theorem State.port_emit_self (s : State) (p : Nat) (q : Port) (type seq map : Nat) (body : List Byte) :
    (s.emit p q type seq map body).port p = (q.framing type seq map).2 := s.port_setPort_self ..

theorem State.port_emit_ne (s : State) {p r : Nat} (q : Port) (type seq map : Nat) (body : List Byte) (h : r ≠ p) :
    (s.emit p q type seq map body).port r = s.port r := s.port_setPort_ne _ h

@[simp] theorem State.emit_reqs (s : State) (p : Nat) (q : Port) (type seq map : Nat) (body : List Byte) :
    (s.emit p q type seq map body).reqs = s.reqs := rfl

/-- What a port keeps for its Retrain: the width before it and the trigger; its counts of NACKs and of flits without an acknowledgement start
again (R77, R81). -/
def Port.retraining (q : Port) (trigger : Nat) : Port :=
  { q with oldWidth := q.width, trigger := trigger, retrains := q.retrains + 1, nackSent := 0, nackRun := 0, sinceAck := 0 }

/-- A port that goes to Retrain in a state that differs from `s` at most by a flit it has sent begins a Retrain of `s`. -/
theorem State.beginsRetrain_linkTo {s u : State} {p : Nat} (trigger : Nat) (hretrains : (u.port p).retrains = (s.port p).retrains)
    (hspent : (u.port p).spent = (s.port p).spent) (hrx : (u.port p).rx = (s.port p).rx) (hacked : (u.port p).acked = (s.port p).acked)
    (hothers : ∀ r : Nat, r ≠ p → u.port r = s.port r) (hreqs : u.reqs = s.reqs) :
    s.beginsRetrain ((u.updPort p fun q => q.retraining trigger).linkTo p .retrain) p trigger := by
  have hport := (u.updPort p fun q => q.retraining trigger).port_linkTo_self p .retrain
  rw [State.port_updPort_self, Port.retraining] at hport
  constructor
  case link => rw [hport]
  case trigger => rw [hport]
  case retrains => rw [hport, ← hretrains]
  case spent => rw [hport, ← hspent]
  case rx => rw [hport, ← hrx]
  case acked => rw [hport, ← hacked]
  case others => intro r hr; rw [State.port_linkTo_ne _ _ hr, State.port_updPort_ne _ _ _ _ hr, hothers r hr]
  case reqs => rw [State.linkTo_reqs, State.updPort_reqs, hreqs]

theorem State.startRetrain_of_up {s : State} {p : Nat} (trigger : Nat) (h : (s.port p).link = .up) :
    s.beginsRetrain (s.startRetrain p trigger) p trigger := by
  rw [State.startRetrain, if_neg fun hne => hne h]
  by_cases hpartner : trigger = 4
  case pos =>
    rw [if_pos hpartner]
    exact State.beginsRetrain_linkTo trigger rfl rfl rfl rfl (fun _ _ => rfl) rfl
  case neg =>
    rw [if_neg hpartner]
    refine State.beginsRetrain_linkTo trigger ?_ ?_ ?_ ?_ (fun r hr => s.port_emit_ne _ _ _ _ _ hr) (s.emit_reqs ..) <;>
      rw [State.port_emit_self, Port.framing]

/- ## The table of link states (R77, R78, R81, R100) -/

theorem execReceiverDetected_of_detect {s : State} {p : Fin 32} {lanes : BitVec 4} (hlink : (s.port p).link = .detect)
    (hlanes : s.goodLanes p lanes.toNat ≠ 0) (htime : s.now ≤ (s.port p).since + 500 * 4096) :
    execReceiverDetected p lanes s
      = .next ((s.updPort p fun q => { q with lanes := s.goodLanes p lanes.toNat }).linkTo p .equalise) :=
  congrArg _ (if_pos ⟨hlink, hlanes, htime⟩)

theorem execEqualiseLimit_of_equalise {s : State} {p : Fin 32} {agreed : BitVec 4} (hlink : (s.port p).link = .equalise)
    (htime : (s.port p).since + 2500 * 4096 ≤ s.now) :
    let l := s.goodLanes p ((s.port p).lanes &&& agreed.toNat)
    execEqualiseLimit p agreed s = .next (if l = 0 then (s.portDown p 4 false).portFailed p
      else (s.updPort p fun q => { q with lanes := l }).linkTo p .configure) :=
  if_neg (by simp [hlink, Nat.not_lt.mpr htime])

/-- A partner of another role in CONFIGURE_EXCHANGE takes the port Down; else the width decides (R77, R78). -/
theorem execConfigureExchange_of_configure {s : State} {p : Fin 32} {r : Partner} {rev : Bool} {pol : BitVec 4}
    (hlink : (s.port p).link = .configure) (htime : s.now ≤ (s.port p).since + 500 * 4096) :
    let w := linkWidth (s.goodLanes p (s.port p).lanes) (s.mostLanes p)
    execConfigureExchange p r rev pol s = .next (
      if r.role ≠ (s.port p).role then (s.linkTo p .down).raise
        { code := 0x1104, sev := 2, region := p.val / 8, unit := 0x060 + p.val % 8,
          args := leBytes 1 p ++ leBytes 1 (roleNo (s.port p).role) ++ leBytes 1 (roleNo r.role) }
      else if w.1 < s.val .portMinWidth p 0 then s.portDown p 4 false
      else s.portUp p r rev pol.toNat w.1 w.2) := by
  have hguard : ¬((s.port p).link ≠ .configure ∨ (s.port p).since + 500 * 4096 < s.now) := by simp [hlink, Nat.not_lt.mpr htime]
  simp only [execConfigureExchange, if_neg hguard]
  split <;> rfl

/-- A Retrain that ends in time is recorded, and the width it has given decides (R77, R100). -/
theorem execRetrainDone_of_retrain {s : State} {p : Fin 32} {lanes : BitVec 4} (hlink : (s.port p).link = .retrain)
    (htime : s.now ≤ (s.port p).since + 250 * 4096) :
    let w := linkWidth (s.goodLanes p lanes.toNat) (min (if (s.port p).trigger = 2 then 4 else (s.port p).oldWidth) (s.mostLanes p))
    let u := s.retrained p w.1
    execRetrainDone p lanes s = .next (if w.1 < max 1 (u.val .portMinWidth p 0) then (u.portDown p 4 false).retryAll
      else (u.updPort p fun q => { q with lanes := lanes.toNat, width := w.1, laneMap := q.laneMap / 8 * 8 + w.2 }).linkTo p .up) :=
  if_neg (by simp [hlink, Nat.not_lt.mpr htime])

theorem triggerOf_ne_four (c : RetrainCause) : triggerOf c ≠ 4 := by cases c <;> decide

/-- Settles O35: a case for each row of R77's table, in which the guard of the command holds. -/
theorem linkStatesFollowTheTable : Obligations.LinkStatesFollowTheTable := by
  unfold Obligations.LinkStatesFollowTheTable
  intro s p
  dsimp only
  refine ⟨fun lanes => ?detected, ?detectLimit, ?again, ?equalised, fun agreed => ?equaliseLimit, fun r rev pol => ?exchange, ?configureLimit,
    fun cause => ?retrain, fun lanes => ?retrained, ?retrainLimit, fun seq => ?nack, ?unacked, fun lane => ?laneLimit⟩
  case detected =>
    rintro ⟨hlink, hlanes, htime⟩
    refine ⟨_, execReceiverDetected_of_detect hlink hlanes htime, ?_, ?_, fun r hr => ?_, rfl, rfl, rfl⟩
    · simp
    · simp
    · rw [State.port_linkTo_ne _ _ hr, State.port_updPort_ne _ _ _ _ hr]
  case detectLimit => exact fun h => congrArg _ (if_pos h)
  case again => exact fun h => congrArg _ (if_pos h)
  case equalised => exact fun h => congrArg _ (if_pos h)
  case equaliseLimit =>
    rintro ⟨hlink, htime⟩
    rw [exec_equaliseLimit, execEqualiseLimit_of_equalise hlink htime]
    refine ⟨fun hnone => by rw [if_pos hnone], fun hsome => ⟨_, by rw [if_neg hsome], ?_⟩⟩
    rw [State.port_linkTo_self, State.port_updPort_self]; rfl
  case exchange =>
    rintro ⟨hlink, htime⟩
    rw [exec_configureExchange, execConfigureExchange_of_configure hlink htime]
    refine ⟨fun hrole => ⟨_, by rw [if_pos hrole], ?_, ?_⟩, ?narrow, ?wide⟩
    · simp
    · simp
    case narrow =>
      rintro ⟨hrole, hwidth⟩
      rw [if_neg (fun hne => hne hrole), if_pos hwidth]
    case wide =>
      rintro ⟨hrole, hwidth⟩
      rw [if_neg (fun hne => hne hrole), if_neg (Nat.not_lt.mpr hwidth)]
  case configureLimit => exact fun h => congrArg _ (if_pos h)
  case retrain =>
    intro hup
    obtain ⟨hlink, -, hretrains, hspent, hrx, hacked, hothers, hreqs⟩ := State.startRetrain_of_up (triggerOf cause) hup
    exact ⟨_, rfl, hlink, hretrains, hspent, hrx, hacked, hothers, hreqs⟩
  case retrained =>
    rintro ⟨hlink, htime⟩
    rw [exec_retrainDone, execRetrainDone_of_retrain hlink htime]
    refine ⟨fun hwidth => congrArg _ (if_pos hwidth), fun hwidth => ⟨_, congrArg _ (if_neg (Nat.not_lt.mpr hwidth)), ?_, ?_⟩⟩
    · simp
    · simp
  case retrainLimit => exact fun h => congrArg _ (if_pos h)
  case nack => exact fun hup => congrArg _ (if_pos (State.isUp_iff.mpr hup))
  case unacked =>
    rintro ⟨hcount, hup⟩
    have h := State.startRetrain_of_up 0 hup
    exact ⟨s.startRetrain p 0, congrArg _ (if_pos hcount), h.link, h.trigger⟩
  case laneLimit =>
    rintro ⟨hcount, hlinked⟩
    exact if_neg (by simp [hlinked, Nat.not_le.mpr hcount])

/- ## Flits (R80, R81) -/

@[simp] theorem State.fecCounted_replays (s : State) (p : Nat) (corr : List Byte) :
    ((s.fecCounted p corr).port p).replays = (s.port p).replays := by rw [State.fecCounted, State.port_updPort_self]

/-- Below the eighth NACK in a row, a flit discarded is counted and its NACK sent (R81). -/
theorem State.nackFlit_of_lt {s : State} {p : Nat} (h : (s.port p).nackSent < 7) :
    s.nackFlit p = (s.setPort p { s.port p with
        replays := (s.port p).replays + 1, nackSent := (s.port p).nackSent + 1, nackDue := true }).send
      (.nack p (((s.port p).rxSeq + 4095) % 4096)) :=
  if_neg (by omega)

/-- Settles O36: a flit that checks is taken by its FLIT_TYPE and, as a PAYLOAD flit, by its sequence number; every other is discarded. -/
theorem flitsAreTakenOrReplayed : Obligations.FlitsAreTakenOrReplayed := by
  unfold Obligations.FlitsAreTakenOrReplayed
  intro s p flit corr fecOk hup
  dsimp only
  simp only [exec_flitReceived, execFlitReceived, hup, Bool.not_true, Bool.false_eq_true, if_false]
  refine ⟨fun hgood => ?bad, fun ⟨hgood, htype, hseq⟩ => ?other, fun ⟨hgood, htype, hseq⟩ => ?expected, fun ⟨hgood, htype⟩ => ?idle,
    fun ⟨hgood, htype⟩ => ?nack, fun ⟨hgood, htype⟩ => ?retrain, fun hrun => ?discarded⟩
  case bad => simp [hgood]
  case other => simp [hgood, htype, hseq]
  case expected => simp [hgood, htype, hseq]
  case idle => simp [hgood, htype]
  case nack => simp [hgood, htype]
  case retrain => simp [hgood, htype]
  case discarded =>
    rw [State.nackFlit_of_lt hrun]
    exact ⟨rfl, by rw [State.port_send, State.port_setPort_self, State.fecCounted_replays], rfl, rfl⟩

/- ## Line requests (R88 to R90, R97, R99) -/

theorem State.roomOn_eq (s : State) (k : Fin 64) : s.roomOn k = decide ((s.fn (.room k)).state = .on) := dif_pos k.isLt

/-- The checks of R88 steps 1 to 4 and of R431, in words. -/
theorem State.denied_iff (s : State) (p : Nat) (room : Fin 64) (line : Nat) :
    s.denied p room line = true ↔ (s.roleOf p ≠ .host ∧ s.roleOf p ≠ .companion)
      ∨ (s.roleOf p = .host ∧ bitOf (s.val .roomOwnerPorts room 0) p = false) ∨ s.windowAt room (line * 64) = none
      ∨ (s.fn (.room room)).state ≠ .on ∨ s.sec.locked = true := by
  simp [State.denied, State.roomOn_eq, State.owns, State.owners, or_assoc]

section
variable {s : State} {opcode port tag room line : Nat} (hup : s.isUp port = true)
include hup

theorem State.turned_of_used (hused : s.tagOpen port tag = true) :
    s.turned opcode port tag room line = some ((s.respond port tag 4 none 0).raise (protocolEv port opcode tag 1)) := by
  simp [State.turned, hup, hused]

theorem State.turned_of_denied (hfree : s.tagOpen port tag = false) (hdenied : s.denied port room line = true) :
    s.turned opcode port tag room line = some (s.respond port tag 4 none 0) := by
  simp [State.turned, hup, hfree, hdenied]

theorem State.turned_eq_none (hfree : s.tagOpen port tag = false) (hallowed : s.denied port room line = false) :
    s.turned opcode port tag room line = none := by
  simp [State.turned, hup, hfree, hallowed]

end

/-- A request that a check of R88 turns away does no more than be answered. -/
theorem State.arrive_of_turned {s t : State} {opcode : Nat} {r : OpenReq} (h : s.turned opcode r.port r.tag r.room r.line = some t) :
    s.arrive opcode r = t := by
  rw [State.arrive, h]

theorem execCall_of_turned {s t : State} {p : Fin 32} {tag : BitVec 12} {room : Fin 64} {line : BitVec 40} (w : Word) (args : List Byte)
    (h : s.turned 0x10 p tag.toNat room line.toNat = some t) : execCall p tag room line w args s = .next t := by
  rw [execCall, h]

/-- Settles O38: the checks of R88 are the same for each request, and `turned` comes before all else. -/
theorem requestsAreDenied : Obligations.RequestsAreDenied := by
  unfold Obligations.RequestsAreDenied
  intro s p tag room line hup
  dsimp only
  rw [← s.denied_iff p room line.toNat, Bool.not_eq_true]
  refine ⟨?denied, ?used, fun ⟨hfree, hallowed⟩ => State.turned_eq_none hup hfree hallowed⟩
  case denied =>
    rintro ⟨hfree, hdenied⟩ t rfl
    have hturned (opcode : Nat) := State.turned_of_denied (opcode := opcode) hup hfree hdenied
    exact ⟨congrArg _ (State.arrive_of_turned (hturned 1)), congrArg _ (State.arrive_of_turned (hturned 2)),
      fun _ _ => congrArg _ (State.arrive_of_turned (hturned 3)), fun _ _ => congrArg _ (State.arrive_of_turned (hturned 4)),
      fun w args => execCall_of_turned w args (hturned 0x10),
      State.respond_reqs .., State.respond_pages .., State.respond_landing .., State.respond_dir .., State.respond_tally ..⟩
  case used => exact fun hused => congrArg _ (State.arrive_of_turned (State.turned_of_used hup hused))

/- ### Requests that are tried (R97, R99) -/

section
variable {s : State} {opcode : Nat} {r : OpenReq} (h : s.turned opcode r.port r.tag r.room r.line = none)
include h

theorem State.arrive_in_brace (hmode : s.power.mode = .brace ∨ s.power.mode = .flush) :
    s.arrive opcode r = s.respond r.port r.tag 1 none (2 ^ 64 - 1) := by
  rw [State.arrive, h]; exact if_pos hmode

/-- A request meets the Hold of its own port, kind and line, or is tried at once (R97). -/
theorem State.arrive_when_serving (hmode : ¬(s.power.mode = .brace ∨ s.power.mode = .flush)) :
    s.arrive opcode r = (s.reqs.held.find? fun h => decide (h.port = r.port) && decide (h.op = r.op)
      && decide (h.room = r.room) && decide (h.line = r.line)).elim (s.run r none) fun x =>
    if s.now < x.ready then s.respond r.port r.tag 1 none x.ready
    else (s.setHeld (s.reqs.held.erase x)).run { r with heldFor := if s.now ≤ x.ready + 64 * 4096 then some x.why else none } none := by
  rw [State.arrive, h]
  simp only [if_neg hmode]
  split <;> next hfind => rw [hfind]; rfl

end

/-- Settles O37: each of the four commands is the arrival of its request. -/
theorem lineRequestsAreTried : Obligations.LineRequestsAreTried := by
  unfold Obligations.LineRequestsAreTried
  intro s p tag room line poison mask data
  dsimp only
  rintro ⟨c, opcode, r⟩ hf hturned
  have hr : exec c s = .next (s.arrive opcode r) ∧ r.port = p.val ∧ r.tag = tag.toNat ∧ r.room = room.val ∧ r.line = line.toNat := by
    simp only [List.mem_cons, List.not_mem_nil, or_false, Prod.mk.injEq] at hf
    rcases hf with ⟨rfl, rfl, rfl⟩ | ⟨rfl, rfl, rfl⟩ | ⟨rfl, rfl, rfl⟩ | ⟨rfl, rfl, rfl⟩ <;> exact ⟨rfl, rfl, rfl, rfl, rfl⟩
  obtain ⟨hexec, hport, htag, hroom, hline⟩ := hr
  dsimp only at hturned ⊢
  rw [← hport, ← htag, ← hroom, ← hline] at hturned ⊢
  rw [hexec]
  refine ⟨fun hmode => congrArg _ (State.arrive_in_brace hturned hmode), fun hmode => ?_⟩
  rw [State.arrive_when_serving hturned (not_or.mpr hmode)]
  refine ⟨fun hheld => by rw [hheld]; rfl, fun x hheld => ?_⟩
  rw [hheld]
  exact ⟨fun hearly => congrArg _ (if_pos hearly), fun hready => congrArg _ (if_neg (Nat.not_lt.mpr hready))⟩

/- ## Requests that are open (R94 to R96, R98, R101) -/

/-- The request that a port and a TAG name is of that port and TAG. -/
theorem State.openOf_spec {s : State} {p tag : Nat} {r : OpenReq} (h : s.openOf p tag = some r) : r.port = p ∧ r.tag = tag := by
  have hmem : r ∈ s.reqs.opened.filter fun r => decide (r.port = p) && decide (r.tag = tag) := by
    simp only [State.openOf] at h
    split at h
    next x hfind => cases h; exact List.mem_of_find?_eq_some hfind
    next => exact List.mem_of_head? h
  simpa using (List.mem_filter.mp hmem).2

/-- An answer without data carries nothing that is charged. -/
theorem State.answerReq_without_data (s : State) (r : OpenReq) (code : Nat) :
    s.answerReq r code none = if r.gone then s else s.respond r.port r.tag code none 0 := by
  simp [State.answerReq, State.respond]

theorem execHoldThresholdPassed_of_due {s : State} {p : Fin 32} {tag : BitVec 12} {r : OpenReq} (hopen : s.openOf p tag.toNat = some r)
    (hhold : s.holdCapable p = true) (hgone : r.gone = false) (hnew : r.heldFor ≠ some r.why)
    (hlate : r.admitted + 4096 * s.val .holdThreshold p 0 ≤ s.now) :
    let u := s.setOpen (s.reqs.opened.erase r)
    execHoldThresholdPassed p tag s = .next (if r.why = .far then u.respond p tag.toNat 1 none (2 ^ 64 - 1)
      else u.holdNow r r.why (if s.now < r.ready then r.ready else boundaryAfter s.now)) := by
  have hguard : ¬(!s.holdCapable p ∨ r.gone ∨ r.heldFor = some r.why ∨ s.now < r.admitted + 4096 * s.val .holdThreshold p 0) := by
    simp [hhold, hgone, hnew, hlate]
  simp only [execHoldThresholdPassed, hopen, if_neg hguard]; rfl

/-- Settles O39: the request or the recall is found, its time has passed, and an answer without data is a plain response. -/
theorem openRequestsEnd : Obligations.OpenRequestsEnd := by
  unfold Obligations.OpenRequestsEnd
  intro s p tag
  dsimp only
  refine ⟨fun r hopen => ⟨?hold, ?far, ?timeout⟩, fun room line h hheld => ?lapse, fun r hrecall => ⟨fun data => ?answered, fun htime => ?limit⟩,
    fun ⟨hnone, hup⟩ data => ?unknown⟩
  case hold =>
    rintro ⟨⟨hhold, hgone, hnew, hlate⟩, hwhy⟩
    rw [exec_holdThresholdPassed, execHoldThresholdPassed_of_due hopen hhold hgone hnew hlate, if_neg hwhy]
  case far =>
    rintro ⟨⟨hhold, hgone, hnew, hlate⟩, hwhy⟩
    rw [exec_holdThresholdPassed, execHoldThresholdPassed_of_due hopen hhold hgone hnew hlate, if_pos hwhy]
  case timeout =>
    intro hlate
    obtain ⟨hport, htag⟩ := State.openOf_spec hopen
    simp only [exec_completionTimeout, execCompletionTimeout, hopen, if_neg (Nat.not_lt.mpr hlate), State.answerReq_without_data, hport, htag]
  case lapse => rw [exec_pinLapse, execPinLapse, hheld]
  case answered => rw [exec_backInvAnswer, execBackInvAnswer, hrecall]
  case limit => simp only [exec_backInvTimeout, execBackInvTimeout, hrecall, if_pos htime]
  case unknown => simp only [exec_backInvAnswer, execBackInvAnswer, hnone, if_pos hup]

/- ## Calls (R93, R263, R264, R267) -/

/-- A response in a LongRsp changes its port and what is sent, and nothing else. -/
theorem State.respond_long_eq (s : State) (p tag code : Nat) (data : Option (BitVec 512)) (arg : Nat) :
    ∃ q o, s.respond p tag code data arg true = (s.setPorts q).setOut o := by
  unfold State.respond State.respondFor
  cases s.isLinked p
  · exact ⟨s.ports, s.out, rfl⟩
  · exact ⟨_, _, rfl⟩

/-- A call accepted is the last of the calls, under the next CALL_ID; what is sent of it is the CallAck. -/
theorem State.acceptCall_eq (s : State) (p tag : Nat) (c : Call) :
    ∃ q o, (s.acceptCall p tag c).2 = ((s.setCores { s.cores with
      calls := s.cores.calls ++ [{ c with id := s.cores.nextId }], nextId := (s.cores.nextId + 1) % 2 ^ 32 }).setPorts q).setOut o :=
  State.respond_long_eq ..

/-- A call of a program as it is accepted with a window's class (R93, R263): READY, with the header's core limit and step budget. -/
def State.programCall (s : State) (x : Prog) (room line cls w : Nat) (args : List Byte) : Call :=
  ⟨0, bitsOf w 63 32, room, line, cls, if bitsOf w 31 26 = 0 then 32 else bitsOf w 31 26, if bitsOf w 25 10 = 0 then 65536 else bitsOf w 25 10,
    args, s.now, some x.serial, .ready, 0, 0, false, false, 0, [0, 0, 0, 0], [], none, none⟩

/-- The fields of a Call's header that R84 and R263 demand of a call of a program, and the bytes they announce. -/
structure CallFits (w : Nat) (args : List Byte) : Prop where
  slots : 1 ≤ bitsOf w 9 5 ∧ bitsOf w 9 5 ≤ 16
  bytes : args.length = 16 * bitsOf w 9 5
  cores : bitsOf w 31 26 ≤ 32
  zero : w % 32 = 0
  handle : bitsOf w 63 32 < 0xFFFFFF01

/-- A Call of an installed program in a module that serves and has room for it is accepted (R93, R263). -/
theorem execCall_of_program {s : State} {p : Fin 32} {tag : BitVec 12} {room : Fin 64} {line : BitVec 40} {w : Word} {args : List Byte} {x : Prog}
    (hturned : s.turned 0x10 p tag.toNat room line.toNat = none) (hserving : ¬(s.power.mode = .brace ∨ s.power.mode = .flush))
    (hawake : ¬(s.quieted = true ∨ s.power.exitAt.isSome = true)) (hfits : CallFits w.toNat args)
    (hprog : s.progFor (bitsOf w.toNat 63 32) room = some x) (hfree : ¬(s.power.quiet ≠ .none ∨ 1024 ≤ s.callsOpen)) :
    ∃ cls, execCall p tag room line w args s = .next (s.acceptCall p tag.toNat (s.programCall x room line.toNat cls w.toNat args)).2 := by
  obtain ⟨hslots, hbytes, hcores, hzero, hhandle⟩ := hfits
  have hshelf : (decide (0xFFFFFF01 ≤ bitsOf w.toNat 63 32) && decide (bitsOf w.toNat 63 32 ≤ 0xFFFFFF03)) = false := by
    simp [Nat.not_le.mpr hhandle]
  have hfields : ¬(bitsOf w.toNat 9 5 = 0 ∨ 16 < bitsOf w.toNat 9 5 ∨ args.length ≠ 16 * bitsOf w.toNat 9 5
      ∨ (32 < bitsOf w.toNat 31 26 ∧ (!false) = true) ∨ w.toNat % 32 ≠ 0) := by omega
  simp only [execCall, hturned, if_neg hserving, if_neg hawake, hshelf, if_neg hfields, Bool.false_and, Bool.false_eq_true, if_false, hprog,
    if_neg hfree]
  exact ⟨_, rfl⟩

/-- An ending call whose completion line is written is ENDED (R264, R267). -/
theorem execCallCompletion_of_written {s u : State} {id : BitVec 32} {c : Call} {e : Ending} (hcall : s.call id.toNat = some c)
    (hmode : c.mode = .ending) (hending : c.ending = some e) (hruns : s.callRuns id.toNat = false) (hdigest : c.digest = none)
    (hwrite : s.ownWrite c.room c.line (lineFrom (c.completion e)) = (true, u)) :
    execCallCompletion id s = .next (((u.paidLine c).updCall id.toNat fun c => { c with mode := .ended }).freeProgs.retryAll) := by
  simp only [execCallCompletion, hcall, hmode, hending, hruns, hdigest, hwrite, Bool.not_true, Bool.false_eq_true, if_false]

/-- Settles O40: the call is accepted as `programCall`, or found by its id and in the state that its rule names. -/
theorem callsRunTheirCourse : Obligations.CallsRunTheirCourse := by
  unfold Obligations.CallsRunTheirCourse
  intro s p tag room line w args id
  refine ⟨?accepted, fun c hcall => ⟨?unpark, ?timeout, ?completed⟩⟩
  case accepted =>
    rintro x ⟨hturned, hbrace, hflush, hquiet, hexit, hentering, hmin, hmax, hbytes, hcores, hzero, hhandle, hprog, hroom⟩
    have hfits : CallFits w.toNat args := ⟨⟨hmin, hmax⟩, hbytes, hcores, hzero, hhandle⟩
    obtain ⟨cls, heq⟩ := execCall_of_program hturned (not_or.mpr ⟨hbrace, hflush⟩) (by simp [hquiet, hexit]) hfits hprog
      (by simp [hentering, hroom])
    obtain ⟨q, o, haccept⟩ := s.acceptCall_eq p tag.toNat (s.programCall x room line.toNat cls w.toNat args)
    rw [haccept] at heq
    exact ⟨_, _, heq, rfl, rfl, rfl, rfl, rfl, rfl, rfl, rfl, rfl, rfl, rfl, rfl⟩
  case unpark =>
    intro hparked
    simp only [exec_callUnpark, execCallUnpark, hcall, if_pos hparked]
  case timeout =>
    rintro ⟨hprog, hlate, hmode⟩
    have hguard : ¬(c.prog.isNone = true ∨ s.now < c.accepted + 4096 * s.val .callTimeout 0 0 ∨ (c.mode ≠ .ready ∧ c.mode ≠ .parked)) := by
      simp [Option.isSome_iff_ne_none.mp hprog, Nat.not_lt.mpr hlate, ← not_or, hmode]
    simp only [exec_callTimeout, execCallTimeout, hcall, if_neg hguard]
  case completed =>
    rintro e u ⟨hmode, hending, hruns, hdigest, hwrite⟩
    exact execCallCompletion_of_written hcall hmode hending hruns hdigest hwrite

/- ## Bits and bytes of a line (R92, R166) -/

theorem bitOf_eq_testBit (v n : Nat) : bitOf v n = v.testBit n := by
  rw [bitOf, Nat.testBit_eq_decide_div_mod_eq, Nat.shiftRight_eq_div_pow]; rfl

theorem bitOf_setBit (v n m : Nat) (b : Bool) : bitOf (setBit v n b) m = if m = n then b else bitOf v m := by
  simp only [bitOf_eq_testBit, setBit, Nat.one_shiftLeft]
  by_cases hm : m = n
  · subst hm
    cases b <;> cases hv : v.testBit m <;> simp [hv]
  · have hne : (2 ^ n).testBit m = false := Nat.testBit_two_pow_of_ne (Ne.symm hm)
    cases b <;> cases hv : v.testBit n <;> simp [hne, hm]

theorem setBit_lt_two_pow {v n w : Nat} (b : Bool) (hv : v < 2 ^ w) (hn : n < w) : setBit v n b < 2 ^ w := by
  have hbit : 1 <<< n < 2 ^ w := by rw [Nat.one_shiftLeft]; exact Nat.pow_lt_pow_right (by omega) hn
  unfold setBit
  split
  · exact Nat.or_lt_two_pow hv hbit
  · split
    · exact Nat.xor_lt_two_pow hv hbit
    · exact hv

theorem bitOf_fullMask {i : Nat} (h : i < 64) : bitOf fullMask i = true := by
  rw [bitOf_eq_testBit, fullMask, Nat.testBit_two_pow_sub_one]; simpa using h

/-- Byte `i` of a line, byte 0 lowest. -/
def lineByte (x : BitVec 512) (i : Nat) : Byte := x.extractLsb' (8 * i) 8

theorem line_ext {x y : BitVec 512} (h : ∀ i < 64, lineByte x i = lineByte y i) : x = y := by
  refine BitVec.eq_of_getLsbD_eq fun n hn => ?_
  have hbyte := congrArg (BitVec.getLsbD · (n % 8)) (h (n / 8) (by omega))
  simpa [lineByte, Nat.mod_lt, Nat.div_add_mod] using hbyte

theorem lineByte_ofNat (v : Nat) {i : Nat} (h : i < 64) : lineByte (BitVec.ofNat 512 v) i = BitVec.ofNat 8 (v / 256 ^ i) := by
  have hpow : 256 ^ i = 2 ^ (8 * i) := by rw [Nat.pow_mul]
  refine BitVec.eq_of_getLsbD_eq fun k hk => ?_
  have hlt : 8 * i + k < 512 := by omega
  simp only [lineByte, BitVec.getLsbD_extractLsb', BitVec.getLsbD_ofNat, hpow, Nat.testBit_div_two_pow, hk, hlt, decide_true, Bool.true_and]
  rw [Nat.add_comm]
theorem ofLe_byte (l : List Byte) (i : Nat) : BitVec.ofNat 8 (ofLe l / 256 ^ i) = l.getD i 0 := by
  induction l generalizing i with
  | nil => simp [ofLe]
  | cons b l ih =>
    cases i with
    | zero => apply BitVec.eq_of_toNat_eq; simp [ofLe]; omega
    | succ i =>
      have hrest : (b.toNat + 256 * ofLe l) / 256 = ofLe l := by have := b.isLt; omega
      rw [ofLe, Nat.pow_succ', ← Nat.div_div_eq_div_mul, hrest, ih, List.getD_cons_succ]

theorem leBytes_byte {n i : Nat} (v : Nat) (h : i < n) : (leBytes n v).getD i 0 = BitVec.ofNat 8 (v / 256 ^ i) := by
  induction n generalizing v i with
  | zero => omega
  | succ n ih =>
    cases i with
    | zero => simp [leBytes]
    | succ i => rw [leBytes, List.getD_cons_succ, ih _ (by omega), Nat.div_div_eq_div_mul, Nat.pow_succ']

theorem lineBytes_byte (d : BitVec 512) {i : Nat} (h : i < 64) : (lineBytes d).getD i 0 = lineByte d i := by
  rw [lineBytes, leBytes_byte _ h, ← lineByte_ofNat _ h, BitVec.ofNat_toNat, BitVec.setWidth_eq]

theorem lineByte_lineOf (plain : List Byte) (j : Nat) {i : Nat} (h : i < 64) : lineByte (lineOf plain j) i = plain.getD (64 * j + i) 0 := by
  rw [lineOf, lineByte_ofNat _ h, ofLe_byte]
  simp [List.getD_eq_getElem?_getD, h]

/- ## A line merged into a brick's plaintext -/

section
variable {plain : List Byte} {j : Nat} (d : List Byte) (mask : Nat) (hlen : plain.length = 256) (hj : j < 4)
include hlen hj

theorem mergeLine_length : (mergeLine plain j d mask).length = 256 := by
  simp [mergeLine, upTo, hlen]; omega

theorem mergeLine_getD {n : Nat} (hn : n < 256) : (mergeLine plain j d mask).getD n 0
    = if (64 * j ≤ n ∧ n < 64 * j + 64) ∧ bitOf mask (n - 64 * j) = true then d.getD (n - 64 * j) 0 else plain.getD n 0 := by
  have hbefore : (plain.take (64 * j)).length = 64 * j := by rw [List.length_take]; omega
  have hline (f : Nat → Byte → Byte) : (List.zipWith f (upTo 64) ((plain.drop (64 * j)).take 64)).length = 64 := by
    simp [upTo, hlen]; omega
  simp only [mergeLine, List.append_assoc, List.getD_eq_getElem?_getD, List.getElem?_append, hbefore, hline]
  by_cases hlo : n < 64 * j
  · rw [if_pos hlo, if_neg (by omega), List.getElem?_take, if_pos hlo]
  · by_cases hhi : n - 64 * j < 64
    · have hback : 64 * j + (n - 64 * j) = n := by omega
      have hrange : 64 * j ≤ n ∧ n < 64 * j + 64 := by omega
      have hin : n < plain.length := by omega
      rw [if_neg hlo, if_pos hhi]
      simp [List.getElem?_zipWith, upTo, hhi, hback, hin, hrange]
    · have hback : 64 * j + 64 + (n - 64 * j - 64) = n := by omega
      rw [if_neg hlo, if_neg hhi, if_neg (by omega), List.getElem?_drop, hback]

/-- A byte of a line after a line has been merged in: the new one where the line is that one and its mask covers the byte. -/
theorem lineByte_mergeLine {k i : Nat} (hk : k < 4) (hi : i < 64) : lineByte (lineOf (mergeLine plain j d mask) k) i
    = if k = j ∧ bitOf mask i = true then d.getD i 0 else lineByte (lineOf plain k) i := by
  rw [lineByte_lineOf _ _ hi, lineByte_lineOf _ _ hi, mergeLine_getD d mask hlen hj (by omega)]
  by_cases hkj : k = j
  · subst hkj
    have hrange : 64 * k ≤ 64 * k + i ∧ 64 * k + i < 64 * k + 64 := by omega
    have hsub : 64 * k + i - 64 * k = i := by omega
    simp only [hsub, hrange, and_self, true_and]
  · rw [if_neg (by omega), if_neg (by simp [hkj])]

theorem lineOf_mergeLine_ne {k : Nat} (hk : k < 4) (hkj : k ≠ j) : lineOf (mergeLine plain j d mask) k = lineOf plain k :=
  line_ext fun i hi => by rw [lineByte_mergeLine d mask hlen hj hk hi, if_neg (by simp [hkj])]

end

/-- A line merged in whole is the line given. -/
theorem lineOf_mergeLine_full {plain d : List Byte} {j : Nat} {x : BitVec 512} (hd : ∀ i < 64, d.getD i 0 = lineByte x i)
    (hlen : plain.length = 256) (hj : j < 4) : lineOf (mergeLine plain j d fullMask) j = x :=
  line_ext fun i hi => by rw [lineByte_mergeLine d fullMask hlen hj hj hi, if_pos ⟨rfl, bitOf_fullMask hi⟩, hd i hi]

theorem zeroBytes_byte {i : Nat} (h : i < 64) : (List.replicate 64 (0 : Byte)).getD i 0 = lineByte 0 i := by
  rw [List.getD_eq_getElem?_getD, List.getElem?_replicate_of_lt h]
  simp [lineByte]

/- ## What a line write makes of a brick (R92, R166) -/

section
variable (j : Nat) (d data : List Byte) (pm m : Nat)

theorem mergeWrite_line : mergeWrite .wr false j d m data pm = (0, mergeLine data j d fullMask, setBit pm j false) := by
  simp [mergeWrite]

theorem mergeWrite_poison : mergeWrite .wr true j d m data pm = (0, mergeLine data j (List.replicate 64 0) fullMask, setBit pm j true) := by
  simp [mergeWrite]

theorem mergeWrite_mask_full : mergeWrite .mask false j d fullMask data pm = mergeWrite .wr false j d fullMask data pm := by
  simp [mergeWrite]

variable {j pm m} (hm : m ≠ fullMask)
include hm

theorem mergeWrite_mask_poisoned (hpm : bitOf pm j = true) : mergeWrite .mask false j d m data pm = (2, data, pm) := by
  simp [mergeWrite, hm, hpm]

theorem mergeWrite_mask_clean (hpm : bitOf pm j = false) : mergeWrite .mask false j d m data pm = (0, mergeLine data j d m, pm) := by
  simp [mergeWrite, hm, hpm]

end

/-- A write leaves the brick as it is, or merges bytes under a mask, or a whole line whose bit of the poison mask it sets or clears. -/
theorem mergeWrite_cases (op : LineOp) (poison : Bool) (j : Nat) (d data : List Byte) (m pm : Nat) :
    mergeWrite op poison j d m data pm = (2, data, pm) ∨ mergeWrite op poison j d m data pm = (0, mergeLine data j d m, pm)
    ∨ ∃ d' b, mergeWrite op poison j d m data pm = (0, mergeLine data j d' fullMask, setBit pm j b) := by
  unfold mergeWrite
  dsimp only
  split
  · exact .inr (.inr ⟨_, true, rfl⟩)
  · split
    · exact .inr (.inr ⟨_, false, rfl⟩)
    · split
      · exact .inl rfl
      · exact .inr (.inl rfl)

/-- Settles O42: what a write merges is read back byte by byte, and the other lines and bits are as they were. -/
theorem lineWritesMerge : Obligations.LineWritesMerge := by
  unfold Obligations.LineWritesMerge
  intro data j pm d mask hlen hj hpm
  dsimp only
  refine ⟨fun op poison m => ?rest, fun m => ?line, fun m => ?poison, mergeWrite_mask_full .., ?kept, ?masked⟩
  case rest =>
    rcases mergeWrite_cases op poison j (lineBytes d) data m pm with heq | heq | ⟨d', b, heq⟩ <;> rw [heq]
    · exact ⟨hlen, hpm, fun i _ _ => ⟨rfl, rfl⟩⟩
    · exact ⟨mergeLine_length _ _ hlen hj, hpm, fun i hi hne => ⟨lineOf_mergeLine_ne _ _ hlen hj hi hne, rfl⟩⟩
    · exact ⟨mergeLine_length _ _ hlen hj, setBit_lt_two_pow (w := 4) b hpm hj,
        fun i hi hne => ⟨lineOf_mergeLine_ne _ _ hlen hj hi hne, by rw [bitOf_setBit, if_neg hne]⟩⟩
  case line =>
    rw [mergeWrite_line]
    exact ⟨rfl, lineOf_mergeLine_full (fun i hi => lineBytes_byte d hi) hlen hj, by rw [bitOf_setBit, if_pos rfl]⟩
  case poison =>
    rw [mergeWrite_poison]
    exact ⟨rfl, lineOf_mergeLine_full (fun i hi => zeroBytes_byte hi) hlen hj, by rw [bitOf_setBit, if_pos rfl]⟩
  case kept => exact fun ⟨hpart, hbit⟩ => mergeWrite_mask_poisoned _ _ hpart hbit
  case masked =>
    rintro ⟨hpart, hbit⟩
    rw [mergeWrite_mask_clean _ _ hpart hbit]
    refine ⟨rfl, rfl, fun i hi => ?_⟩
    have hbyte := lineByte_mergeLine (lineBytes d) mask.toNat hlen hj hj hi
    simp only [lineBytes_byte d hi, true_and] at hbyte
    exact hbyte

/- ## Roles and function requests (R74, R457 to R460) -/

/-- PORT_ROLE is written where another port stays a Companion and an owner port stays one that may own rooms (R74). -/
theorem actPortRole_of_allowed {s : State} {p v : Nat} (h : v = 1 ∨ ((∃ q < 32, q ≠ p ∧ s.wantedRole q = .companion)
    ∧ (v = 2 ∨ ∀ k < 64, s.owns p k = false))) : actPortRole p v s = (rOk, s.setVal .portRole p 0 v) := by
  rcases h with rfl | ⟨⟨q, hq, hqp, hrole⟩, howner⟩
  · simp [actPortRole]
  · have hothers : ((upTo 32).any fun q => decide (q ≠ p) && decide (s.wantedRole q = .companion)) = true :=
      List.any_eq_true.mpr ⟨q, List.mem_range.mpr hq, by simp [hqp, hrole]⟩
    have howns : ¬(v ≠ 1 ∧ v ≠ 2 ∧ ((upTo 64).any fun k => s.owns p k) = true) := by
      rintro ⟨-, hne, hany⟩
      obtain ⟨k, hk, hkowns⟩ := List.any_eq_true.mp hany
      have hnone := howner.resolve_left hne k (List.mem_range.mp hk)
      simp [hnone] at hkowns
    simp only [actPortRole, hothers, Bool.not_true, Bool.false_eq_true, and_false, if_false, if_neg howns]

/-- A function's word after a request to enable or disable it (R457, R459): latched to the boundary at which it counts, or where the function is
Starting or Stopping taken as its pending flag. -/
def FnWord.requested (w : FnWord) (on : Bool) (boundary : Nat) : FnWord :=
  match w.state with
  | .starting => { w with want := on, pendDis := !on }
  | .stopping => { w with want := on, pendEn := on }
  | _ => { w with want := on, latched := some (on, boundary) }

/-- A request is taken unless it would disable the last Companion port (R460). -/
theorem actFunction_of_allowed {s : State} {f : FnId} {on : Bool} (h : on = false → ∀ p, f = .port p → s.lastCompanion p = false) :
    actFunction f (bit01 on) s = (rOk, s.setFn f ((s.fn f).requested on s.decidedAt)) := by
  have hone : ¬1 < bit01 on := by cases on <;> decide
  have hon : decide (bit01 on = 1) = on := by cases on <;> rfl
  have hoff : bit01 on = 0 → on = false := by cases on <;> simp [bit01]
  unfold actFunction
  dsimp only
  rw [if_neg hone, if_neg ?last, hon]
  case last =>
    cases f with
    | port p =>
      rw [Bool.and_eq_true, decide_eq_true_eq]
      rintro ⟨hzero, hlast⟩
      exact Bool.eq_false_iff.mp (h (hoff hzero) p rfl) hlast
    | _ => exact Bool.false_ne_true
  cases hstate : (s.fn f).state <;> simp [FnWord.requested, hstate]

/-- A write to a function's entry that reaches it makes the request, and changes no other word (R457). -/
theorem State.fnWrite_of_allowed {s : State} {rq : Rq} {f : FnId} {on : Bool}
    (htakes : s.takes rq (fnEnt f).1 (fnEnt f).2.1 (fnEnt f).2.2 (leBytes 2 (bit01 on)) = true)
    (h : on = false → ∀ p, f = .port p → (s.openSess rq.src).lastCompanion p = false) :
    s.fnWrite rq f (bit01 on) = ((s.openSess rq.src).setFn f (((s.openSess rq.src).fn f).requested on (s.openSess rq.src).decidedAt)).answers
      rq (fnEnt f).1 (fnEnt f).2.1 (fnEnt f).2.2 rOk := by
  have hwrite := odWrite_of_takes (actFunction f (bit01 on)) htakes
  rw [actFunction_of_allowed h] at hwrite
  exact hwrite

theorem fnKey_inj {f g : FnId} (h : fnKey f = fnKey g) : f = g := by
  cases f <;> cases g <;> simp [fnKey, fnKind, fnInst] at h ⊢ <;> omega

theorem State.fn_setFn_ne (s : State) {f g : FnId} (w : FnWord) (h : g ≠ f) : (s.setFn f w).fn g = s.fn g :=
  Tbl.get_put_ne _ _ _ _ _ fun hkey => h (fnKey_inj hkey)

/-- Settles O16: each write reaches its entry and its action; a function's word stands under a key of its own. -/
theorem rolesAndFunctionRequests : Obligations.RolesAndFunctionRequests := by
  unfold Obligations.RolesAndFunctionRequests
  refine ⟨fun rq port p s => ?role, fun rq f s => ?function⟩ <;> dsimp only
  case role =>
    rintro ⟨htakes, hallowed⟩
    refine ⟨(s.openSess rq.src).setVal .portRole port 0 (ofLe p), ?_, State.val_setVal_self .., s.openSess_ports rq.src, s.openSess_funcs rq.src⟩
    rw [exec_portRole, execPortRole, odWrite_of_takes _ htakes, actPortRole_of_allowed hallowed]
  case function =>
    exact ⟨fun htakes => congrArg _ (State.fnWrite_of_allowed (on := true) htakes nofun),
      fun ⟨htakes, hlast⟩ => congrArg _ (State.fnWrite_of_allowed (on := false) htakes fun _ => hlast),
      fun g hg w => State.fn_setFn_ne _ w hg⟩

end Sys2Proof.Machine

/- # Rooms: the erase, the staging copy and its commit, published regions -/

namespace Sys2Proof.Machine

/- ## Room requests (R108, R117, R118) -/

/-- CONFIG_COMMIT, with no commit pending, holds the staging copy until the boundary that uses a write of the present position (R47, R117). -/
theorem actCommit_of_idle {s : State} (h : s.adm.commitAt = none) :
    actCommit 1 s = (rOk, s.setAdm { s.adm with commitAt := some (4096 * (s.time.course + if s.time.pos ≤ 3968 then 1 else 2)), status := 1 }) := by
  have hboundary : (if s.time.pos ≤ 3968 then s.time.course + 1 else s.time.course + 2) * 4096
      = 4096 * (s.time.course + if s.time.pos ≤ 3968 then 1 else 2) := by split <;> exact Nat.mul_comm ..
  simp [actCommit, h, hboundary]

/-- CONFIG_DISCARD, with no commit pending, empties the staging copy (R117). -/
theorem actDiscard_of_idle {s : State} (h : s.adm.commitAt = none) : actDiscard 1 s = (rOk, s.setAdm { s.adm with staging := [] }) := by
  simp [actDiscard, h]

/-- ROOM_ERASE erases a room that is Off; one that no lost flush list holds is left as `eraseRoom` has it (R108, R402). -/
theorem actRoomErase_of_off {s : State} {k : Fin 64} (hoff : (s.fn (.room k)).state = .off) (hcause : ((s.eraseRoom k).fn (.room k)).cause ≠ 8) :
    actRoomErase k 1 s = (rOk, s.eraseRoom k) := by
  simp [actRoomErase, hoff, hcause]

/-- Settles O15: each request reaches its entry, and its action takes the branch that its rule names. -/
theorem roomRequestsTakeEffect : Obligations.RoomRequestsTakeEffect := by
  unfold Obligations.RoomRequestsTakeEffect
  intro rq p k s hone u
  refine ⟨?commit, ?discard, ?erase⟩
  case commit =>
    rintro ⟨htakes, hidle⟩
    rw [exec_configCommit, execConfigCommit, odWrite_of_takes _ htakes, hone, actCommit_of_idle hidle]
  case discard =>
    rintro ⟨htakes, hidle⟩
    rw [exec_configDiscard, execConfigDiscard, odWrite_of_takes _ htakes, hone, actDiscard_of_idle hidle]
  case erase =>
    rintro ⟨htakes, hoff, hcause⟩
    rw [exec_roomErase, execRoomErase, odWrite_of_takes _ htakes, hone, actRoomErase_of_off hoff hcause]

/- ## Published regions and commits (R117, R242 to R244, R247) -/

/-- A module that is not in Brace or Flush and neither in Quiet nor leaving it decides Publishes and Opens at once (R37, R99). -/
structure State.Deciding (s : State) : Prop where
  serving : ¬(s.power.mode = .brace ∨ s.power.mode = .flush)
  awake : ¬(s.quieted = true ∨ s.power.exitAt.isSome = true)

theorem State.deciding_of {s : State} (hbrace : s.power.mode ≠ .brace) (hflush : s.power.mode ≠ .flush) (hquiet : s.quieted = false)
    (hexit : s.power.exitAt = none) : s.Deciding :=
  ⟨not_or.mpr ⟨hbrace, hflush⟩, by simp [hquiet, hexit]⟩

section
variable {s : State} {p : Fin 32} {tag : BitVec 12} {room : Fin 64} {line : BitVec 40} {g : Byte} {v : BitVec 32}

/-- A Publish that no check turns away waits for its boundary (R243). -/
theorem execPublish_of_deciding (hturned : s.turned 0x30 p tag.toNat room line.toNat = none) (h : s.Deciding) :
    execPublish p tag room line g v s
      = .next (s.setPubs { s.pubs with waiting := s.pubs.waiting ++ [⟨p, tag.toNat, room, g.toNat, v.toNat, s.now, false⟩] }) := by
  simp only [execPublish, hturned, if_neg h.serving, if_neg h.awake]

/-- An Open that no check turns away is decided (R247). -/
theorem execOpenView_of_deciding {close : Bool} (hturned : s.turned 0x31 p tag.toNat room line.toNat = none) (h : s.Deciding) :
    execOpenView p tag room line g v close s = .next (s.decideOpen ⟨p, tag.toNat, room, line.toNat, v.toNat, close, false⟩) := by
  simp only [execOpenView, hturned, if_neg h.serving, if_neg h.awake]

variable {x : PubVer}

/-- At a boundary a version that awaits no recall and no line is sealed (R244). -/
theorem execPubSealed_of_complete (hver : s.pubVer g.toNat v.toNat = some x) (hopen : x.isSealed = false) (hpos : s.time.pos = 0)
    (hrecalls : s.stillAwaits x.awaits = false) (hlines : s.bringing g.toNat x.version = false) :
    execPubSealed g v s = .next (s.sealVersion g.toNat x) := by
  simp [execPubSealed, hver, hopen, hpos, hrecalls, hlines]

/-- At a boundary a version that nothing retains is released, and PUB_RELEASED tells how many pages went with it (R242). -/
theorem execPubReleased_of_unretained (hver : s.pubVer g.toNat v.toNat = some x) (hretains : s.retains g.toNat x = false)
    (hpos : s.time.pos = 0) :
    let r := s.releaseVersion g.toNat x.version
    execPubReleased g v s = .next (r.2.raise
      { code := 0x5814, sev := 0, unit := srcRoom (r.2.val .pubRoom g.toNat 0),
        args := leBytes 1 g.toNat ++ leBytes 4 x.version ++ leBytes 4 r.1 }) := by
  simp [execPubReleased, hver, hretains, hpos]

end

section
variable {s : State} {t : Nat} (hcommit : s.adm.commitAt = some t) (hdue : t ≤ s.now) (hpos : s.time.pos = 0)
include hcommit hdue hpos

/-- A commit that fails a check at its boundary is no longer pending and reports the check; ROOM_CONFIG_REFUSED tells of it (R117, R118). -/
theorem execConfigApply_of_refused {st k c w : Nat} (hcheck : s.commitCheck = some (st, k, c, w)) :
    execConfigApply s = .next ((s.setAdm { s.adm with
        commitAt := none, status := st, detail := k * 2 ^ 24 + c * 2 ^ 16 + w * 2 ^ 8 + st }).raise
      { code := 0x4002, sev := 2, unit := srcAdmission, args := leBytes 1 st ++ leBytes 1 k ++ leBytes 1 c ++ leBytes 1 w }) := by
  have hnow : ¬(s.now < t ∨ s.time.pos ≠ 0) := by omega
  simp only [execConfigApply, hcommit, if_neg hnow, hcheck]

/-- A commit that passes every check takes effect whole at its boundary (R117, R118). -/
theorem execConfigApply_of_passed (hcheck : s.commitCheck = none) :
    execConfigApply s = .next ((s.applied.raise
      { code := 0x4001, sev := 1, unit := srcAdmission,
        args := leBytes 4 (s.adm.commitNo + 1) ++ leBytes 8 s.stagedRooms }).retryAll) := by
  have hnow : ¬(s.now < t ∨ s.time.pos ≠ 0) := by omega
  simp only [execConfigApply, hcommit, if_neg hnow, hcheck]

end

/-- Settles O41: the module decides, so that a Publish waits or is decided and an Open is decided; a version is found, and sealed or released; a due
commit takes the branch of its checks, and refusing one touches the admission state and what `raise` tells of it alone. -/
theorem versionsAndConfiguration : Obligations.VersionsAndConfiguration := by
  unfold Obligations.VersionsAndConfiguration
  intro s p tag room line g v
  refine ⟨?publish, ?decide, fun x hver => ⟨?sealed, ?released⟩, fun close => ?opened, fun t ⟨hcommit, hdue, hpos⟩ => ⟨?refused, ?applied⟩⟩
  case publish =>
    rintro ⟨hturned, hbrace, hflush, hquiet, hexit⟩
    rw [exec_publish, execPublish_of_deciding hturned (State.deciding_of hbrace hflush hquiet hexit)]
  case decide =>
    rintro ⟨hbrace, hflush, hquiet, hexit⟩
    obtain ⟨hserving, hawake⟩ := State.deciding_of hbrace hflush hquiet hexit
    have hgate : ¬(s.quieted = true ∨ s.power.exitAt.isSome = true ∨ s.power.mode = .brace ∨ s.power.mode = .flush) := by
      rw [← or_assoc]
      exact not_or.mpr ⟨hawake, hserving⟩
    rw [exec_publishDecide, execPublishDecide, if_neg hgate]
  case sealed =>
    rintro ⟨hopen, hpos, hrecalls, hlines⟩
    rw [exec_pubSealed, execPubSealed_of_complete hver hopen hpos hrecalls hlines]
  case released =>
    rintro ⟨hretains, hpos⟩
    rw [exec_pubReleased, execPubReleased_of_unretained hver hretains hpos]
  case opened =>
    rintro ⟨hturned, hbrace, hflush, hquiet, hexit⟩
    rw [exec_openView, execOpenView_of_deciding hturned (State.deciding_of hbrace hflush hquiet hexit)]
  case refused =>
    intro st k c w hcheck
    rw [exec_configApply, execConfigApply_of_refused hcommit hdue hpos hcheck]
    refine ⟨_, rfl, ?_⟩
    simp only [State.raise_adm, State.raise_rooms, State.raise_funcs, State.setAdm_adm, State.setAdm_rooms, State.setAdm_funcs, and_self]
  case applied =>
    intro hcheck
    rw [exec_configApply, execConfigApply_of_passed hcommit hdue hpos hcheck]

end Sys2Proof.Machine

/- # Tiers and placement: fetches, write-back, the landing, Store reads and deadline stairs -/

namespace Sys2Proof.Machine

/- ## Fetches (R133, R149) -/

/-- A fetch that has begun leaves the list, and lands at the bays found for it with the list as it then is. -/
theorem execFetchComplete_of_found {s : State} {page : PageId} {f : Fetch} {i : Image} {start : Nat}
    (hfetch : s.fetchOf (pageIdKey page) = some f) (himage : (s.page (pageIdKey page)).slot.bind s.image = some i)
    (hbegun : f.begun.isSome = true)
    (hfar : (s.page (pageIdKey page)).mode = .cellar ∨ (s.page (pageIdKey page)).mode = .demoted) :
    let u := s.setTier { s.tier with fetches := s.tier.fetches.erase f }
    u.findRun (u.frameRegion (loftRegion (s.page (pageIdKey page)))) (baysFor i.bricks (u.footingOf (pageIdKey page) i.bricks)) = some start →
    execFetchComplete page s = .next (u.landFetched (pageIdKey page) f i start).retryAll := by
  intro u hrun
  have hwaits : ¬f.begun.isNone = true := by simp [Option.isSome_iff_ne_none.mp hbegun]
  have hpage : u.page (pageIdKey page) = s.page (pageIdKey page) := rfl
  have hnear : ¬((u.page (pageIdKey page)).mode ≠ .cellar ∧ (u.page (pageIdKey page)).mode ≠ .demoted) := by
    rw [hpage, ← not_or]
    exact not_not_intro hfar
  rw [← hpage] at hrun
  simp only [execFetchComplete, hfetch, himage, if_neg hwaits]
  rw [if_neg hnear, hrun]

/- ## Write-back by age (R145) -/

/-- WRITEBACK_LAG is told of; beside the tally and what it sends, only the stamp of the last one changes. -/
theorem execWritebackLag_of_old {s : State} {page : PageId} (hdirty : (s.page (pageIdKey page)).mode = .dirty)
    (hold : (s.page (pageIdKey page)).dirtySince + 8192 * s.val .writebackAgeMax 0 0 ≤ s.now) (hquiet : s.quiet64 s.tier.lagAt = true) :
    ∃ e, execWritebackLag page s = .next ((s.setTier { s.tier with lagAt := some s.now }).raise e) :=
  ⟨_, if_pos ⟨hdirty, hold, hquiet⟩⟩

/- ## The landing (R192 to R194, R214) -/

section
variable {s u : State} {brick : BrickId} {faults : ReadFaults} {l : Landing}

theorem execLandingDwell_of_due (hslot : s.slotOf (brickIdKey brick) = some l) (hfilled : l.filling = false)
    (hdwell : l.last + 4096 * s.val .landingDwell 0 0 ≤ s.now) : execLandingDwell brick s = .next (s.queueSlot (brickIdKey brick)) := by
  simp only [execLandingDwell, hslot]
  exact if_pos ⟨by simp [hfilled], hdwell⟩

/-- What a read leaves in the slot that it fills: the plaintext with the lines that the stored copy has poisoned, or poison throughout. -/
def State.fillOf (u : State) (bk : Nat) : ReadSays → List Byte × Nat
  | .ok d => (d, recMask ((u.page (bk / 16)).brick (bk % 16)).record)
  | .once | .poisoned => (List.replicate 256 0, 15)

/-- A fill that ends puts what the read says in its slot, and the writes that wait for the slot go on (R192). -/
theorem execLandingFillDone_of_read {r : ReadSays} (hslot : s.slotOf (brickIdKey brick) = some l) (hfilling : l.filling = true)
    (hstored : s.brickStored (brickIdKey brick) = true) (hkeys : s.sec.keysOff = false) (hread : s.readBrick (brickIdKey brick) faults = (r, u)) :
    execLandingFillDone brick faults s = .next ((u.putSlot (brickIdKey brick) { l with
      data := (u.fillOf (brickIdKey brick) r).1, poison := (u.fillOf (brickIdKey brick) r).2, written := 0, filling := false,
      last := u.now }).retryAll) := by
  have hfills : ¬((!l.filling) = true ∨ (!s.brickStored (brickIdKey brick)) = true ∨ s.sec.keysOff = true) := by simp [hfilling, hstored, hkeys]
  simp only [execLandingFillDone, hslot, if_neg hfills, hread]
  cases r <;> rfl

/-- The slot that a store of its brick leaves: none, or the write's own where it had left a marked one behind (R214). -/
def State.afterStore (u : State) (bk : Nat) (l : Landing) : State :=
  if l.under.isSome then u.putSlot bk { l with under := none, queued := false, lane := none } else u

/-- A slot that is queued, or that has left a marked one behind, stores the older of the two bricks that it holds (R194, R214). -/
theorem execLandingSlotFreed_of_stored {parity : Fin 3} (hslot : s.slotOf (brickIdKey brick) = some l) (hfilled : l.filling = false)
    (hwaits : (l.queued || l.under.isSome) = true) (hkeys : s.sec.keysOff = false)
    (hstore : (s.page (brickIdKey brick / 16)).inStore = true)
    (hstored : s.storeSlot (brickIdKey brick) { l with
      data := (l.under.getD (l.data, l.poison)).1, poison := (l.under.getD (l.data, l.poison)).2 } parity = some u) :
    execLandingSlotFreed brick parity s = .next ((u.afterStore (brickIdKey brick) l).copyDemoted (brickIdKey brick / 16)).retryAll := by
  have hready : ¬(l.filling = true ∨ (!(l.queued || l.under.isSome)) = true ∨ s.sec.keysOff = true
      ∨ (!(s.page (brickIdKey brick / 16)).inStore) = true) := by simp only [hfilled, hwaits, hkeys, hstore]; decide
  simp only [execLandingSlotFreed, hslot, if_neg hready, hstored, State.afterStore]

/- ## Store reads (R148, R365) -/

/-- What a read's outcome does to the requests that wait for it: they go on with the plaintext, are answered POISON, or go on to the copy
that is now poisoned. -/
def State.answerReads (u : State) (bk : Nat) : ReadSays → State
  | .ok d => u.retryWith (some (bk, d))
  | .once => (u.poisonReads bk).retryAll
  | .poisoned => u.retryAll

theorem execStoreReadComplete_of_read {r : ReadSays} (hstored : s.brickStored (brickIdKey brick) = true) (hkeys : s.sec.keysOff = false)
    (hread : s.readBrick (brickIdKey brick) faults = (r, u)) :
    execStoreReadComplete brick faults s = .next (u.answerReads (brickIdKey brick) r) := by
  have hreads : ¬((!s.brickStored (brickIdKey brick)) = true ∨ s.sec.keysOff = true) := by simp [hstored, hkeys]
  simp only [execStoreReadComplete, if_neg hreads, hread]
  cases r <;> rfl

end

/- ## Stairs (R153) -/

theorem execStairDeadlinePrefetch_of_due {s : State} {t : Fin 256} {m : Byte} (hruns : s.stairRuns t = true) (htimed : s.stairTimed t = true)
    (hdue : s.stairDue t m.toNat = true) : execStairDeadlinePrefetch t m s = .next (s.issueStep t m.toNat false) := by
  simp only [execStairDeadlinePrefetch, hruns, htimed, hdue, Bool.and_self, if_true]

/-- Settles O43: the guard of each command holds; a fill and a read go by what the read says, and a stored slot by whether it had left a
marked one behind. -/
theorem pagesMoveThroughTheTiers : Obligations.PagesMoveThroughTheTiers := by
  unfold Obligations.PagesMoveThroughTheTiers
  intro s page brick faults
  refine ⟨?fetch, ?idle, ?age, ?lag, fun l hslot => ⟨?dwell, ?fill, ?freed⟩, ?read, ?stair⟩
  case fetch =>
    rintro f i start ⟨hfetch, himage, hbegun, hfar⟩ u hrun
    exact execFetchComplete_of_found hfetch himage hbegun hfar hrun
  case idle =>
    intro hidle
    rw [exec_writebackIdle, execWritebackIdle, if_pos hidle]
  case age =>
    intro hage
    rw [exec_writebackAgeMax, execWritebackAgeMax, if_pos hage]
  case lag =>
    rintro ⟨hdirty, hold, hquiet⟩
    obtain ⟨e, he⟩ := execWritebackLag_of_old hdirty hold hquiet
    exact ⟨_, he, State.raise_tier .., State.raise_pages .., State.raise_landing ..⟩
  case dwell =>
    rintro ⟨hfilled, hdwell⟩
    exact execLandingDwell_of_due hslot hfilled hdwell
  case fill =>
    rintro ⟨hfilling, hstored, hkeys⟩
    refine ⟨fun d u hread => ?whole, ?lost⟩
    case whole =>
      rw [exec_landingFillDone, execLandingFillDone_of_read hslot hfilling hstored hkeys hread, State.fillOf]
    case lost =>
      rintro r u ⟨hread, hlost⟩
      rw [exec_landingFillDone, execLandingFillDone_of_read hslot hfilling hstored hkeys hread]
      rcases hlost with rfl | rfl <;> rw [State.fillOf]
  case freed =>
    rintro twice u ⟨hfilled, hkeys, hstore⟩
    refine ⟨?alone, ?behind⟩
    case alone =>
      rintro ⟨hunder, hqueued, hstored⟩
      rw [exec_landingSlotFreed, execLandingSlotFreed_of_stored hslot hfilled (by simp [hqueued]) hkeys hstore (by rw [hunder]; exact hstored)]
      simp [State.afterStore, hunder]
    case behind =>
      rintro d pm ⟨hunder, hstored⟩
      rw [exec_landingSlotFreed,
        execLandingSlotFreed_of_stored hslot hfilled (by simp [hunder]) hkeys hstore (by rw [hunder]; exact hstored)]
      simp [State.afterStore, hunder]
  case read =>
    rintro ⟨hstored, hkeys⟩
    exact ⟨fun _ _ => execStoreReadComplete_of_read hstored hkeys, fun _ => execStoreReadComplete_of_read hstored hkeys,
      fun _ => execStoreReadComplete_of_read hstored hkeys⟩
  case stair =>
    rintro t m ⟨hruns, htimed, hdue⟩
    exact execStairDeadlinePrefetch_of_due hruns htimed hdue

end Sys2Proof.Machine

/- # The brick format: the expansion of a FILL brick -/

namespace Sys2Proof.Machine

/- ## FILL bricks (R171) -/

theorem fit_of_length {n : Nat} {bs : List Byte} (h : bs.length = n) : fit n bs = bs := by
  subst h
  simp [fit]

/-- Copies of a pattern end to end, read byte by byte: byte i is pattern byte i mod the pattern's length. -/
theorem flatten_replicate_eq_map_getD_mod (p : List Byte) (n : Nat) :
    (List.replicate n p).flatten = (upTo (n * p.length)).map fun i => p.getD (i % p.length) 0 := by
  unfold upTo
  induction n with
  | zero => simp
  | succ n ih =>
    have hlast : p = (List.range p.length).map fun i => p.getD ((n * p.length + i) % p.length) 0 := by
      refine List.ext_getElem (by simp) fun i hi _ => ?_
      simp [Nat.mod_eq_of_lt hi, hi]
    rw [List.replicate_succ', List.flatten_append, List.flatten_singleton, ih, Nat.succ_mul, List.range_add, List.map_append, List.map_map]
    exact congrArg _ hlast

/-- The plaintext of a FILL brick as R171 words it: byte i is pattern byte i mod 8. -/
def fillPlain (body : List Byte) : List Byte := (upTo 256).map fun i => body.getD (i % 8) 0

/-- The expander's 32 copies of the first eight bytes are R171's plaintext. -/
theorem flatten_replicate_take_eight {body : List Byte} (h : 8 ≤ body.length) :
    (List.replicate 32 (body.take 8)).flatten = fillPlain body := by
  have hlen : (body.take 8).length = 8 := by simp [h]
  rw [flatten_replicate_eq_map_getD_mod, hlen, fillPlain]
  refine List.map_congr_left fun i _ => ?_
  simp [List.getD_eq_getElem?_getD, List.getElem?_take_of_lt (Nat.mod_lt i (by decide : 0 < 8))]

/-- A FILL brick is no unwritten brick, whose record is 0 and names mode RAW. -/
theorem record_ne_zero_of_fill {r : Nat} (hm : recMode r = .fill) : r ≠ 0 := by
  rintro rfl
  exact absurd hm (by decide)

/-- The sector count that a valid record has is one that its mode allows (R161). -/
theorem sectorsOk_of_recordOk {r : Nat} (hr : r ≠ 0) (hok : recordOk r = true) : sectorsOk (recMode r) (recSectors r) (recPoison r) = true := by
  simp only [recordOk, hr, if_false, Bool.and_eq_true] at hok
  obtain ⟨⟨⟨⟨_, hsectors⟩, _⟩, _⟩, _⟩ := hok
  exact hsectors

theorem recSectors_of_fill {r : Nat} (hm : recMode r = .fill) (hok : recordOk r = true) : recSectors r = 1 := by
  have h := sectorsOk_of_recordOk (record_ne_zero_of_fill hm) hok
  simpa [hm, sectorsOk] using h

/-- What the expander makes of a valid FILL brick: by its bytes behind the pattern, then by the CRC of what the pattern fills. -/
theorem expand_of_fill (v : ExpandEnv) {b : Stored} (hm : recMode b.record = .fill) (hok : recordOk b.record = true) (hlen : b.body.length = 32) :
    expand v b =
      if (b.body.drop 8).all (· = 0) then
        if crc32c (fillPlain b.body) = recCrc b.record then .ok (fillPlain b.body) else .error (crcMismatch b)
      else .error ⟨7, 32, 32, 0⟩ := by
  have hbody : fit (32 * 1) b.body = b.body := fit_of_length hlen
  have hplain : (List.replicate 32 (b.body.take 8)).flatten = fillPlain b.body := flatten_replicate_take_eight (by omega)
  simp only [expand, record_ne_zero_of_fill hm, hok, recSectors_of_fill hm hok, hbody, hm, hplain, if_false, Bool.not_true, Bool.false_eq_true]
  by_cases hzero : (b.body.drop 8).all (· = 0) = true
  · simp only [hzero, if_true]
  · simp only [hzero, if_false, Bool.false_eq_true]

theorem getD_of_lt {body : List Byte} {i : Nat} (hi : i < body.length) : body.getD i 0 = body[i] := by
  rw [List.getD_eq_getElem?_getD, List.getElem?_eq_getElem hi, Option.getD_some]

/-- The bytes behind the pattern of a FILL brick are zeros just when bytes 8 to 31 are. -/
theorem all_zero_drop_eight_iff {body : List Byte} (hlen : body.length = 32) :
    (body.drop 8).all (· = 0) = true ↔ ∀ i, 8 ≤ i → i < 32 → body.getD i 0 = 0 := by
  simp only [List.all_eq_true, decide_eq_true_eq, List.forall_mem_iff_forall_getElem, List.getElem_drop, List.length_drop, hlen]
  constructor
  · intro h i hlow hhigh
    have hi := h (i - 8) (by omega)
    simpa only [getD_of_lt (hlen.symm ▸ hhigh), Nat.add_sub_cancel' hlow] using hi
  · intro h j hj
    rw [← getD_of_lt]
    exact h (8 + j) (by omega) (by omega)

/-- Settles O57: a valid FILL record has one sector, and the expander's answer is decided by bytes 8 to 31 and then by the CRC. -/
theorem fillBricksExpand : Obligations.FillBricksExpand := by
  unfold Obligations.FillBricksExpand
  intro v b hm hok hlen
  refine ⟨recSectors_of_fill hm hok, ?zeros, ?nonzero⟩
  case zeros =>
    intro hzero hcrc
    rw [expand_of_fill v hm hok hlen, if_pos ((all_zero_drop_eight_iff hlen).2 hzero), fillPlain, if_pos hcrc]
  case nonzero =>
    rintro ⟨i, hlow, hhigh, hi⟩
    have htail : ¬ (b.body.drop 8).all (· = 0) = true := fun h => hi ((all_zero_drop_eight_iff hlen).1 h i hlow hhigh)
    exact ⟨_, by rw [expand_of_fill v hm hok hlen, if_neg htail], rfl⟩

end Sys2Proof.Machine

/- # Compression engines: tables, packed loads, shelves and crash scans -/

namespace Sys2Proof.Machine

/- ## Tables and loads requested (R202, R205) -/

/-- TABLE_LOAD_IMAGE puts an image that checks into the selected slot, where nothing binds it (R202). -/
theorem actTableLoad_of_checked {s : State} {src : Arrival} {p : List Byte} (hlen : p.length = 136) (hcheck : tableCheck p = 0)
    (hfree : s.slotBound (s.sessVal src .tableLoadSlot) = false) :
    actTableLoad src p s
      = (rOk, s.setCodec { s.codec with slots := Tbl.put s.codec.slots (s.sessVal src .tableLoadSlot) ⟨p, false⟩ }) := by
  simp [actTableLoad, hlen, hcheck, hfree]

/-- TABLE_BIND of an id that no stored brick names, in a room in native mode, waits for the boundary that uses a write of the present
position; a slot to be bound holds a table (R47, R174, R202). -/
theorem actTableBind_of_unnamed {s : State} {room id v : Nat} (hcount : s.tableCount room id = 0) (hmode : s.val .roomTableMode room 0 = 0)
    (hslot : bitOf v 15 = false ∨ (Tbl.find s.codec.slots (v % 4096)).isSome = true) :
    actTableBind room id v s = (rOk, (s.setVal .tableBind room id v).setCodec { s.codec with
      waiting := s.codec.waiting ++ [(s.decidedAt, 32 * room + id, if bitOf v 15 then some (v % 4096) else none)] }) := by
  have hholds : (bitOf v 15 && (Tbl.find s.codec.slots (v % 4096)).isNone) = false := by
    rcases hslot with hbind | hslot
    · rw [hbind, Bool.false_and]
    · rw [Option.isNone_eq_false_iff.mpr hslot, Bool.and_false]
  simp [actTableBind, hcount, hmode, hholds]

/-- TABLE_FREE empties a slot that no room binds (R202). -/
theorem actTableFree_of_unbound {s : State} {slot : Nat} (hfree : s.slotBound slot = false) (hslot : slot < 4096) :
    actTableFree slot s = (rOk, s.setCodec { s.codec with slots := Tbl.del s.codec.slots slot }) := by
  have hempties : ¬(s.slotBound slot = true ∨ 4096 ≤ slot) := by simp [hfree, hslot]
  rw [actTableFree, if_neg hempties]

/-- What PACKED_LOAD_GO checks of a load from window `w` of a room into its window `d` (R205). -/
structure State.LoadFits (s : State) (room w d : Nat) : Prop where
  image : s.windowAt room (s.val .packedLoadSrc room 0) = some w
  target : s.windowAt room (s.val .packedLoadDst room 0) = some d
  apart : w ≠ d
  imageAligned : s.val .packedLoadSrc room 0 % 64 = 0
  targetAligned : s.val .packedLoadDst room 0 % 4096 = 0
  targetFits : s.val .packedLoadDst room 0 + 4096 * s.val .packedLoadPages room 0 ≤ s.val .windowBase room d + s.val .windowSize room d
  imageFits : s.val .packedLoadSrc room 0 + 128 * s.val .packedLoadPages room 0 ≤ s.val .windowBase room w + s.val .windowSize room w
  unsealed : attrSealed (s.attr room d) = false
  noView : s.viewOf room d = none

/-- PACKED_LOAD_GO of a load that fits begins it, in a room that is On and has none running (R205). -/
theorem actLoadGo_of_fits {s : State} {room w d : Nat} (hidle : (s.load room).state ≠ 1) (hon : s.roomOn room = true) (h : s.LoadFits room w d) :
    actLoadGo room 1 s = (rOk, s.setLoad room
      ⟨s.val .packedLoadSrc room 0, s.val .packedLoadDst room 0, s.val .packedLoadPages room 0, 0, 1, 0, 0, 0⟩) := by
  simp [actLoadGo, hidle, hon, h.image, h.target, h.apart, h.imageAligned, h.targetAligned, h.unsealed, h.noView,
    Nat.not_lt.mpr h.targetFits, Nat.not_lt.mpr h.imageFits]

/-- Settles O18: each request reaches its entry, and its action takes the branch in which every check passes. -/
theorem tableRequestsTakeEffect : Obligations.TableRequestsTakeEffect := by
  unfold Obligations.TableRequestsTakeEffect
  intro rq room id p s u v slot
  refine ⟨?image, ?bind, ?free, ?go⟩
  case image =>
    rintro ⟨htakes, hlen, hcheck, hfree⟩
    rw [exec_tableLoadImage, execTableLoadImage, odWrite_of_takes _ htakes, actTableLoad_of_checked hlen hcheck hfree]
  case bind =>
    rintro ⟨htakes, hcount, hmode, hslot⟩
    rw [exec_tableBind, execTableBind, odWrite_of_takes _ htakes, actTableBind_of_unnamed hcount hmode hslot]
  case free =>
    rintro ⟨htakes, hfree, hslot⟩
    rw [exec_tableFree, execTableFree, odWrite_of_takes _ htakes, actTableFree_of_unbound hfree hslot]
  case go =>
    rintro w d ⟨htakes, hone, hidle, hon⟩ src dst n ⟨hfrom, hinto, hother, hsrc, hdst, hroom, himage, hopen, hview⟩
    rw [exec_packedLoadGo, execPackedLoadGo, odWrite_of_takes _ htakes, show ofLe p = 1 from hone,
      actLoadGo_of_fits hidle hon ⟨hfrom, hinto, hother, hsrc, hdst, hroom, himage, hopen, hview⟩]

/- ## The first pass (R203) -/

/-- The state changed in its table slots and bindings alone. -/
def State.tablesOnly (s t : State) : Prop := ∃ slots binds, t = s.setCodec { s.codec with slots := slots, binds := binds }

theorem State.tablesOnly_self (s : State) : s.tablesOnly s := ⟨s.codec.slots, s.codec.binds, rfl⟩

theorem State.tablesOnly_trans {a b c : State} (h : a.tablesOnly b) (h' : b.tablesOnly c) : a.tablesOnly c := by
  obtain ⟨_, _, rfl⟩ := h
  obtain ⟨slots, binds, rfl⟩ := h'
  exact ⟨slots, binds, rfl⟩

theorem State.tablesOnly_ite {p : Prop} [Decidable p] {s t u : State} (ht : s.tablesOnly t) (hu : s.tablesOnly u) :
    s.tablesOnly (if p then t else u) := by
  by_cases h : p
  · rwa [if_pos h]
  · rwa [if_neg h]

theorem State.unbind_tablesOnly (s : State) (key : Nat) : s.tablesOnly (s.unbind key) := by
  unfold State.unbind
  split
  · exact s.tablesOnly_self
  · exact State.tablesOnly_ite ⟨_, _, rfl⟩ ⟨_, _, rfl⟩

theorem State.buildOne_tablesOnly (s : State) (key : Nat) (img : List Byte) : s.tablesOnly (s.buildOne key img).2.2 := by
  unfold State.buildOne
  split
  · exact s.tablesOnly_self
  · dsimp only
    split
    · exact s.unbind_tablesOnly key
    · exact State.tablesOnly_trans (s.unbind_tablesOnly key) ⟨_, _, rfl⟩

/-- The second id of a window is given a table only where its elements have planes (R203). -/
theorem State.buildIf_tablesOnly (s : State) (planes : Bool) (key : Nat) (img : List Byte) :
    s.tablesOnly (if planes then s.buildOne key img else (none, false, s)).2.2 := by
  cases planes
  · exact s.tablesOnly_self
  · exact s.buildOne_tablesOnly key img

theorem State.raiseIf_codec (p : Prop) [Decidable p] (s : State) (e : Ev) : (if p then s.raise e else s).codec = s.codec := by
  by_cases h : p
  · rw [if_pos h, State.raise_codec]
  · rw [if_neg h]

theorem State.raiseIf_pages (p : Prop) [Decidable p] (s : State) (e : Ev) : (if p then s.raise e else s).pages = s.pages := by
  by_cases h : p
  · rw [if_pos h, State.raise_pages]
  · rw [if_neg h]

/-- The window at the front of its region's queue leaves it and has its tables usable from the next boundary on; beside the codec's state only
what `raise` tells of the tables changes (R203). -/
theorem execTableBuilt_of_front {s : State} {room : Fin 64} {w : Fin 16} {e : Nat × Nat} (a b : List Byte)
    (hqueued : s.codec.queue.find? (fun x => x.2 = 16 * room.val + w.val) = some e)
    (hfront : s.codec.queue.find? (fun x => x.1 = e.1) = some e) :
    ∃ t : State, execTableBuilt room w a b s = .next t ∧ t.codec.queue = s.codec.queue.erase e
      ∧ t.codec.usable = Tbl.put s.codec.usable (16 * room.val + w.val) (boundaryAfter s.now) ∧ t.pages = s.pages := by
  simp only [execTableBuilt, hqueued]
  rw [if_neg (not_not_intro hfront)]
  refine ⟨_, rfl, ?_⟩
  obtain ⟨slots, binds, hbuilt⟩ := State.tablesOnly_trans (State.buildOne_tablesOnly (s.setCodec { s.codec with queue := s.codec.queue.erase e }) _ _)
    (State.buildIf_tablesOnly _ (decide (attrElement (s.attr room w) ≠ 0)) (32 * room.val + 2 * w.val + 1)
      (builtTable b (Tbl.get s.codec.samples (16 * room.val + w.val) ⟨0, [], [], false⟩).exps))
  rw [hbuilt]
  simp only [State.raise_codec, State.raise_pages, State.raiseIf_codec, State.raiseIf_pages]
  exact ⟨rfl, rfl, rfl⟩

/- ## Packed loads (R204, R205) -/

/-- The records of a packed page, in its first 128 bytes (R204). -/
def packedRecords (hdr : List Byte) : List Nat := (upTo 16).map fun b => ofLe ((hdr.drop (8 * b)).take 8)

/-- The bytes of a packed page: its records and the sectors that they count (R204). -/
def packedSize (hdr : List Byte) : Nat := 128 + 32 * ((packedRecords hdr).map recSectors).sum

/-- The page that a load comes to next. -/
def Load.next (l : Load) (room : Nat) : Nat := pageKey room (l.dst / 4096 + l.done)

/-- A load that has placed the packed page of `hdr`. -/
def Load.placed (l : Load) (hdr : List Byte) : Load :=
  { l with done := l.done + 1, src := (l.src + packedSize hdr + 63) / 64 * 64, paid := 0 }

/-- The next packed page of a load reads as `data` with `hdr` at its head, within one window, and each of its bricks checks (R205 step 1). -/
structure State.PageReads (s : State) (room : Nat) (l : Load) (hdr data : List Byte) : Prop where
  headInWindow : s.inWindow room l.src 128 = true
  head : s.roomBytes room l.src 128 = some (.ok hdr)
  target : (s.windowOf (l.next room)).isSome = true
  records : (packedRecords hdr).all packedRecordOk = true
  inWindow : s.inWindow room l.src (packedSize hdr) = true
  whole : s.roomBytes room l.src (packedSize hdr) = some (.ok data)
  bricks : ∀ b < 16, ∃ d, s.expandCoded (l.next room) b ((bricksOf data).getD b Stored.blank) noFooting = .ok d

/-- Neither quota nor ceiling nor a line held at a port stands in the way of `size` bytes at page `k` (R205 steps 2 to 4). -/
structure State.PageFits (s : State) (room k size : Nat) : Prop where
  quota : (s.page k).mode = .new → s.quotaRefuses room (attrDurable (s.pageAttr k)) = false
  ceiling : attrDurable (s.pageAttr k) = true → s.fits (if (s.page k).mode = .dirty then size - storedSize (s.page k).store else size + 8) = true
  unheld : s.dir.entries.filter (fun e => decide (linePage e.1 = k)) = []

theorem filterMap_upTo_eq_nil {α : Type} {n : Nat} {f : Nat → Option α} (h : ∀ i < n, f i = none) : (upTo n).filterMap f = [] :=
  List.filterMap_eq_nil_iff.mpr fun i hi => h i (List.mem_range.mp hi)

section
variable {s t u : State} {room : Fin 64} {l : Load} {hdr data : List Byte} {n : Nat}
variable (hload : s.load room = l) (hruns : l.state = 1) (hkeys : s.sec.keysOff = false)
include hload hruns hkeys

theorem execPackedLoadPage_of_room_left (hon : s.roomOn room = false) : execPackedLoadPage room s = .next (s.endLoad room 3 5 0) := by
  simp [execPackedLoadPage, hload, hruns, hkeys, hon]

theorem execPackedLoadPage_of_all_placed (hon : s.roomOn room = true) (hall : l.total ≤ l.done) :
    execPackedLoadPage room s = .next (s.endLoad room 2 0 0) := by
  simp [execPackedLoadPage, hload, hruns, hkeys, hon, hall]

/-- A page that reads, fits, is paid for and is shared with no version replaces its target, and the last one ends the load (R205; when a page is
paid for is log entry 81). -/
theorem execPackedLoadPage_of_placed (hon : s.roomOn room = true) (hleft : l.done < l.total) (hreads : s.PageReads room l hdr data)
    (hfits : s.PageFits room (l.next room) (packedSize hdr))
    (hcharge : s.chargeUp room (s.pageClass (l.next room)) (ceilDiv (packedSize hdr) 64 - l.paid) = (n, t))
    (hpaid : ceilDiv (packedSize hdr) 64 ≤ l.paid + n)
    (halone : (t.setLoad room { l with paid := l.paid + n }).isShared (l.next room) = false)
    (hplaced : (t.setLoad room { l with paid := l.paid + n }).replacePage (l.next room) (bricksOf data) = some u) :
    let w := u.setLoad room (l.placed hdr)
    execPackedLoadPage room s = .next (if l.done + 1 = l.total then w.endLoad room 2 0 0 else w).retryAll := by
  obtain ⟨hheadIn, hhead, htarget, hrecords, hin, hwhole, hbricks⟩ := hreads
  obtain ⟨hquota, hceiling, hunheld⟩ := hfits
  have hserves : ¬(l.state ≠ 1 ∨ s.sec.keysOff = true) := by simp [hruns, hkeys]
  have hopen : ¬(!s.roomOn room) = true := by simp [hon]
  have hinside : ¬(!s.inWindow room l.src 128 || (s.windowOf (l.next room)).isNone) = true := by
    rw [hheadIn, Option.isNone_eq_false_iff.mpr htarget]
    decide
  have hchecked : ¬(!(packedRecords hdr).all packedRecordOk) = true := by simp [hrecords]
  have hwithin : ¬(!s.inWindow room l.src (packedSize hdr)) = true := by simp [hin]
  have hallowed : ¬((s.page (l.next room)).mode = .new ∧ s.quotaRefuses room (attrDurable (s.pageAttr (l.next room))) = true) := by
    rintro ⟨hnew, hrefused⟩
    exact Bool.eq_false_iff.mp (hquota hnew) hrefused
  have hunder : ¬(attrDurable (s.pageAttr (l.next room)) = true ∧ (!s.fits (if (s.page (l.next room)).mode = .dirty
      then packedSize hdr - storedSize (s.page (l.next room)).store else packedSize hdr + 8)) = true) := by
    rintro ⟨hdurable, hover⟩
    simp [hceiling hdurable] at hover
  simp only [execPackedLoadPage, hload, if_neg hserves, if_neg hopen, if_neg (Nat.not_le.mpr hleft), ← Load.next.eq_def, if_neg hinside, hhead,
    ← packedRecords.eq_def, if_neg hchecked, ← packedSize.eq_def, if_neg hwithin, hwhole]
  rw [filterMap_upTo_eq_nil ?checks]
  case checks =>
    intro b hb
    obtain ⟨d, hd⟩ := hbricks b hb
    rw [hd]
  simp only [if_neg hallowed, if_neg hunder, hunheld, List.isEmpty_nil, Bool.not_true, hcharge, if_neg (Nat.not_lt.mpr hpaid), halone,
    Bool.false_eq_true, if_false, Option.bind_some, hplaced, Load.placed]

end

/- ## Shelves (R214, R216 to R219) -/

/-- A page of the version that an unshelve restores, as the unshelve found it where it did not verify (R221). -/
def ShelfJob.seen (j : ShelfJob) (e : ManPage) : ManPage := (j.found.find? fun x => x.page = e.page).getD e

section
variable {s : State} {n : BitVec 12} {j : ShelfJob} (hjob : (s.shelf n.toNat).job = some j)
include hjob

/-- At the boundary after its command a shelve freezes (R214). -/
theorem execShelveFreeze_of_due (hop : j.op = 1) (hwaits : j.begun = false) (hdue : boundaryAfter j.start ≤ s.now) :
    execShelveFreeze n s = .next (s.freezeShelf n.toNat (s.shelf n.toNat) j) := by
  simp only [execShelveFreeze, hjob]
  rw [if_pos ⟨hop, by simp [hwaits], hdue⟩]

variable {v : ShelfVer} (hver : (s.shelf n.toNat).vers.find? (fun v => v.version = j.version) = some v)
include hver

/-- At its boundary and in its turn an unshelve switches (R219). -/
theorem execUnshelveSwitch_of_due (hop : j.op = 2) (hwaits : j.begun = false) (hdue : boundaryAfter j.start ≤ s.now)
    (hturn : (s.unshelveQueue.take (64 - s.unshelving)).contains n.toNat = true) :
    execUnshelveSwitch n s = .next (s.switchShelf n.toNat (s.shelf n.toNat) j v).retryAll := by
  simp only [execUnshelveSwitch, hjob, hver]
  rw [if_pos ⟨hop, by simp [hwaits], hdue, hturn⟩]

/-- An unshelve whose pages are all verified ends OK where their digest is the version's (R219, R221). -/
theorem execUnshelveEnd_of_verified (hop : j.op = 2) (hbegun : j.begun = true) (hall : j.todo = [])
    (hdigest : digestOf (v.pages.map j.seen) = v.digest) :
    execUnshelveEnd n s = .next ((s.endStair n.toNat).endJob n.toNat 0 v.pages.length (some v.digest)) := by
  have hends : ¬(j.op ≠ 2 ∨ (!j.begun) = true ∨ (!j.todo.isEmpty) = true) := by simp [hop, hbegun, hall]
  simp only [execUnshelveEnd, hjob, hver, if_neg hends, ← ShelfJob.seen.eq_def]
  rw [if_pos hdigest, hdigest]

end

/- ## Crash scans (R234, R235, R239) -/

/-- The scan of a port that is Down begins where the walk stands, and the port no longer waits for one (R234, R235; where it begins is
log entry 117). -/
theorem execHostCrashScanStart_of_due {s : State} {p : Fin 32} {c : Scan}
    (hdown : s.dir.downs.find? (fun c => decide (c.port = p.val) && decide (c.start ≤ s.now)) = some c) :
    ∃ e, execHostCrashScanStart p s = .next ((s.setDir { s.dir with
      downs := s.dir.downs.filter fun x => x.port ≠ p.val, scans := s.dir.scans ++ [{ c with first := s.walkAt c.start }] }).raise e) := by
  simp only [execHostCrashScanStart, hdown]
  exact ⟨_, rfl⟩

theorem execHostCrashScanEnd_of_walked {s : State} {p : Fin 32} {c : Scan} (hruns : s.dir.scans.find? (fun c => c.port = p.val) = some c)
    (hwalked : 2 ^ 20 ≤ c.walked) : execHostCrashScanEnd p s = .next (s.endScan c).retryAll := by
  simp only [execHostCrashScanEnd, hruns, if_neg (Nat.not_lt.mpr hwalked)]

/-- Settles O44: the guard of each command holds; the tables built touch the slots and the bindings alone beside their queue, and a packed page
passes each check of R205 in its order. -/
theorem tablesShelvesAndScans : Obligations.TablesShelvesAndScans := by
  unfold Obligations.TablesShelvesAndScans
  intro s room n p f l
  refine ⟨?built, fun ⟨hruns, hkeys⟩ => ⟨?left, ?done, ?placed⟩, fun j hjob => ⟨?freeze, ?commit, fun v hver => ⟨?switch, ?verified⟩⟩, ?begun, ?ended⟩
  case built =>
    rintro w a b e ⟨hqueued, hfront⟩
    exact execTableBuilt_of_front a b hqueued hfront
  case left => exact execPackedLoadPage_of_room_left rfl hruns hkeys
  case done =>
    rintro ⟨hon, hall⟩
    exact execPackedLoadPage_of_all_placed rfl hruns hkeys hon hall
  case placed =>
    rintro hdr data m t u ⟨hon, hleft, hheadIn, hhead⟩ recs size k q bs v w
      ⟨htarget, hrecords, hin, hwhole, hbricks, hquota, hceiling, hunheld, hcharge, hpaid, halone, hplaced⟩
    exact execPackedLoadPage_of_placed rfl hruns hkeys hon hleft ⟨hheadIn, hhead, htarget, hrecords, hin, hwhole, hbricks⟩
      ⟨hquota, hceiling, hunheld⟩ hcharge hpaid halone hplaced
  case freeze =>
    rintro ⟨hop, hwaits, hdue⟩
    exact execShelveFreeze_of_due hjob hop hwaits hdue
  case commit =>
    rintro ⟨hop, hdone, hmanifest⟩ entry pages lost v t
    have hcommits : ¬(j.op ≠ 1 ∨ (!s.pagesDone f j) = true ∨ j.manifest ≠ some 0) := by simp [hop, hdone, hmanifest]
    simp only [exec_shelveCommit, execShelveCommit, show (s.shelf n.toNat).job = some j from hjob]
    exact if_neg hcommits
  case switch =>
    rintro ⟨hop, hwaits, hdue, hturn⟩
    exact execUnshelveSwitch_of_due hjob hver hop hwaits hdue hturn
  case verified =>
    rintro ⟨hop, hbegun, hall⟩ seen hdigest
    exact execUnshelveEnd_of_verified hjob hver hop hbegun hall hdigest
  case begun =>
    intro c hdown
    obtain ⟨e, he⟩ := execHostCrashScanStart_of_due hdown
    refine ⟨_, he, ?_⟩
    simp only [State.raise_dir, State.raise_pages, State.raise_reqs, State.setDir_dir, State.setDir_pages, State.setDir_reqs, and_self]
  case ended =>
    rintro c ⟨hruns, hwalked⟩
    exact execHostCrashScanEnd_of_walked hruns hwalked

end Sys2Proof.Machine

/- # Shelves: definitions and commands (R209 to R223) -/

namespace Sys2Proof.Machine

/- ## Definitions (R210) -/

/-- What SHELF_RANGES checks of the ranges of a shelf (R210, R490): whole pages that lie apart from each other, from the other shelves of the
room and from its pool windows, in durable windows of the room. -/
structure State.RangesAllowed (s : State) (n : Nat) (l : List (Nat × Nat)) : Prop where
  aligned : ∀ r ∈ l, r.1 % 4096 = 0 ∧ r.2 % 4096 = 0
  apart : apart l = true
  clear : ∀ r ∈ l, ((s.shelves.filter fun e => decide (e.1 ≠ n) && decide (e.2.room = (s.shelf n).room)).flatMap fun e => e.2.ranges).any
    (rangesMeet r) = false ∧ s.meetsPool (s.shelf n).room r = false
  durable : s.rangesFit (s.shelf n).room l = true

section
variable {s : State} {src : Arrival} {n : Nat} (hsel : s.sessVal src .shelfSelect = n) (hvers : (s.shelf n).vers = [])
  (hidle : (s.shelf n).job = none)
include hsel hvers hidle

/-- SHELF_ROOM of a room that exists allots the selected shelf where it is another room's, Idle and without a version. The bases it keeps stay,
and its version numbers go on above theirs: the model's choice, log entry 115. -/
theorem actShelfRoom_of_room {v : Nat} (hroom : v < 64) (hother : (s.shelf n).room ≠ v) :
    actShelfRoom src v s = (rOk, s.setShelf n { Shelf.init with
      room := v, recording := decide (s.recorders < 256), bases := (s.shelf n).bases,
      highest := (s.shelf n).bases.foldl (fun m b => max m b.version) 0 }) := by
  have hexists : ¬(v ≠ 255 ∧ 64 ≤ v) := fun h => Nat.not_le.mpr hroom h.2
  have hnamed : v ≠ 255 := by omega
  simp only [actShelfRoom, hsel, if_neg hexists, if_neg hother, hvers, hidle]
  simp [hnamed]

/-- SHELF_RANGES of ranges that pass its checks defines the selected shelf where it is allotted, Idle and without a version (R210). -/
theorem actShelfRanges_of_allowed {p : List Byte} (hlen : p.length = 256) (hroom : (s.shelf n).room ≠ 255)
    (h : s.RangesAllowed n (rangesOf 16 p)) :
    actShelfRanges src p s = (rOk, s.setShelf n { s.shelf n with ranges := rangesOf 16 p }) := by
  obtain ⟨haligned, hapart, hclear, hdurable⟩ := h
  have hwhole : (rangesOf 16 p).all (fun r => decide (r.1 % 4096 = 0) && decide (r.2 % 4096 = 0)) = true := by simpa using haligned
  have hothers := List.any_eq_false.mpr fun r hr => Bool.eq_false_iff.mp (hclear r hr).1
  have hpools := List.any_eq_false.mpr fun r hr => Bool.eq_false_iff.mp (hclear r hr).2
  simp only [actShelfRanges, hsel, hwhole, hapart, hothers, hpools, hdurable]
  simp [hlen, hroom, hvers, hidle]

end

/- ## The bytes of SHELF_COMMAND (R222) -/

theorem ofLe_leBytes {n v : Nat} (h : v < 256 ^ n) : ofLe (leBytes n v) = v := by
  induction n generalizing v with
  | zero => rw [leBytes, ofLe]; omega
  | succ n ih =>
    have hrest : v / 256 < 256 ^ n := Nat.div_lt_of_lt_mul (by rwa [← Nat.pow_succ'])
    rw [leBytes, ofLe, ih hrest, BitVec.toNat_ofNat, Nat.mod_add_div]

/-- A SHELF_COMMAND of an operation on a version of a shelf (R222). -/
def shelfCommandBytes (op n version : Nat) : List Byte := leBytes 1 op ++ [0] ++ leBytes 2 n ++ leBytes 4 version

section
variable (op n version : Nat)

@[simp] theorem shelfCommandBytes_length : (shelfCommandBytes op n version).length = 8 := by simp [shelfCommandBytes]

@[simp] theorem shelfCommandBytes_take_op : (shelfCommandBytes op n version).take 1 = leBytes 1 op := rfl

@[simp] theorem shelfCommandBytes_reserved : (shelfCommandBytes op n version).getD 1 0 = 0 := rfl

@[simp] theorem shelfCommandBytes_take_shelf : ((shelfCommandBytes op n version).drop 2).take 2 = leBytes 2 n := rfl

@[simp] theorem shelfCommandBytes_take_version : ((shelfCommandBytes op n version).drop 4).take 4 = leBytes 4 version := rfl

end

/-- The one who writes SHELF_COMMAND may command a shelf of the room: the steward, or a tenant whose port owns the room (R222; of a tenant,
the model's reading, log entry 38). -/
def State.mayCommandShelf (s : State) (src : Arrival) (room : Nat) : Prop :=
  s.classOf src = some .steward ∨ ∃ q, s.classOf src = some (.tenant q) ∧ s.owns q room = true

/-- A SHELF_COMMAND whose operation answers OUTCOME 0 is OK and leaves what the operation left (R222). -/
theorem actShelfCommand_of_done {s t : State} {src : Arrival} {op n version : Nat} (hlo : 1 ≤ op) (hhi : op ≤ 3) (hn : n < 4096)
    (hversion : version < 2 ^ 32) (hroom : (s.shelf n).room < 64) (hmay : s.mayCommandShelf src (s.shelf n).room)
    (hdone : s.shelfOp op n version .od = (0, t)) : actShelfCommand src (shelfCommandBytes op n version) s = (rOk, t) := by
  have hop : ofLe (leBytes 1 op) = op := ofLe_leBytes (by omega)
  have hshelf : ofLe (leBytes 2 n) = n := ofLe_leBytes (by omega)
  have hver : ofLe (leBytes 4 version) = version := ofLe_leBytes (by omega)
  have hfields : ¬((0 : Byte) ≠ 0 ∨ op = 0 ∨ 3 < op ∨ 4096 ≤ n) := by simp; omega
  simp only [actShelfCommand, State.shelfByOd, shelfCommandBytes_length, shelfCommandBytes_take_op, shelfCommandBytes_reserved,
    shelfCommandBytes_take_shelf, shelfCommandBytes_take_version, hop, hshelf, hver, if_neg hfields, hdone]
  rcases hmay with hsteward | ⟨q, htenant, howns⟩
  · simp [hsteward, hroom]
  · simp [htenant, hroom, howns]

/-- A write to SHELF_COMMAND that reaches it and whose operation answers OUTCOME 0 (R222). -/
theorem State.shelfCommand_of_done {s t : State} {rq : Rq} {p : List Byte} (htakes : s.takes rq .shelfCommand 0 0 p = true)
    (hact : actShelfCommand rq.src p (s.openSess rq.src) = (rOk, t)) : s.shelfCommand rq p = t.answers rq .shelfCommand 0 0 rOk := by
  rw [State.shelfCommand, odWrite_of_takes _ htakes, hact]

/-- Settles O19: SHELF_ROOM and SHELF_RANGES reach their entry and take the branch in which every check passes; the three commands are one write,
whose fields are read back from its bytes. -/
theorem shelfRequestsTakeEffect : Obligations.ShelfRequestsTakeEffect := by
  unfold Obligations.ShelfRequestsTakeEffect
  intro rq p s u n f
  refine ⟨?room, ?ranges, ?command⟩
  case room =>
    rintro ⟨htakes, hroom, hother, hvers, hidle⟩
    rw [exec_shelfRoom, execShelfRoom, odWrite_of_takes _ htakes, actShelfRoom_of_room rfl hvers hidle hroom hother]
  case ranges =>
    rintro l others ⟨htakes, hlen, hroom, hvers, hidle, haligned, hapart, hclear, hdurable⟩
    rw [exec_shelfRanges, execShelfRanges, odWrite_of_takes _ htakes,
      actShelfRanges_of_allowed rfl hvers hidle hlen hroom ⟨haligned, hapart, hclear, hdurable⟩]
  case command =>
    rintro op m ver t ⟨htakes, hbytes, hlo, hhi, hm, hver, hroom, hmay, hdone⟩
    have hact : actShelfCommand rq.src p u = (rOk, t) := by
      rw [hbytes]
      exact actShelfCommand_of_done hlo hhi hm hver hroom hmay hdone
    simp only [exec_shelve, execShelve, exec_unshelve, execUnshelve, exec_shelfRelease, execShelfRelease, State.shelfCommand_of_done htakes hact,
      and_self]

/- ## What a command sets going (R213, R214, R219, R343) -/

/-- A command that waits at a shelf (R214, R219), begun now: nothing marked, captured or restored yet. -/
def State.waitingJob (s : State) (op version : Nat) (from_ : ShelfFrom) : ShelfJob :=
  ⟨op, version, from_, false, false, s.now, [], [], [], [], [], 0, 0, none⟩

section
variable {s : State} {n : Nat} (version : Nat) (from_ : ShelfFrom)

/-- A shelf with a job is busy for every operation (R222). -/
theorem State.shelfOp_of_job (hjob : (s.shelf n).job.isSome = true) (op : Nat) : s.shelfOp op n version from_ = (2, s) := by
  unfold State.shelfOp
  split
  · exact if_pos hjob
  · exact if_pos hjob
  · exact if_pos hjob

variable (hidle : (s.shelf n).job = none)
include hidle

/-- SHELVE waits for its freeze where slots, versions and version numbers are left (R211, R213, R214, R343). -/
theorem State.startShelve_of_idle (hslots : s.slotsLow = false) (hroom : (s.shelf n).vers.length < 32) (hnumber : (s.shelf n).highest ≠ 0xFFFFFFFF) :
    s.startShelve n from_ = (0, s.setShelf n { s.shelf n with job := some (s.waitingJob 1 0 from_) }) := by
  have hleft : ¬(32 ≤ (s.shelf n).vers.length ∨ (s.shelf n).highest = 0xFFFFFFFF) := not_or.mpr ⟨Nat.not_le.mpr hroom, hnumber⟩
  simp [State.startShelve, hidle, hslots, if_neg hleft, State.waitingJob]

variable {version} {v : ShelfVer} (hver : (s.shelf n).vers.find? (fun x => x.version = version) = some v)
include hver

/-- UNSHELVE of a version that the shelf retains waits for its turn where the ranges fit the room and the room is On (R219). -/
theorem State.startUnshelve_of_retained (hnamed : version ≠ 0) (hfit : s.rangesFit (s.shelf n).room (s.shelf n).ranges = true)
    (hon : s.roomOn (s.shelf n).room = true) :
    s.startUnshelve n version from_ = (0, s.setShelf n { s.shelf n with job := some (s.waitingJob 2 v.version from_) }) := by
  simp [State.startUnshelve, hidle, hnamed, hver, hfit, hon, State.waitingJob]

/-- SHELF_RELEASE of a version that the shelf retains is done at once: the version goes, the shelf keeps the result, and SHELF_RELEASED is
written (R213, R223, R227). -/
theorem State.startRelease_of_retained :
    let r := s.releaseShelf n v
    let at_ := r.2.shown r.2.now
    s.startRelease n version .od = (0, (r.2.updShelf n fun f => { f with result := shelfResult n 3 0 version at_ at_ v.pages.length 0 0 }).raise
      { code := 0x3803, sev := 0, unit := srcRoom (s.shelf n).room, args := leBytes 2 n ++ leBytes 4 version ++ leBytes 4 r.1 }) := by
  simp [State.startRelease, hidle, hver]

end

/-- Settles O20: each operation at an idle shelf takes the branch in which nothing refuses it; a job refuses them all. -/
theorem shelfJobsBegin : Obligations.ShelfJobsBegin := by
  unfold Obligations.ShelfJobsBegin
  intro n version from_ v s f job
  refine ⟨fun hidle => ⟨?shelve, ?unshelve, ?release⟩, State.shelfOp_of_job version from_⟩
  case shelve =>
    rintro ⟨hslots, hroom, hnumber⟩
    exact State.startShelve_of_idle from_ hidle hslots hroom hnumber
  case unshelve =>
    rintro ⟨hver, hnamed, hfit, hon⟩
    exact State.startUnshelve_of_retained from_ hidle hver hnamed hfit hon
  case release => exact State.startRelease_of_retained hidle

end Sys2Proof.Machine

/- # Coherence: a host declared failed, published regions and their views; the program store -/

namespace Sys2Proof.Machine

/- ## A host declared failed, regions and views (R234, R240, R246) -/

/-- HOST_FAILED of a Host or Companion port whose function is not Off stops the function and takes the link down as a crash (R234). -/
theorem actHostFailed_of_host {s : State} {x : Fin 32} (hrole : s.roleOf x = .host ∨ s.roleOf x = .companion) (hon : (s.fn (.port x)).state ≠ .off) :
    actHostFailed x s = (rOk, (s.fnTo (.port x) { s.fn (.port x) with state := .stopping, cause := 0 }).portDown x 0 true) := by
  have hlinked : ¬(s.roleOf x = .peer ∨ s.roleOf x = .off) := by rcases hrole with h | h <;> simp [h]
  simp only [actHostFailed, dif_pos x.isLt, if_neg hlinked, if_neg hon]

/-- The high byte of the index of a region's definition is the page of regions. -/
theorem pubIndex_page (g : Byte) : (0x5900 + g.setWidth 16 : BitVec 16).toNat / 256 = 0x59 := by bv_omega

/-- The low byte of the index of a region's definition is the region. -/
theorem pubIndex_region (g : Byte) : (0x5900 + g.setWidth 16 : BitVec 16).toNat % 256 = g.toNat := by bv_omega

/-- PUB_ROOM, PUB_BASE and PUB_SIZE are one command, which names them by their sub-index (R240). -/
theorem execPubDefine_of_entry {e : Ent} {sub : Byte} (g : Byte) (rq : Rq) (p : List Byte) (s : State)
    (h : (e = .pubRoom ∧ sub = 1) ∨ (e = .pubBase ∧ sub = 2) ∨ (e = .pubSize ∧ sub = 3)) :
    execPubDefine rq (0x5900 + g.setWidth 16) sub p s = .next (s.odWrite rq e g.toNat 0 p noCalls (actPubDefine e g.toNat (ofLe p))) := by
  simp only [execPubDefine, pubIndex_page, pubIndex_region]
  rcases h with ⟨rfl, rfl⟩ | ⟨rfl, rfl⟩ | ⟨rfl, rfl⟩ <;> rfl

/-- A definition write stands where the definition that results is aligned and in durable publisher windows, and no version is retained (R240). -/
theorem actPubDefine_of_fits {s : State} {e : Ent} {g v : Nat} (hvers : (s.pub g).vers = [])
    (hbase : (s.setVal e g 0 v).val .pubBase g 0 % 4096 = 0) (hsize : (s.setVal e g 0 v).val .pubSize g 0 % 4096 = 0)
    (hroom : (s.setVal e g 0 v).val .pubRoom g 0 = 255 ∨ ((s.setVal e g 0 v).val .pubRoom g 0 < 64
      ∧ s.rangeIn ((s.setVal e g 0 v).val .pubRoom g 0) (fun a => attrDurable a && attrPublisher a) 17
          ((s.setVal e g 0 v).val .pubBase g 0) ((s.setVal e g 0 v).val .pubSize g 0) = true)) :
    actPubDefine e g v s = (rOk, s.setVal e g 0 v) := by
  simp [actPubDefine, hvers, hbase, hsize, hroom]

/-- PUB_DELETE of a region none of whose versions is open in a view deletes it (R240). -/
theorem actPubDelete_of_closed {s : State} {g : Nat} (h : ∀ x ∈ (s.pub g).vers, s.openViews g x.version = []) :
    actPubDelete g 1 s = (rOk, s.deleteRegion g) := by
  have hclosed : ((s.pub g).vers.any fun x => !(s.openViews g x.version).isEmpty) = false := by simpa using h
  simp [actPubDelete, hclosed]

/-- VIEW_REGION of 0 unbinds the window (R246). -/
theorem actViewRegion_zero (room w : Nat) (s : State) : actViewRegion room w 0 s = (rOk, s.unbindView room w) := rfl

/-- VIEW_REGION binds a window to another region of its own size, in a room without a page (R246). -/
theorem actViewRegion_of_fits {s : State} {room w v : Nat} (hbound : v / 256 = 128) (hwindow : s.val .windowSize room w ≠ 0)
    (hdefined : s.pubDefined (v % 256) = true) (hsize : s.val .windowSize room w = s.val .pubSize (v % 256) 0)
    (hpool : s.poolWindow room w = false) (hnew : s.val .viewRegion room w ≠ v) (hempty : ∀ e ∈ s.pages, pageRoom e.1 ≠ room) :
    actViewRegion room w v s = (rOk, (s.unbindView room w).setVal .viewRegion room w v) := by
  have hbit : bitOf v 15 = true := by
    have hshift : v / 32768 % 2 = 1 := by omega
    simp [bitOf, Nat.shiftRight_eq_div_pow, hshift]
  have hunused : (s.pages.any fun e => decide (pageRoom e.1 = room) && decide (e.1 < 2 ^ 40)
      && decide (s.val .windowBase room w ≤ 4096 * pageNo e.1)
      && decide (4096 * pageNo e.1 < s.val .windowBase room w + s.val .windowSize room w)) = false := by
    rw [List.any_eq_false]
    intro e he
    simp [hempty e he]
  have hfits : ¬(s.val .windowSize room w = 0 ∨ (!s.pubDefined (v % 256)) = true ∨ s.val .windowSize room w ≠ s.val .pubSize (v % 256) 0
      ∨ false = true ∨ s.poolWindow room w = true) := by
    rintro (hnone | hundefined | hother | hused | hpooled)
    · exact hwindow hnone
    · rw [hdefined] at hundefined
      exact Bool.false_ne_true hundefined
    · exact hother hsize
    · exact Bool.false_ne_true hused
    · rw [hpool] at hpooled
      exact Bool.false_ne_true hpooled
  simp only [actViewRegion, hunused, hbit, hbound, if_neg hfits, if_neg hnew]
  rfl

/- ## The program store (R274, R275) -/

/-- The images under a handle, taken from new calls. -/
def retireHandle (h : Nat) (l : List Prog) : List Prog := l.map fun p => if p.handle = h then { p with current := false } else p

theorem current_of_mem_retireHandle {h : Nat} {l : List Prog} {q : Prog} (hq : q ∈ retireHandle h l) (hname : q.handle = h) : q.current = false := by
  obtain ⟨p, -, rfl⟩ := List.mem_map.mp hq
  by_cases hp : p.handle = h
  · rw [if_pos hp]
  · rw [if_neg hp] at hname
    exact absurd hname hp

/-- Freeing images installs none. -/
theorem State.mem_progs_of_mem_freeProgs {s : State} {q : Prog} (hq : q ∈ s.freeProgs.cores.progs) : q ∈ s.cores.progs :=
  (List.mem_filter.mp hq).1

/-- PROG_INSTALL of an image that passes its checks and for which the store has room installs it in place of the handle's (R274, R275). -/
theorem actProgInstall_of_valid {src : Arrival} {s t : State} {h : Nat} {img : List Byte} (hh : s.sessVal src .progSelect = h)
    (himg : s.blob .progImage 0 0 [] = img)
    (ht : (s.setCores { s.cores with progs := retireHandle h s.cores.progs }).freeProgs = t)
    (hdigest : sha384 img = fit 48 (s.blob .progDigest 0 0 [])) (hvalid : imageOk img = true) (hfree : handleReserved h = false)
    (hbytes : img.length ≤ t.progFree) (hcount : t.cores.progs.length < 256) :
    actProgInstall src 1 s = (rOk, (t.setCores { t.cores with
        progs := t.cores.progs ++ [⟨t.cores.nextProg, h, s.val .progRooms 0 0, img, true⟩]
        nextProg := t.cores.nextProg + 1
        status := Tbl.put t.cores.status h 1 }).raise
      { code := 0x8010, sev := 1, unit := srcKeeper, args := leBytes 4 h ++ leBytes 4 img.length }) := by
  subst hh himg ht
  have hroom := not_or.mpr ⟨Nat.not_lt.mpr hbytes, Nat.not_le.mpr hcount⟩
  simp only [actProgInstall, ne_eq, not_true_eq_false, if_false, hdigest, hvalid, hfree, Bool.not_true, Bool.false_eq_true]
  exact if_neg hroom

/-- PROG_REMOVE of a handle with a current image takes that image from new calls (R274). -/
theorem actProgRemove_of_current {src : Arrival} {s : State} {h : Nat} (hh : s.sessVal src .progSelect = h)
    (hcur : s.cores.progs.any (fun x => x.current && decide (x.handle = h)) = true) :
    actProgRemove src 1 s = (rOk, (s.setCores { s.cores with
        progs := retireHandle h s.cores.progs, status := Tbl.put s.cores.status h 6 }).freeProgs.raise (progRemoved h 0)) := by
  subst hh
  have hok : ¬((1 : Nat) ≠ 1 ∨ (!s.cores.progs.any (fun x => x.current && decide (x.handle = s.sessVal src .progSelect))) = true) := by simp [hcur]
  exact if_neg hok

/-- Settles O21: each request reaches its entry, and its action takes the branch in which every check passes; an image that a removal has
retired is current under no handle afterwards, as freeing images only drops some. -/
theorem publishAndProgramRequests : Obligations.PublishAndProgramRequests := by
  unfold Obligations.PublishAndProgramRequests
  refine ⟨fun rq p s => ⟨?failed, ?define, ?delete, ?view⟩, fun rq p s hone => ⟨?install, ?remove⟩⟩
  case failed =>
    rintro x ⟨htakes, hv, hrole, hon⟩
    rw [exec_hostFailed, execHostFailed, odWrite_of_takes _ htakes, hv, actHostFailed_of_host hrole hon]
  case define =>
    rintro g sub e hentry t room base size ⟨htakes, hvers, hbase, hsize, hroom⟩
    rw [exec_pubDefine, execPubDefine_of_entry g rq p s hentry, odWrite_of_takes _ htakes, actPubDefine_of_fits hvers hbase hsize hroom]
  case delete =>
    rintro g ⟨htakes, hv, hclosed⟩
    rw [exec_pubDelete, execPubDelete, odWrite_of_takes _ htakes, hv, actPubDelete_of_closed hclosed]
  case view =>
    intro room w htakes
    rw [exec_viewRegion, execViewRegion, odWrite_of_takes _ htakes]
    refine ⟨fun hv => ?_, fun ⟨hbound, hwindow, hdefined, hsize, hpool, hnew, hempty⟩ => ?_⟩
    · rw [hv, actViewRegion_zero]
    · rw [actViewRegion_of_fits hbound hwindow hdefined hsize hpool hnew hempty]
  case install =>
    rintro ⟨htakes, hdigest, hvalid, hfree, hbytes, hcount⟩
    rw [exec_progInstall, execProgInstall, odWrite_of_takes _ htakes, hone,
      actProgInstall_of_valid rfl rfl rfl hdigest hvalid hfree hbytes hcount]
    rfl
  case remove =>
    rintro ⟨htakes, hcur⟩
    refine ⟨_, by rw [exec_progRemove, execProgRemove, odWrite_of_takes _ htakes, hone, actProgRemove_of_current rfl hcur], fun q hq => ?_⟩
    rw [State.raise_cores] at hq
    exact current_of_mem_retireHandle (State.mem_progs_of_mem_freeProgs hq)

end Sys2Proof.Machine

/- # The cores: scalar registers and the tile store (R254, R271, R291) -/

namespace Sys2Proof.Machine

/- ## Scalar registers (R254) -/

@[simp] theorem Core.sreg_zero (c : Core) : c.sreg 0 = 0 := rfl

@[simp] theorem Core.setS_zero (c : Core) (v : Word) : c.setS 0 v = c := rfl

/-- A write of a scalar register other than s0 sets its place in the list of scalar registers. -/
theorem Core.setS_of_pos {c : Core} {d : Nat} {v : Word} (h : 0 < d) : c.setS d v = { c with s := c.s.set d v } :=
  if_neg (Nat.ne_of_gt h)

/-- A scalar register other than s0 reads as its place in the list of scalar registers. -/
theorem Core.sreg_of_pos {c : Core} {r : Nat} (h : 0 < r) : c.sreg r = c.s.getD r 0 := if_neg (Nat.ne_of_gt h)

theorem Core.sreg_setS_self {c : Core} {d : Nat} {v : Word} (hpos : 0 < d) (hlt : d < c.s.length) : (c.setS d v).sreg d = v := by
  rw [Core.setS_of_pos hpos, Core.sreg_of_pos hpos, List.getD_eq_getElem?_getD, List.getElem?_set_self hlt, Option.getD_some]

theorem Core.sreg_setS_ne {c : Core} {d r : Nat} {v : Word} (h : r ≠ d) : (c.setS d v).sreg r = c.sreg r := by
  rcases Nat.eq_zero_or_pos r with rfl | hr
  · simp only [Core.sreg_zero]
  rcases Nat.eq_zero_or_pos d with rfl | hd
  · rw [Core.setS_zero]
  · rw [Core.setS_of_pos hd, Core.sreg_of_pos hr, Core.sreg_of_pos hr, List.getD_eq_getElem?_getD, List.getElem?_set_ne h.symm,
      ← List.getD_eq_getElem?_getD]

@[simp] theorem Core.setS_w (c : Core) (d : Nat) (v : Word) : (c.setS d v).w = c.w := by unfold Core.setS; split <;> rfl
@[simp] theorem Core.setS_a (c : Core) (d : Nat) (v : Word) : (c.setS d v).a = c.a := by unfold Core.setS; split <;> rfl
@[simp] theorem Core.setS_ts (c : Core) (d : Nat) (v : Word) : (c.setS d v).ts = c.ts := by unfold Core.setS; split <;> rfl
@[simp] theorem Core.setS_st (c : Core) (d : Nat) (v : Word) : (c.setS d v).st = c.st := by unfold Core.setS; split <;> rfl

/-- Settles O5: the reading of the register written, the reading of every other one, and the fields that a scalar write passes over. -/
theorem scalarRegisterZero : Obligations.ScalarRegisterZero := fun c d v =>
  ⟨c.sreg_zero, c.setS_zero v, fun ⟨hpos, hlt⟩ => Core.sreg_setS_self hpos hlt, fun _ hne => Core.sreg_setS_ne hne,
    c.setS_w d v, c.setS_a d v, c.setS_ts d v, c.setS_st d v, c.setS_pc d v⟩

/- ## The tile store (R271, R291) -/

/-- A byte written is read back: a nonzero byte stands in its cell, and the cell of a zero byte is gone. -/
theorem Memory.read_write_self {m : Memory} (a : Nat) (v : Byte) (h : m.wf) : (m.write a v).read a = v := by
  unfold Memory.write
  split
  case isTrue hzero =>
    have hgone : Tbl.find (Tbl.del m a) a = none := Tbl.find_del_self m a (m.wf_tbl h)
    simp [Memory.read, Tbl.get, hgone, hzero]
  case isFalse => exact Tbl.get_put_self m a v 0

theorem Memory.read_write_ne {m : Memory} {a b : Nat} (v : Byte) (h : m.wf) (hne : b ≠ a) : (m.write a v).read b = m.read b := by
  unfold Memory.write
  split
  case isTrue =>
    have hkept : Tbl.find (Tbl.del m a) b = Tbl.find m b := Tbl.find_del_ne m a b (m.wf_tbl h) hne
    simp [Memory.read, Tbl.get, hkept]
  case isFalse => exact Tbl.get_put_ne m a b v 0 hne

/-- Writing a run of bytes leaves the bytes before and after the run as they were. -/
theorem Memory.read_writeBytes_outside {m : Memory} {a b : Nat} {l : List Byte} (h : m.wf) (hb : b < a ∨ a + l.length ≤ b) :
    (m.writeBytes a l).read b = m.read b := by
  induction l generalizing m a with
  | nil => rfl
  | cons v l ih =>
    rw [List.length_cons] at hb
    have hrest : b < a + 1 ∨ a + 1 + l.length ≤ b := by omega
    have hne : b ≠ a := by omega
    calc ((m.write a v).writeBytes (a + 1) l).read b
      _ = (m.write a v).read b := ih (Memory.wf_write m a v h) hrest
      _ = m.read b := Memory.read_write_ne v h hne

/-- A run of bytes written is read back: the first byte stands, as the rest of the run is written above it. -/
theorem Memory.readBytes_writeBytes {m : Memory} (a : Nat) (l : List Byte) (h : m.wf) : (m.writeBytes a l).readBytes a l.length = l := by
  induction l generalizing m a with
  | nil => rfl
  | cons v l ih =>
    have hwf : (m.write a v).wf := Memory.wf_write m a v h
    have hfirst : ((m.write a v).writeBytes (a + 1) l).read a = v :=
      (Memory.read_writeBytes_outside hwf (.inl (Nat.lt_succ_self a))).trans (Memory.read_write_self a v h)
    have hrest : ((m.write a v).writeBytes (a + 1) l).readBytes (a + 1) l.length = l := ih (a + 1) hwf
    calc ((m.write a v).writeBytes (a + 1) l).read a :: ((m.write a v).writeBytes (a + 1) l).readBytes (a + 1) l.length
      _ = v :: l := by rw [hfirst, hrest]

/-- Settles O7: the laws of one byte, and by induction on the run those of a run of bytes. -/
theorem tileStoreIsMemory : Obligations.TileStoreIsMemory := by
  refine ⟨fun m a b v hwf => ?byte, fun m a l hwf => ⟨?readBack, ?canonical, fun b hb => ?outside⟩⟩
  case byte =>
    split
    case isTrue heq => exact heq ▸ Memory.read_write_self a v hwf
    case isFalse hne => exact Memory.read_write_ne v hwf hne
  case readBack => exact Memory.readBytes_writeBytes a l hwf
  case canonical => exact Memory.wf_writeBytes m a l hwf
  case outside => exact Memory.read_writeBytes_outside hwf hb

end Sys2Proof.Machine

/- # The cores: how an instruction issues, completes and faults (R279, R286, R308, R309) -/

namespace Sys2Proof.Machine

/- ## Issue and completion -/

theorem State.issues_of_runs {s : State} {core : Fin 32} {regs : List Nat} (h : s.runs core regs = true) : s.issues core = true := by
  simp only [State.runs, Bool.and_eq_true] at h
  exact h.1.1

@[simp] theorem Core.owed_nil (c : Core) : c.owed [] = [] := by simp [Core.owed]

/-- A legal instruction that completes leaves its core at the next word. -/
theorem issue_done {s : State} {core : Fin 32} {regs : List Nat} {ck : Option Nat} {body : Core → Did} {c : Core} (h : s.runs core regs = true)
    (hck : ck = none) (hbody : body (s.core core) = .done c) (hwords : c.words = (s.core core).words) (hpc : c.pc = (s.core core).pc) :
    s.issue core ck regs body = .next (s.stepped core c) := by
  rw [issue_of_runs s core regs ck body h hck, hbody, settle_of_runs s core regs c h hwords hpc]

/-- A legal instruction that writes a scalar register and nothing else leaves its core at the next word. -/
theorem issue_setS {s : State} {core : Fin 32} {regs : List Nat} {ck : Option Nat} {body : Core → Did} {d : Nat} {v : Word}
    (h : s.runs core regs = true) (hck : ck = none) (hbody : body (s.core core) = .done ((s.core core).setS d v)) :
    s.issue core ck regs body = .next (s.stepped core ((s.core core).setS d v)) :=
  issue_done h hck hbody (Core.setS_words _ d v) (Core.setS_pc _ d v)

/-- A legal instruction that names no wide register is settled at once. -/
theorem issue_of_issues {s : State} {core : Fin 32} {ck : Option Nat} (body : Core → Did) (h : s.issues core = true) (hck : ck = none) :
    s.issue core ck [] body = .next (s.settle core (body (s.core core))) := by
  simp [State.issue, h, hck, State.payOwed]

/-- An instruction whose check fails faults. -/
theorem issue_fault {s : State} {core : Fin 32} {ck : Option Nat} {code : Nat} (regs : List Nat) (body : Core → Did) (h : s.issues core = true)
    (hck : ck = some code) : s.issue core ck regs body = .next (s.faultStep core code) := by
  simp [State.issue, h, hck]

theorem settle_jump {s : State} {core dest : Nat} {c : Core} (h : dest < c.words) :
    s.settle core (.jump c dest) = s.setCore core { c with pc := dest } := if_pos h

theorem settle_jump_outside {s : State} {core dest : Nat} {c : Core} (h : c.words ≤ dest) :
    s.settle core (.jump c dest) = s.faultStep core fCode := if_neg (Nat.not_lt.mpr h)

theorem settle_done {s : State} {core : Nat} {c : Core} (h : c.pc + 1 < c.words) :
    s.settle core (.done c) = s.setCore core { c with pc := c.pc + 1 } := if_pos h

/-- A legal instruction that draws a free value takes the one that stands, and leaves the next to stand. -/
theorem draw_of_runs {s : State} {core : Fin 32} {regs : List Nat} {ck : Option Nat} (h : s.runs core regs = true) (hck : ck = none) :
    (if s.issues core && ck.isNone then s.draw else (0, s)) = (s.free, s.setFree (s.free + 1)) := by
  rw [State.issues_of_runs h, hck]; rfl

/-- Updates that keep a field of a core keep it one after the other. -/
theorem foldl_keeps {α : Type} (get : Core → Nat) {g : Core → α → Core} (hg : ∀ c x, get (g c x) = get c) (l : List α) (c : Core) :
    get (l.foldl g c) = get c := by
  induction l generalizing c with
  | nil => rfl
  | cons x l ih => exact (ih (g c x)).trans (hg c x)

/- ## The check of a word -/

/-- A value within a mask is within every mask that has the bits of the first. -/
theorem within_of_subset {v m n : Nat} (hsub : m &&& n = m) (h : within v m = true) : within v n = true := by
  simp only [within, decide_eq_true_eq] at h ⊢
  calc v &&& n
    _ = v &&& m &&& n := by rw [h]
    _ = v &&& m := by rw [Nat.and_assoc, hsub]
    _ = v := h

theorem le_of_within {v m : Nat} (h : within v m = true) : v ≤ m := of_decide_eq_true h ▸ Nat.and_le_right

/-- The unused fields of a word are zero, field by field. -/
theorem zeroElse_iff (f : Fields) (u : Uses) : zeroElse f u = true ↔ within f.mod.toNat u.mod = true ∧ (u.d = true ∨ f.d = 0)
    ∧ (u.a = true ∨ f.a = 0) ∧ (u.b = true ∨ f.b = 0) ∧ (u.c = true ∨ f.c = 0) ∧ within f.x.toNat u.x = true ∧ within f.imm.toNat u.imm = true := by
  simp [zeroElse, and_assoc]

theorem mod_le_of_zeroElse {f : Fields} {u : Uses} (h : zeroElse f u = true) : f.mod.toNat ≤ u.mod := le_of_within ((zeroElse_iff f u).mp h).1

theorem imm_le_of_zeroElse {f : Fields} {u : Uses} (h : zeroElse f u = true) : f.imm.toNat ≤ u.imm := by
  obtain ⟨-, -, -, -, -, -, himm⟩ := (zeroElse_iff f u).mp h
  exact le_of_within himm

/-- A word that leaves bits of MOD zero may be held to a mask of MOD that has more bits. -/
theorem zeroElse_widenMod {f : Fields} {u : Uses} {m : Nat} (hsub : u.mod &&& m = u.mod) (h : zeroElse f u = true) :
    zeroElse f { u with mod := m } = true := by
  rw [zeroElse_iff] at h ⊢
  exact ⟨within_of_subset hsub h.1, h.2⟩

/-- A word that holds something in X or C, where its instruction uses neither, is not legal. -/
theorem zeroElse_false_of_x_or_c {f : Fields} {u : Uses} (hx : u.x = 0) (hc : u.c = false) (h : f.x ≠ 0 ∨ f.c ≠ 0) : zeroElse f u = false := by
  rw [Bool.eq_false_iff]
  intro hz
  obtain ⟨-, -, -, -, hfc, hfx, -⟩ := (zeroElse_iff f u).mp hz
  have hx0 : f.x.toNat = 0 := Nat.le_zero.mp (hx ▸ le_of_within hfx)
  rcases h with h | h
  · exact h (BitVec.eq_of_toNat_eq hx0)
  · exact h (hfc.resolve_left (by simp [hc]))

/-- A word whose unused fields are zero, whose formats are legal and whose scalar fields name scalar registers passes its check. -/
theorem fieldCheck_legal {f : Fields} {u : Uses} {l : List (BitVec 6)} {legal : Bool} (hz : zeroElse f u = true) (hs : scalarFields l = true)
    (hl : legal = true := by rfl) : fieldCheck f u l legal = none := (fieldCheck_eq_none f u l legal).mpr ⟨hz, hl, hs⟩

theorem fieldCheck_legal_nil {f : Fields} {u : Uses} {legal : Bool} (hz : zeroElse f u = true) (hl : legal = true := by rfl) :
    fieldCheck f u [] legal = none := fieldCheck_legal hz rfl hl

theorem fieldCheck_illegal {f : Fields} {u : Uses} (l : List (BitVec 6)) (legal : Bool) (hz : zeroElse f u = false) :
    fieldCheck f u l legal = some fIllegal := by
  simp [fieldCheck, hz]

theorem fieldCheck_range {f : Fields} {u : Uses} {l : List (BitVec 6)} (hz : zeroElse f u = true) {r : BitVec 6} (hr : r ∈ l) (h : 31 < r.toNat) :
    fieldCheck f u l = some fRange := by
  have hany : (l.any fun r => decide (31 < r.toNat)) = true := List.any_eq_true.mpr ⟨r, hr, decide_eq_true h⟩
  simp [fieldCheck, hz, hany]

theorem orFormat_of_ok {ck : Option Nat} {ok : Bool} (hck : ck = none) (hok : ok = true) : orFormat ck ok = none := by
  rw [hck, hok]; rfl

theorem orRange_of_ok {ck : Option Nat} {ok : Bool} (hck : ck = none) (hok : ok = true) : orRange ck ok = none := by
  rw [hck, hok]; rfl

/-- A word that one check passes goes to the next. -/
theorem elseCheck_of_none {ck next : Option Nat} (hck : ck = none) (hnext : next = none) :
    (match ck with | some e => some e | none => next) = none := by rw [hck]; exact hnext

/-- A number cut to its low bits keeps each of them. -/
theorem bitOf_mod_two_pow (v : Nat) {n i : Nat} (h : i < n) : bitOf (v % 2 ^ n) i = bitOf v i := by
  rw [bitOf_eq_testBit, bitOf_eq_testBit, Nat.testBit_mod_two_pow, decide_eq_true h, Bool.true_and]

/- ## The end of a step by a fault (R309) -/

@[simp] theorem State.stallCounted_time (s : State) (core : Nat) : (s.stallCounted core).time = s.time := by
  unfold State.stallCounted
  dsimp only
  split
  · split <;> rfl
  · rfl

@[simp] theorem State.stepOver_time (s : State) (core : Nat) : (s.stepOver core).time = s.time := by
  unfold State.stepOver
  dsimp only
  rw [State.setCore_time]
  split <;> exact s.stallCounted_time core

@[simp] theorem Core.setS_room (c : Core) (r : Nat) (v : Word) : (c.setS r v).room = c.room := by unfold Core.setS; split <;> rfl
@[simp] theorem Core.setS_index (c : Core) (r : Nat) (v : Word) : (c.setS r v).index = c.index := by unfold Core.setS; split <;> rfl

/-- A fault ends the step and the call of the core, and is raised (R309). -/
theorem State.faultStep_of_call {s : State} {core id code : Nat} (hcall : (s.core core).call = some id) :
    s.faultStep core code
      = let c := s.core core
        let c31 := c.setS 31 (BitVec.ofNat 64 c.pc)
        (((s.setCore core c31).stepOver core).endCall id ⟨3, core, s.time.course, 8, 2, code, c31.result⟩).raise
          { code := 0x8002, sev := 2, unit := 0x300 + c.room.getD 0,
            args := leBytes 4 id ++ leBytes 1 core ++ leBytes 2 code ++ leBytes 4 c.index } := by
  unfold State.faultStep
  dsimp only
  rw [hcall]
  simp [srcRoom]

end Sys2Proof.Machine

/- # The cores: scalar instructions, jumps and branches (R281, R289, R290) -/

namespace Sys2Proof.Machine

/- ## What the integer operations compute (R290) -/

theorem add_eq_ofNat (a b : Word) : a + b = BitVec.ofNat 64 (a.toNat + b.toNat) := by
  rw [BitVec.ofNat_add, BitVec.ofNat_toNat, BitVec.ofNat_toNat, BitVec.setWidth_eq, BitVec.setWidth_eq]

theorem sub_eq_ofInt (a b : Word) : a - b = BitVec.ofInt 64 (a.toInt - b.toInt) := by
  rw [Int.sub_eq_add_neg, BitVec.ofInt_add, BitVec.ofInt_neg, BitVec.ofInt_toInt, BitVec.ofInt_toInt, BitVec.sub_eq_add_neg]

theorem mul_eq_ofNat (a b : Word) : a * b = BitVec.ofNat 64 (a.toNat * b.toNat) := by
  rw [BitVec.ofNat_mul, BitVec.ofNat_toNat, BitVec.ofNat_toNat, BitVec.setWidth_eq, BitVec.setWidth_eq]

/-- The high half of a 128-bit word with the residue of an integer is that of the integer's own quotient. -/
theorem ofInt_high_half (z : Int) : (BitVec.ofInt 128 z).extractLsb' 64 64 = BitVec.ofInt 64 (z / 2 ^ 64) := by
  apply BitVec.eq_of_toNat_eq
  simp only [BitVec.extractLsb'_toNat, BitVec.toNat_ofInt, Nat.shiftRight_eq_div_pow]
  omega

theorem mulhS_eq (a b : Word) : mulhS a b = (a.signExtend 128 * b.signExtend 128).extractLsb' 64 64 := by
  have hprod : a.signExtend 128 * b.signExtend 128 = BitVec.ofInt 128 (a.toInt * b.toInt) := by
    rw [BitVec.ofInt_mul]; rfl
  rw [hprod, ofInt_high_half, mulhS]

theorem mulhU_eq (a b : Word) : mulhU a b = (a.setWidth 128 * b.setWidth 128).extractLsb' 64 64 := by
  have hfit : a.toNat * b.toNat < 2 ^ 128 := (Nat.mul_lt_mul'' a.isLt b.isLt).trans_eq (Nat.pow_add 2 64 64).symm
  apply BitVec.eq_of_toNat_eq
  have ha : (a.setWidth 128).toNat = a.toNat := BitVec.toNat_setWidth_of_le (by decide)
  have hb : (b.setWidth 128).toNat = b.toNat := BitVec.toNat_setWidth_of_le (by decide)
  rw [mulhU, BitVec.toNat_ofNat, BitVec.extractLsb'_toNat, BitVec.toNat_mul, ha, hb, Nat.mod_eq_of_lt hfit, Nat.shiftRight_eq_div_pow]

/-- Signed division overflows for the least word divided by -1 alone, and then gives the least word back. -/
theorem divS_eq (a b : Word) : divS a b
    = if b = 0 then BitVec.allOnes 64 else if a = BitVec.intMin 64 ∧ b = BitVec.allOnes 64 then BitVec.intMin 64
      else BitVec.ofInt 64 (a.toInt.tdiv b.toInt) := by
  unfold divS
  split
  · exact BitVec.neg_one_eq_allOnes
  split
  case isTrue hover =>
    obtain ⟨rfl, rfl⟩ := hover
    decide
  case isFalse hfits =>
    have hne : a ≠ BitVec.intMin 64 ∨ b ≠ -1#64 := not_and_or.mp hfits
    rw [← BitVec.toInt_sdiv_of_ne_or_ne a b hne, BitVec.ofInt_toInt]

theorem remS_eq (a b : Word) : remS a b
    = if b = 0 then a else if a = BitVec.intMin 64 ∧ b = BitVec.allOnes 64 then 0 else BitVec.ofInt 64 (a.toInt.tmod b.toInt) := by
  unfold remS
  split
  · rfl
  split
  case isTrue hover =>
    obtain ⟨rfl, rfl⟩ := hover
    decide
  case isFalse => rw [← BitVec.toInt_srem, BitVec.ofInt_toInt]

theorem divU_eq (a b : Word) : divU a b = if b = 0 then BitVec.allOnes 64 else BitVec.ofNat 64 (a.toNat / b.toNat) := by
  unfold divU
  split
  · exact BitVec.neg_one_eq_allOnes
  · rw [← BitVec.toNat_udiv, BitVec.ofNat_toNat, BitVec.setWidth_eq]

theorem remU_eq (a b : Word) : remU a b = if b = 0 then a else BitVec.ofNat 64 (a.toNat % b.toNat) := by
  unfold remU
  split
  · rfl
  · rw [← BitVec.toNat_umod, BitVec.ofNat_toNat, BitVec.setWidth_eq]

theorem shiftLeft_eq_ofNat (a : Word) (n : Nat) : a <<< n = BitVec.ofNat 64 (a.toNat * 2 ^ n) := by
  apply BitVec.eq_of_toNat_eq
  rw [BitVec.toNat_shiftLeft, BitVec.toNat_ofNat, Nat.shiftLeft_eq]

theorem ushiftRight_eq_ofNat (a : Word) (n : Nat) : a >>> n = BitVec.ofNat 64 (a.toNat / 2 ^ n) := by
  rw [← Nat.shiftRight_eq_div_pow, ← BitVec.toNat_ushiftRight, BitVec.ofNat_toNat, BitVec.setWidth_eq]

theorem sshiftRight_eq_ofInt (a : Word) (n : Nat) : a.sshiftRight n = BitVec.ofInt 64 (a.toInt / 2 ^ n) := by
  rw [← BitVec.ofInt_toInt (x := a.sshiftRight n), BitVec.toInt_sshiftRight, Int.shiftRight_eq_div_pow]; rfl

theorem flagWord_slt (a b : Word) : flagWord (a.slt b) = if a.toInt < b.toInt then 1 else 0 := by
  simp only [flagWord, BitVec.slt, decide_eq_true_eq]

theorem flagWord_ult (a b : Word) : flagWord (a.ult b) = if a.toNat < b.toNat then 1 else 0 := by
  simp only [flagWord, BitVec.ult, decide_eq_true_eq]

theorem signed_min_eq (a b : Word) : (if b.slt a then b else a) = if a.toInt ≤ b.toInt then a else b := by
  simp only [BitVec.slt, decide_eq_true_eq, ← Int.not_le, ite_not]

theorem signed_max_eq (a b : Word) : (if a.slt b then b else a) = if a.toInt ≤ b.toInt then b else a := by
  simp only [BitVec.slt, decide_eq_true_eq]
  rcases lt_trichotomy a.toInt b.toInt with hlt | heq | hgt
  · rw [if_pos hlt, if_pos hlt.le]
  · rw [BitVec.toInt_inj.mp heq, ite_self, ite_self]
  · rw [if_neg hgt.asymm, if_neg (not_le.mpr hgt)]

/-- A legal integer instruction writes its operation's result to s[D] alone. -/
theorem alu_of_runs {s : State} {core : Fin 32} {f : Fields} (h : s.runs core [] = true) (hw : scalarWord f = true) (op : Word → Word → Word) :
    s.alu core f op = .next (s.stepped core ((s.core core).setS f.d.toNat
      (op ((s.core core).sreg f.a.toNat) (if bitOf f.mod.toNat 0 then f.imm else (s.core core).sreg f.b.toNat)))) := by
  simp only [scalarWord, Bool.and_eq_true] at hw
  obtain ⟨hz, hs⟩ := hw
  rw [State.alu]
  exact issue_setS h (fieldCheck_legal hz hs) rfl

/-- Settles O1: each of them is the ALU at an operation, whose result is the integer that its rule names. -/
theorem scalarIntegerResults : Obligations.ScalarIntegerResults := by
  intro core f s hruns hword c a b gives ones least
  have result {i : Instr} {op : Word → Word → Word} {v : Word} (hi : exec i s = s.alu core f op) (hv : op a b = v) : exec i s = gives v := by
    rw [hi, alu_of_runs hruns hword op, ← hv]
  exact ⟨result (exec_add core f s) (add_eq_ofNat a b), result (exec_sub core f s) (sub_eq_ofInt a b),
    result (exec_mul core f s) (mul_eq_ofNat a b), result (exec_mulh core f s) (mulhS_eq a b), result (exec_mulhu core f s) (mulhU_eq a b),
    result (exec_div core f s) (divS_eq a b), result (exec_divu core f s) (divU_eq a b), result (exec_rem core f s) (remS_eq a b),
    result (exec_remu core f s) (remU_eq a b), result (exec_and core f s) rfl, result (exec_or core f s) rfl, result (exec_xor core f s) rfl,
    result (exec_shl core f s) (shiftLeft_eq_ofNat a _), result (exec_shr core f s) (ushiftRight_eq_ofNat a _),
    result (exec_sar core f s) (sshiftRight_eq_ofInt a _), result (exec_slt core f s) (flagWord_slt a b),
    result (exec_sltu core f s) (flagWord_ult a b), result (exec_min core f s) (signed_min_eq a b),
    result (exec_max core f s) (signed_max_eq a b)⟩

/- ## The other scalar instructions (R289, R292) -/

/-- A legal FP32 instruction writes its operation's result, rounded, to s[D] alone. -/
theorem fpu_of_runs {s : State} {core : Fin 32} {f : Fields} (h : s.runs core [] = true) (hz : zeroElse f { d := true, a := true, b := true } = true)
    (hs : scalarFields [f.d, f.a, f.b] = true) (op : Val → Val → Val) :
    s.fpu core f op = .next (s.stepped core ((s.core core).setS f.d.toNat (BitVec.ofNat 64 (fp32 (op
      (ofFp32 (((s.core core).sreg f.a.toNat).toNat % 2 ^ 32)) (ofFp32 (((s.core core).sreg f.b.toNat).toNat % 2 ^ 32))))))) := by
  rw [State.fpu]
  exact issue_setS h (fieldCheck_legal hz hs) rfl

/-- Settles O2: each word is legal and completes at once. -/
theorem scalarOtherResults : Obligations.ScalarOtherResults := by
  intro core f s hr c gives x y fpWord
  refine ⟨fun hz => ?nop, fun ⟨hz, hs⟩ => ?li, fun ⟨hz, hs⟩ => ⟨?stamp, ?cyc⟩, fun ⟨hz, hs⟩ => ⟨?add, ?mul, ?max⟩⟩
  case nop => rw [exec_nop, execNop]; exact issue_done hr (fieldCheck_legal_nil hz) rfl rfl rfl
  case li => rw [exec_li, execLi]; exact issue_setS hr (fieldCheck_legal hz hs) rfl
  case stamp => rw [exec_stamp, execStamp]; exact issue_setS hr (fieldCheck_legal hz hs) rfl
  case cyc => rw [exec_cyc, execCyc]; exact issue_setS hr (fieldCheck_legal hz hs) rfl
  case add => exact (exec_fadd core f s).trans (fpu_of_runs hr hz hs (addVal 0))
  case mul => exact (exec_fmul core f s).trans (fpu_of_runs hr hz hs mulVal)
  case max => exact (exec_fmax core f s).trans (fpu_of_runs hr hz hs maxVal)

/- ## Jumps and branches (R281, R289) -/

/-- A word of which only IMM [31:0] may be set jumps to its IMM. -/
theorem jumpTo_of_zeroElse {f : Fields} {u : Uses} (h : zeroElse f u = true) (hu : u.imm = 2 ^ 32 - 1) : jumpTo f = f.imm.toNat :=
  Nat.mod_eq_of_lt (by have := imm_le_of_zeroElse h; omega)

/-- BR goes to its target or to the next word, as its condition has it. -/
theorem execBr_of_issues {core : Fin 32} {f : Fields} {s : State} {cond : Nat} (hi : s.issues core = true)
    (hz : zeroElse f { mod := 0xF0, a := true, b := true, imm := 2 ^ 32 - 1 } = true) (hs : scalarFields [f.a, f.b] = true)
    (hdest : jumpTo f < (s.core core).words) (hnext : (s.core core).pc + 1 < (s.core core).words) (hcond : f.mod.toNat / 16 = cond) (hlegal : cond ≤ 5) :
    execBr core f s = if condHolds cond ((s.core core).sreg f.a.toNat) ((s.core core).sreg f.b.toNat)
      then .next (s.setCore core { s.core core with pc := jumpTo f }) else .next (s.setCore core { s.core core with pc := (s.core core).pc + 1 }) := by
  subst hcond
  rw [execBr, issue_of_issues _ hi (fieldCheck_legal hz hs (decide_eq_true hlegal))]
  split
  · rw [settle_jump hdest]
  · rw [settle_done hnext]

/-- Settles O3: a jump's target is in the program; BR by its condition, each a comparison of the two words. -/
theorem jumpsAndBranches : Obligations.JumpsAndBranches := by
  intro core f s hi c dest goes a b
  refine ⟨fun ⟨hz, hdest⟩ => ?j, fun ⟨hz, hs, hdest⟩ => ?jal, fun ⟨hz, hs, hdest, hlow⟩ => ?jr, fun ⟨hz, hs, hdest, hnext⟩ => ?br⟩
  case j => rw [exec_j, execJ, issue_of_issues _ hi (fieldCheck_legal_nil hz)]; exact congrArg _ (settle_jump hdest)
  case jal =>
    have hin : jumpTo f < (c.setS f.d.toNat (BitVec.ofNat 64 (c.pc + 1))).words := by rwa [Core.setS_words]
    rw [exec_jal, execJal, issue_of_issues _ hi (fieldCheck_legal hz hs)]; exact congrArg _ (settle_jump hin)
  case jr =>
    rw [exec_jr, execJr, issue_of_issues _ hi (fieldCheck_legal hz hs)]
    dsimp only
    rw [if_neg (Nat.not_le.mpr hlow), settle_jump hdest]
  case br =>
    have branch {cond : Nat} {p : Prop} [Decidable p] (hcond : f.mod.toNat / 16 = cond) (hlegal : cond ≤ 5) (hp : condHolds cond a b = true ↔ p) :
        exec (.br core f) s = if p then goes c dest else goes c (c.pc + 1) := by
      rw [exec_br, execBr_of_issues hi hz hs hdest hnext hcond hlegal]
      exact if_congr hp rfl rfl
    refine ⟨fun h => branch h (by decide) ?_, fun h => branch h (by decide) ?_, fun h => branch h (by decide) ?_,
      fun h => branch h (by decide) ?_, fun h => branch h (by decide) ?_, fun h => branch h (by decide) ?_⟩ <;>
    simp [condHolds, BitVec.slt, BitVec.ult]

end Sys2Proof.Machine

/- # The cores: streams and the end of a step (R262, R304, R305, R307) -/

namespace Sys2Proof.Machine

/- ## Streams that stand -/

theorem State.mayNotStop_status (s : State) (r : OpenReq) (t : Stream) : (s.mayNotStop r t).status = t.status := by
  unfold State.mayNotStop
  split <;> rfl

/-- A context that is not in RUN moves nothing. -/
theorem State.streamPiece_of_not_run {s : State} {core x : Nat} (h : ((s.core core).stream x).status ≠ ssRun) : s.streamPiece core x = (false, s) := by
  unfold State.streamPiece
  dsimp only
  split
  · rfl
  · rw [State.mayNotStop_status, if_pos h]

/-- A context that is not in RUN stands, whatever its goal. -/
theorem State.streamTo_of_not_run {s : State} {core x : Nat} (goal : Nat) (h : ((s.core core).stream x).status ≠ ssRun) : s.streamTo core x goal = s := by
  simp [State.streamTo, State.runStream, State.streamPiece_of_not_run h]

theorem State.streamTo_of_moved {s : State} {core x goal : Nat} (h : goal ≤ ((s.core core).stream x).moved) : s.streamTo core x goal = s := by
  simp [State.streamTo, State.runStream, h]

/-- A context whose goal has been reached, or that is not in RUN, stands. -/
theorem State.streamTo_of_stands {s : State} {core x goal : Nat}
    (h : ((s.core core).stream x).status ≠ ssRun ∨ goal ≤ ((s.core core).stream x).moved) : s.streamTo core x goal = s :=
  h.elim (State.streamTo_of_not_run goal) State.streamTo_of_moved

theorem State.streamOut_of_not_run {s : State} {core x : Nat} (h : ((s.core core).stream x).status ≠ ssRun) : s.streamOut core x = s :=
  State.streamTo_of_not_run _ h

theorem State.streamsOut_of_not_run {s : State} {core : Nat} {l : List Nat} (h : ∀ x ∈ l, ((s.core core).stream x).status ≠ ssRun) :
    s.streamsOut core l = s := by
  induction l with
  | nil => rfl
  | cons x l ih =>
    rw [State.streamsOut, State.streamOut_of_not_run (h x List.mem_cons_self)]
    exact ih fun y hy => h y (List.mem_cons_of_mem x hy)

/-- A context's stream is one of the core's list, or that of a context never configured. -/
theorem Core.stream_mem_or_init (c : Core) (x : Nat) : c.stream x ∈ c.st ∨ c.stream x = Stream.init := by
  unfold Core.stream
  rw [List.getD_eq_getElem?_getD]
  cases h : c.st[x]? with
  | none => exact .inr rfl
  | some t => exact .inl (List.mem_of_getElem? h)

theorem Core.not_runs {c : Core} {x : Nat} (h : (c.stream x).status ≠ ssRun) : ¬c.runs x = true := by simpa [Core.runs] using h

/- ## FENCE, STEPEND and faults (R307 to R309) -/

theorem State.tryEnd_of_no_ending {s : State} {core : Nat} (h : (s.core core).ending = none) : s.tryEnd core = s := by
  simp [State.tryEnd, h]

/-- STEPEND ends a step that has no running write stream and is to end. -/
theorem State.tryEnd_of_quiet {s : State} {core status stamp : Nat} (hending : (s.core core).ending = some (status, stamp))
    (hgone : s.coreGone core = false) (hquiet : ∀ t ∈ (s.core core).st, t.write = true → t.status ≠ ssRun) :
    s.tryEnd core = s.stepEnds core status stamp := by
  have hnone : ((s.core core).st.any fun t => t.write && decide (t.status = ssRun)) = false := by
    simpa using hquiet
  simp [State.tryEnd, hending, hgone, hnone]

/-- A core's read streams stopped, the write streams as they were (R307). -/
def stopReads (t : Stream) : Stream := if t.write then t else t.halt

/-- A core at its STEPEND, with the status and the stamp of the word (R307). -/
def Core.atStepend (c : Core) (status stamp : Nat) : Core := { c with st := c.st.map stopReads, ending := some (status, stamp) }

theorem Stream.halt_write (t : Stream) : t.halt.write = t.write := by
  unfold Stream.halt
  split <;> rfl

theorem stopReads_write (t : Stream) : (stopReads t).write = t.write := by
  unfold stopReads
  split
  · rfl
  · exact t.halt_write

theorem stopReads_of_write {t : Stream} (h : t.write = true) : stopReads t = t := if_pos h

/-- Stopping the read streams leaves no write stream in RUN where none was. -/
theorem write_quiet_map_stopReads {l : List Stream} (h : ∀ t ∈ l, t.write = true → t.status ≠ ssRun) :
    ∀ t ∈ l.map stopReads, t.write = true → t.status ≠ ssRun := by
  intro t ht hw
  obtain ⟨u, hu, rfl⟩ := List.mem_map.mp ht
  rw [stopReads_write] at hw
  rw [stopReads_of_write hw]
  exact h u hu hw

/-- FENCE goes on where the contexts it names stand: it moves none of them and waits for none. -/
theorem execFence_of_quiet {core : Fin 32} {f : Fields} {s : State} (hr : s.runs core [] = true)
    (hz : zeroElse f { mod := 0xF0, x := 0xFF } = true)
    (hq : ∀ x, x < 8 → f.x.getLsbD x = true → ((s.core core).stream x).status ≠ ssRun) :
    execFence core f s = .next (s.stepped core (s.core core)) := by
  have hctx : ∀ x ∈ (upTo 8).filter fun x => bitOf (f.x.toNat % 256) x, ((s.core core).stream x).status ≠ ssRun := by
    intro x hx
    obtain ⟨hlt, hbit⟩ := List.mem_filter.mp hx
    have hlt : x < 8 := List.mem_range.mp hlt
    have hbit : bitOf f.x.toNat x = true := (bitOf_mod_two_pow f.x.toNat hlt).symm.trans hbit
    rw [bitOf_eq_testBit] at hbit
    exact hq x hlt hbit
  have hstay : ((upTo 8).filter fun x => bitOf (f.x.toNat % 256) x).any (s.core core).runs = false := by
    rw [List.any_eq_false]
    intro x hx
    simp [Core.runs, hctx x hx]
  rw [execFence, State.streamsOut_of_not_run hctx, ite_self]
  refine issue_done hr (fieldCheck_legal_nil hz) ?_ rfl rfl
  rw [hstay]; rfl

/-- STEPEND without a running write stream stops the read streams, moves nothing and ends the step (R307). -/
theorem execStepend_of_quiet {core : Fin 32} {f : Fields} {s : State} {stamp : Nat} (hi : s.issues core = true) (hz : zeroElse f { mod := 3, a := true } = true)
    (hs : scalarFields [f.a] = true) (hstatus : f.mod.toNat ≠ 3) (hq : ∀ t ∈ (s.core core).st, t.write = true → t.status ≠ ssRun)
    (hstamp : ((s.core core).sreg f.a.toNat).toNat = stamp) :
    execStepend core f s = .next ((s.setCore core ((s.core core).atStepend f.mod.toNat stamp)).stepEnds core f.mod.toNat stamp) := by
  have hmod : f.mod.toNat % 4 = f.mod.toNat := Nat.mod_eq_of_lt (Nat.lt_succ_of_le (mod_le_of_zeroElse hz))
  have hgone : s.coreGone core = false := by
    simp only [State.issues, Bool.and_eq_true, Bool.not_eq_true'] at hi
    exact hi.2
  obtain ⟨c, hc⟩ : ∃ c, c = (s.core core).atStepend f.mod.toNat stamp := ⟨_, rfl⟩
  have hquiet : ∀ t ∈ c.st, t.write = true → t.status ≠ ssRun := hc ▸ write_quiet_map_stopReads hq
  have hstand : ∀ x ∈ (upTo 8).filter fun x => (c.stream x).write, (((s.setCore core c).core core).stream x).status ≠ ssRun := by
    intro x hx
    have hw : (c.stream x).write = true := (List.mem_filter.mp hx).2
    rw [State.core_setCore_self]
    rcases c.stream_mem_or_init x with hmem | hinit
    · exact hquiet _ hmem hw
    · rw [hinit] at hw; cases hw
  have hout : (s.setCore core c).streamsOut core ((upTo 8).filter fun x => (c.stream x).write) = s.setCore core c :=
    State.streamsOut_of_not_run hstand
  have hend : (s.setCore core c).tryEnd core = (s.setCore core c).stepEnds core f.mod.toNat stamp := by
    refine State.tryEnd_of_quiet ?_ hgone ?_ <;> rw [State.core_setCore_self]
    · rw [hc]; rfl
    · exact hquiet
  rw [execStepend, hmod]
  dsimp only
  rw [fieldCheck_legal hz hs (decide_eq_true hstatus), if_neg (by simp [hi]), hstamp]
  subst hc
  exact congrArg _ ((congrArg (State.tryEnd · core) hout).trans hend)

/-- Settles O4: FENCE and STEPEND find the contexts standing, and each fault is found by the check or the jump, and ends the step. -/
theorem stepsEnd : Obligations.StepsEnd := by
  refine ⟨fun core f s => ⟨fun ⟨hr, hz, hq⟩ => ?fence, fun ⟨hi, hz, hs, hstatus, hq⟩ => ?stepend⟩,
    fun core f s id hi hcall => ⟨fun h => ?illegal, fun ⟨hd, hz⟩ => ?range, fun ⟨hz, hdest⟩ => ?code⟩⟩
  case fence => rw [exec_fence, execFence_of_quiet hr hz hq]
  case stepend => rw [exec_stepend, execStepend_of_quiet hi hz hs hstatus hq rfl]; rfl
  case illegal =>
    rw [exec_add, execAdd, State.alu, issue_fault _ _ hi (fieldCheck_illegal _ _ (zeroElse_false_of_x_or_c rfl rfl h)), State.faultStep_of_call hcall]
    rfl
  case range =>
    have hmod : f.mod.toNat = 0 := Nat.le_zero.mp (mod_le_of_zeroElse hz)
    have hreg : bitOf f.mod.toNat 0 = false := by rw [hmod]; rfl
    have hck := fieldCheck_range (u := { mod := 1, d := true, a := true, b := true }) (l := [f.d, f.a, f.b]) (zeroElse_widenMod (m := 1) rfl hz)
      List.mem_cons_self hd
    rw [exec_add, execAdd, State.alu]
    simp only [hreg, Bool.not_false, Bool.false_eq_true, if_false]
    rw [issue_fault _ _ hi hck, State.faultStep_of_call hcall]
    rfl
  case code =>
    have hout : (s.core core).words ≤ jumpTo f := by rwa [jumpTo_of_zeroElse hz rfl]
    rw [exec_j, execJ, issue_of_issues _ hi (fieldCheck_legal_nil hz)]
    rw [settle_jump_outside hout, State.faultStep_of_call hcall]
    rfl

/- ## The stream instructions (R304, R305) -/

/-- The bits of IMM that hold a descriptor's offset, by its target (R304). -/
def offsetMask : Nat → Nat
  | 0 => 0
  | 1 => 63
  | _ => 0x1FFFFF

theorem offsetMask_eq (target : Nat) : offsetMask target = if target = 0 then 0 else if target = 1 then 63 else 0x1FFFFF := by
  rcases target with _ | _ | _ <;> simp [offsetMask]

/-- Settles O13: each instruction passes its checks, and SWAIT moves nothing more; an event finds its context running. -/
theorem streamsRunAndEnd : Obligations.StreamsRunAndEnd := by
  refine ⟨fun core f s hr => ?instructions, fun core ctx s hrunning hrun hgone => ?events⟩
  case instructions =>
    intro c x t gives target st new used
    refine ⟨fun ⟨hz, hs, htarget, hstand, hvalid⟩ => ?scfg, fun ⟨hz, hconf⟩ => ?sgo,
      fun ⟨hz, hs, hdone⟩ => ?swait, fun ⟨hz, hs⟩ => ⟨fun himm => ?word, fun himm => ?moved, fun himm => ?ready⟩, fun hz => ?sstop⟩
    case scfg =>
      have hused : used = 0xE000000000000000 + offsetMask target := by rw [offsetMask_eq]
      rw [hused] at hz
      have hvalid : ¬(!new.valid) = true := by simp [hvalid]
      rw [exec_scfg, execScfg]
      exact issue_done hr (fieldCheck_legal hz hs (decide_eq_true htarget)) ((if_neg (Core.not_runs hstand)).trans (if_neg hvalid)) rfl rfl
    case sgo =>
      have hconf : ¬(!t.configured) = true := by simp [hconf]
      have hck := fieldCheck_legal_nil hz
      refine ⟨fun hstatus => ?start, fun hstatus => ?resume⟩
      case start =>
        have hstand : t.status ≠ ssRun := by rcases hstatus with h | h | h | h <;> rw [h] <;> decide
        have hfresh : ¬(t.status = ssAbsent ∨ t.status = ssHeld) := by rcases hstatus with h | h | h | h <;> rw [h] <;> decide
        rw [exec_sgo, execSgo]
        exact issue_done hr hck ((if_neg hconf).trans ((if_neg (Core.not_runs hstand)).trans (if_neg hfresh))) rfl rfl
      case resume =>
        have hstand : t.status ≠ ssRun := by rcases hstatus with h | h <;> rw [h] <;> decide
        rw [exec_sgo, execSgo]
        exact issue_done hr hck ((if_neg hconf).trans ((if_neg (Core.not_runs hstand)).trans (if_pos hstatus))) rfl rfl
    case swait =>
      have hpassed : ¬(t.status = ssRun ∧ t.moved < (c.sreg f.a.toNat).toNat) := by
        rintro ⟨hrun, hlt⟩
        exact hdone.elim (absurd hrun) (Nat.not_le.mpr hlt)
      rw [exec_swait, execSwait]
      dsimp only
      rw [State.streamTo_of_stands hdone, ite_self]
      exact issue_setS hr (fieldCheck_legal hz hs) (if_neg hpassed)
    case word =>
      have hwhat : f.imm.toNat = 0 := congrArg BitVec.toNat himm
      rw [exec_sstat, execSstat, hwhat]
      exact issue_setS hr (fieldCheck_legal hz hs) rfl
    case moved =>
      have hwhat : f.imm.toNat = 1 := congrArg BitVec.toNat himm
      rw [exec_sstat, execSstat, hwhat]
      exact issue_setS hr (fieldCheck_legal hz hs) rfl
    case ready =>
      have hwhat : f.imm.toNat = 2 := congrArg BitVec.toNat himm
      rw [exec_sstat, execSstat, hwhat]
      exact issue_setS hr (fieldCheck_legal hz hs) rfl
    case sstop =>
      rw [exec_sstop, execSstop]
      exact issue_done hr (fieldCheck_legal_nil hz) rfl rfl rfl
  case events =>
    have hmoves : ¬((!(s.core core).running) = true ∨ (!(s.core core).runs ctx) = true ∨ s.coreGone core = true) := by
      simp [hrunning, Core.runs, hrun, hgone]
    refine ⟨fun hend => ?reached, fun hstop => ?stopped, State.tryEnd_of_no_ending⟩
    case reached =>
      rw [exec_streamEnd, execStreamEnd]
      exact (if_neg hmoves).trans (congrArg _ (if_pos hend))
    case stopped =>
      rw [exec_streamStop, execStreamStop]
      exact (if_neg hmoves).trans (congrArg _ (if_pos hstop))

end Sys2Proof.Machine

/- # The cores: the tile store, wide registers and tiles (R291 to R303) -/

namespace Sys2Proof.Machine

/- ## Loads, stores and moves (R291) -/

/-- The bits of a value with bytes put in: those put in, and around them the old ones. -/
theorem testBit_putBits (old a n new i : Nat) :
    (putBits old a n new).testBit i = if 8 * a ≤ i ∧ i < 8 * (a + n) then new.testBit (i - 8 * a) else old.testBit i := by
  have hlow : old % 2 ^ (8 * a) < 2 ^ (8 * a) := Nat.mod_lt _ (Nat.two_pow_pos _)
  have hmid : 2 ^ (8 * a) * (new % 2 ^ (8 * n)) + old % 2 ^ (8 * a) < 2 ^ (8 * (a + n)) := by
    rw [Nat.mul_add 8, Nat.pow_add]
    calc 2 ^ (8 * a) * (new % 2 ^ (8 * n)) + old % 2 ^ (8 * a)
      _ < 2 ^ (8 * a) * (new % 2 ^ (8 * n)) + 2 ^ (8 * a) := Nat.add_lt_add_left hlow _
      _ = 2 ^ (8 * a) * (new % 2 ^ (8 * n) + 1) := by rw [Nat.mul_add, Nat.mul_one]
      _ ≤ 2 ^ (8 * a) * 2 ^ (8 * n) := Nat.mul_le_mul_left _ (Nat.mod_lt _ (Nat.two_pow_pos _))
  have hsplit : putBits old a n new
      = 2 ^ (8 * (a + n)) * (old / 2 ^ (8 * (a + n))) + (2 ^ (8 * a) * (new % 2 ^ (8 * n)) + old % 2 ^ (8 * a)) := by
    unfold putBits; ring
  rw [hsplit, Nat.testBit_two_pow_mul_add _ hmid, Nat.testBit_two_pow_mul_add _ hlow, Nat.testBit_mod_two_pow, Nat.testBit_mod_two_pow,
    Nat.testBit_div_two_pow]
  by_cases hbelow : i < 8 * a
  · have hin : i < 8 * (a + n) := by omega
    simp [hbelow, hin]
  by_cases hin : i < 8 * (a + n)
  · have hoff : i - 8 * a < 8 * n := by omega
    simp [hbelow, hin, hoff]
  · simp [hin, Nat.sub_add_cancel (Nat.le_of_not_lt hin)]

theorem tileOk_of_fits {a n align : Nat} (hin : a + n ≤ 2097152) (hal : a % align = 0) : tileOk a n align = true := by
  simp [tileOk, tileBytes, hin, hal]

theorem tileOk_passes {a n align : Nat} (hin : a + n ≤ 2097152) (hal : a % align = 0) : ¬(!tileOk a n align) = true := by
  simp [tileOk_of_fits hin hal]

/-- Settles O6: the address is in the store and aligned, and the lane that WINS puts in is read bit by bit. -/
theorem tileStoreAndMoves : Obligations.TileStoreAndMoves := by
  intro core f s c at_ gives
  refine ⟨fun ⟨hr, hin, hal⟩ => ⟨fun ⟨hz, hs⟩ => ?lds, fun ⟨hz, hs⟩ => ?sts⟩, fun ⟨hr, hin, hal, hz, hs⟩ => ?ldw, fun ⟨hr, hin, hal, hz, hs⟩ => ?stw,
    fun ⟨hr, hz⟩ => ?mvw,
    fun ⟨hr, hz, hs⟩ => ⟨BitVec.ofNat 4096 (putBits (c.wide f.d.toNat).toNat (8 * f.imm.toNat) 8 (c.sreg f.b.toNat).toNat), ?wins, ?lane⟩,
    fun ⟨hr, hz, hs⟩ => ?wext⟩
  case lds =>
    rw [exec_lds, execLds]
    exact issue_setS hr (fieldCheck_legal hz hs) (if_pos (tileOk_of_fits hin hal))
  case sts =>
    rw [exec_sts, execSts]
    exact issue_done hr (fieldCheck_legal hz hs) (if_pos (tileOk_of_fits hin hal)) rfl rfl
  case ldw =>
    rw [exec_ldw, execLdw]
    exact issue_done hr (fieldCheck_legal hz hs) (if_pos (tileOk_of_fits hin hal)) rfl rfl
  case stw =>
    rw [exec_stw, execStw]
    exact issue_done hr (fieldCheck_legal hz hs) (if_pos (tileOk_of_fits hin hal)) rfl rfl
  case mvw =>
    rw [exec_mvw, execMvw]
    exact issue_done hr (fieldCheck_legal_nil hz) rfl rfl rfl
  case wins =>
    rw [exec_wins, execWins]
    exact issue_done hr (fieldCheck_legal hz hs) rfl rfl rfl
  case lane =>
    intro i hi
    have himm : f.imm.toNat ≤ 63 := imm_le_of_zeroElse hz
    rw [BitVec.getLsbD_ofNat, testBit_putBits, decide_eq_true hi, Bool.true_and]
    by_cases hlane : i / 64 = f.imm.toNat
    · have hoff : i - 64 * f.imm.toNat = i % 64 := by omega
      have hin : 8 * (8 * f.imm.toNat) ≤ i ∧ i < 8 * (8 * f.imm.toNat + 8) := by omega
      rw [if_pos hin, if_pos hlane, ← Nat.mul_assoc, hoff]; rfl
    · have hout : ¬(8 * (8 * f.imm.toNat) ≤ i ∧ i < 8 * (8 * f.imm.toNat + 8)) := by omega
      rw [if_neg hout, if_neg hlane]; rfl
  case wext =>
    have hlane (w : Wide) : BitVec.ofNat 64 (w.toNat / 2 ^ (64 * f.imm.toNat)) = w.extractLsb' (64 * f.imm.toNat) 64 := by
      rw [← Nat.shiftRight_eq_div_pow]; rfl
    rw [exec_wext, execWext]
    refine issue_setS hr (fieldCheck_legal hz hs) ?_
    rw [hlane]

/- ## A store that faults (R190, R309) -/

/-- The end of a step whose engines took bricks through the expander lanes counts the room's EXPAND_STALL (R190). -/
theorem State.stallCounted_rooms {s : State} {core : Nat} {cl : Call} (hcall : (s.core core).call.bind s.call = some cl)
    (hexp : (s.core core).expanded = true) :
    (s.stallCounted core).rooms = Tbl.put s.rooms cl.room
      { s.room cl.room with stall := (s.room cl.room).stall + Config.expandStall s.free % 9601 } := by
  unfold State.stallCounted
  dsimp only
  rw [hcall]
  simp only [hexp, Bool.not_true, Bool.false_eq_true, if_false]
  rfl

/-- What is left of a step's end leaves the rooms as they are. -/
theorem State.stepOver_rooms (s : State) (core : Nat) : (s.stepOver core).rooms = (s.stallCounted core).rooms := by
  unfold State.stepOver
  dsimp only
  rw [State.setCore_rooms]
  split <;> rfl

theorem State.faultStep_rooms {s : State} {core id code : Nat} (hcall : (s.core core).call = some id) :
    (s.faultStep core code).rooms
      = ((s.setCore core ((s.core core).setS 31 (BitVec.ofNat 64 (s.core core).pc))).stallCounted core).rooms := by
  rw [State.faultStep_of_call hcall, ← State.stepOver_rooms]
  exact State.raise_rooms _ _

/-- A call of room 0 whose step runs on core 0. -/
def stalledCall : Call := ⟨7, 0, 0, 0, 0, 1, 1, [], 0, none, .ready, 1, 0, false, false, 0, [0, 0, 0, 0], [], none, none⟩

/-- A step of the call whose engine feed has come through an expander lane. -/
def expandedStep : State :=
  (State.reset.setCalls [stalledCall]).setCore 0 { Core.init with running := true, call := some 7, room := some 0, words := 64, expanded := true }

/-- Refutes O8: STS faults on a word that is not legal, the fault ends the step, and the end of a step whose engine feed came through an expander lane
counts EXPAND_STALL of the call's room (R190, R309), so that the table of rooms, empty before, lists that room. -/
theorem not_tileStoreStoresFrame : ¬ Obligations.TileStoreStoresFrame := by
  intro hframe
  have hruns : expandedStep.runs 0 [] = true := by decide
  obtain ⟨hsts, -⟩ := hframe 0 { x := 1 } expandedStep (expandedStep.faultStep 0 fIllegal) rfl hruns
  have hfault : exec (.sts 0 { x := 1 }) expandedStep = .next (expandedStep.faultStep 0 fIllegal) := by
    rw [exec_sts, execSts]
    exact issue_fault _ _ (State.issues_of_runs hruns) rfl
  obtain ⟨-, -, -, hrooms, -⟩ := hsts hfault
  have hlisted : (expandedStep.faultStep 0 fIllegal).rooms ≠ [] := by
    rw [State.faultStep_rooms (id := 7) rfl, State.stallCounted_rooms (cl := stalledCall) rfl rfl]
    exact List.cons_ne_nil _ _
  exact hlisted hrooms

/- ## Elementwise instructions, conversions and reductions (R291 to R293, R299, R300) -/

/-- A legal elementwise instruction writes its operation's results, rounded once, to the elements of w[D] alone. -/
theorem elementwise_of_runs {s : State} {core : Fin 32} {f : Fields} (hr : s.runs core [f.d.toNat, f.a.toNat, f.b.toNat] = true)
    (hz : zeroElse f { mod := 0xFE, d := true, a := true, b := true } = true) (hty : (!isMx (Fields.etype f)) = true) (op : Val → Val → Val → Val) :
    s.elementwise core f op
      = let c := s.core core
        let ty := Fields.etype f
        let elem := fun (r : BitVec 6) (i : Nat) => valOf ty (element ty (c.wide r.toNat).toNat i)
        .next (s.stepped core (c.setWide f.d.toNat (BitVec.ofNat 4096 (putElems (c.wide f.d.toNat).toNat (widthOf ty)
          ((upTo (countOf ty)).map fun i => encodeVal ty (Fields.rm f) (Fields.sat f) (op (elem f.a i) (elem f.b i) (elem f.d i))))))) := by
  rw [State.elementwise]
  exact issue_done hr (orFormat_of_ok (fieldCheck_legal_nil hz) hty) rfl rfl rfl

/-- Settles O9: the six lane-by-lane instructions are one at six operations; VBCAST puts one value in every lane. -/
theorem elementwiseResults : Obligations.ElementwiseResults := by
  intro core f s c ty rm sat elem writes each
  refine ⟨fun ⟨hr, hz, hty⟩ => ?lanes, fun ⟨hr, hz, hs, hty⟩ => ?bcast⟩
  case lanes =>
    have result {i : Instr} {op : Val → Val → Val → Val} (hi : exec i s = s.elementwise core f op) :
        exec i s = each fun i => op (elem f.a i) (elem f.b i) (elem f.d i) := by
      rw [hi, elementwise_of_runs hr hz hty]
    exact ⟨(result (exec_vadd core f s) :), (result (exec_vsub core f s) :), (result (exec_vmul core f s) :), (result (exec_vfma core f s) :),
      (result (exec_vmax core f s) :), (result (exec_vmin core f s) :)⟩
  case bcast =>
    rw [exec_vbcast, execVbcast]
    exact issue_done hr (orFormat_of_ok (fieldCheck_legal hz hs) hty) rfl rfl rfl

/-- Settles O10: each word passes its field, format and range checks; VRSUM draws one free value for its order. -/
theorem conversionsAndReductions : Obligations.ConversionsAndReductions := by
  intro core f s c ty rm sat fmt lo hi va elems put
  refine ⟨fun ⟨hr, hz, hty, hfmt, hfrom, hto, hsrc, hdst⟩ => ?vcvt, fun ⟨hr, hz, hs, hty⟩ => ?vrsum, fun ⟨hr, hz, hs, hty, hfloat⟩ => ?vrmax,
    fun ⟨hr, hz, hty, hfmt, helems, hscales⟩ => ?vqmx, fun ⟨hr, hz, hs, hfmt, helems, hscales, hin⟩ => ?mxsplit⟩
  case vcvt =>
    have hck := orFormat_of_ok (fieldCheck_legal_nil hz) (Bool.and_eq_true_iff.mpr ⟨hty, hfmt⟩)
    have hfits : (cvtPlace ty lo && cvtPlace fmt hi && decide (8 * lo + cvtCount ty fmt * widthOf ty ≤ 4096)
        && decide (8 * hi + cvtCount ty fmt * widthOf fmt ≤ 4096)) = true := by
      simp only [hfrom, hto, hsrc, hdst, Bool.and_self, decide_true]
    rw [exec_vcvt, execVcvt]
    exact issue_done hr (orRange_of_ok hck hfits) rfl rfl rfl
  case vrsum =>
    have hck := orFormat_of_ok (fieldCheck_legal hz hs) hty
    rw [exec_vrsum, execVrsum]
    dsimp only
    rw [draw_of_runs hr hck]
    exact issue_setS (s := s.setFree (s.free + 1)) hr hck rfl
  case vrmax =>
    have hint : isInt ty = false := by simpa using hfloat
    have hvals : (upTo (countOf ty)).map (fun i => valOf ty (element ty va i)) = elems.map (valOf ty) := by
      rw [List.map_map]; rfl
    rw [exec_vrmax, execVrmax]
    refine issue_setS hr (orFormat_of_ok (fieldCheck_legal hz hs) hty) ?_
    rw [← hvals]
    exact congrArg (fun r => Did.done (c.setS f.d.toNat (BitVec.ofNat 64 r))) (if_neg (Bool.eq_false_iff.mp hint))
  case vqmx =>
    have hck := orFormat_of_ok (fieldCheck_legal_nil hz) (ok := (decide (ty = 0) || decide (ty = 2)) && isMx fmt) (by simp [hty, hfmt])
    rw [exec_vqmx, execVqmx]
    exact issue_done hr (orRange_of_ok hck (Bool.and_eq_true_iff.mpr ⟨decide_eq_true helems, decide_eq_true hscales⟩)) rfl rfl rfl
  case mxsplit =>
    have hck := orFormat_of_ok (fieldCheck_legal hz hs) (ok := decide (fmt = 8) || decide (fmt = 12)) (by simp [hfmt])
    rw [exec_mxsplit, execMxsplit]
    refine issue_done hr (orRange_of_ok hck (Bool.and_eq_true_iff.mpr ⟨decide_eq_true helems, decide_eq_true hscales⟩)) ?_ rfl rfl
    exact if_neg (tileOk_passes hin (Nat.mod_one _))

/- ## The matrix product and tiles (R294 to R297) -/

/-- Settles O11: an MMA of two wide registers takes its operands at once; the tile instructions pass their checks. -/
theorem matrixAndTiles : Obligations.MatrixAndTiles := by
  intro core f s c t tile gives fa fb mx at_
  refine ⟨fun ⟨hr, hsrc, hz, hfa, hfb, hint⟩ => ?mma, fun ⟨hr, hz, hd⟩ => ?mvaw, fun ⟨hr, hz, ha⟩ => ?mvwa,
    fun ⟨hr, hz, hs, hin, hal⟩ => ⟨?mvat, ?mvta⟩, fun ⟨hr, hz⟩ => ?tclr, fun ⟨hr, hz, hs⟩ => ?tstat⟩
  case mma =>
    have hreg {i : Nat} (hi : i < 2) : bitOf f.mod.toNat i = false := by
      rw [← bitOf_mod_two_pow f.mod.toNat hi, show f.mod.toNat % 2 ^ 2 = 0 from hsrc, bitOf_eq_testBit, Nat.zero_testBit]
    have hck := orFormat_of_ok (fieldCheck_legal_nil (zeroElse_widenMod (m := 0xFF) (show 0xFC &&& 0xFF = 0xFC by decide) hz))
      (ok := decide (fa ≠ 15) && decide (fb ≠ 15) && decide (isInt fa = isInt fb)) (by simp [hfa, hfb, hint])
    rw [exec_mma, execMma, hreg Nat.one_lt_two, hreg Nat.two_pos]
    simp only [srcOf, Bool.false_eq_true, if_false, State.fillFeed, ite_self, Core.owes, Bool.or_self]
    exact issue_done hr (elseCheck_of_none hck rfl) rfl rfl rfl
  case mvaw =>
    rw [exec_mvaw, execMvaw]
    exact issue_done hr (orRange_of_ok (fieldCheck_legal_nil hz) (decide_eq_true hd)) rfl (foldl_keeps Core.words (by intros; rfl) _ _)
      (foldl_keeps Core.pc (by intros; rfl) _ _)
  case mvwa =>
    rw [exec_mvwa, execMvwa]
    exact issue_done hr (orRange_of_ok (fieldCheck_legal_nil hz) (decide_eq_true ha)) rfl rfl rfl
  case mvat =>
    rw [exec_mvat, execMvat]
    exact issue_done hr (fieldCheck_legal hz hs) (if_pos (tileOk_of_fits hin hal)) rfl rfl
  case mvta =>
    rw [exec_mvta, execMvta]
    exact issue_done hr (fieldCheck_legal hz hs) (if_pos (tileOk_of_fits hin hal)) rfl rfl
  case tclr =>
    rw [exec_tclr, execTclr]
    exact issue_done hr (fieldCheck_legal_nil hz) rfl rfl rfl
  case tstat =>
    rw [exec_tstat, execTstat]
    exact issue_setS hr (fieldCheck_legal hz hs) rfl

/- ## Softmax, 2^x and top-k (R301 to R303) -/

theorem tileOf_lt (f : Fields) : tileOf f < 16 := Nat.div_lt_of_lt_mul f.mod.isLt

/-- A legal EXP2 draws one free value and writes 2^x of each element. -/
theorem execExp2_of_runs {core : Fin 32} {f : Fields} {s : State} (hr : s.runs core [f.d.toNat, f.a.toNat] = true)
    (hz : zeroElse f { mod := 0xC0, d := true, a := true, x := 0xF00000 } = true) (hfmt : Fields.fmt f = 0 ∨ Fields.fmt f = 2) :
    execExp2 core f s =
      let c := s.core core
      let ty := Fields.fmt f
      let x := fun i => valOf ty (element ty (c.wide f.a.toNat).toNat i)
      .next ((s.setFree (s.free + 1)).stepped core (c.setWide f.d.toNat (BitVec.ofNat 4096 (packElems (widthOf ty)
        ((upTo (countOf ty)).map fun i => if ty = 0 then exp2Fp32 (Config.exp2Pick s.free i) (x i) else encodeVal 2 0 false (exp2Val (x i))))))) := by
  have hck := orFormat_of_ok (fieldCheck_legal_nil hz) (ok := decide (Fields.fmt f = 0) || decide (Fields.fmt f = 2)) (by simp [hfmt])
  rw [execExp2]
  dsimp only
  rw [draw_of_runs hr hck]
  exact issue_done (s := s.setFree (s.free + 1)) hr hck rfl rfl rfl

/-- An offer of NaN is skipped (R303). -/
theorem topOffer_of_nan (k : Nat) (l : List (Nat × Nat)) {x : Nat × Nat} (h : ofFp32 x.1 = .nan) : topOffer k l x = l := if_pos h

theorem length_topOffer_le {k : Nat} {l : List (Nat × Nat)} (x : Nat × Nat) (h : l.length ≤ k) : (topOffer k l x).length ≤ k := by
  unfold topOffer
  split
  · exact h
  · exact List.length_take_le _ _

theorem mem_or_eq_of_mem_topOffer {k : Nat} {l : List (Nat × Nat)} {x e : Nat × Nat} (h : e ∈ topOffer k l x) : e ∈ l ∨ e = x := by
  unfold topOffer at h
  split at h
  · exact .inl h
  · rcases List.mem_append.mp (List.mem_of_mem_take h) with h | h
    · exact .inl (List.takeWhile_subset _ h)
    · rcases List.mem_cons.mp h with h | h
      · exact .inr h
      · exact .inl (List.dropWhile_subset _ h)

/-- Settles O12: each word passes its checks, EXP2 and SMX draw one free value; an offer to a record keeps or cuts it. -/
theorem softmaxAndTopkResults : Obligations.SoftmaxAndTopkResults := by
  refine ⟨?_, fun k l x hl => ⟨length_topOffer_le x hl, topOffer_of_nan k l, fun _ => mem_or_eq_of_mem_topOffer⟩⟩
  intro core f s c fmt at_ trec k rk rn
  refine ⟨fun ⟨hr, hz⟩ => ⟨fun hfmt => ?exp2Bf16, fun hfmt => ?exp2Fp32⟩, ?smx, fun ⟨hr, hz, hs, hal, hpos, hle, hin⟩ => ?tkinit,
    fun ⟨hr, hz, hs, hfmt, hal, hpos, hle, hcount, hin⟩ => ?topk⟩
  case exp2Bf16 =>
    have hfmt : Fields.fmt f = 2 := hfmt
    rw [exec_exp2, execExp2_of_runs hr hz (.inr hfmt), hfmt]
    rfl
  case exp2Fp32 =>
    have hfmt : Fields.fmt f = 0 := hfmt
    rw [exec_exp2, execExp2_of_runs hr hz (.inl hfmt), hfmt]
    rfl
  case smx =>
    intro regs ncol ⟨hr, hz, hfmt, hmask, hpos, hle, hregs⟩ ml rows mlNew scores pNew scaled
    have hclear : bitOf (f.imm.toNat % 65536) (tileOf f) = false := (bitOf_mod_two_pow f.imm.toNat (n := 16) (tileOf_lt f)).trans hmask
    have hck := orRange_of_ok (orFormat_of_ok (fieldCheck_legal_nil hz) (ok := decide (fmt = 3) || decide (fmt = 2)) (by simp [hfmt]))
      (ok := !bitOf (f.imm.toNat % 65536) (tileOf f) && decide (1 ≤ ncol) && decide (ncol ≤ 32) && decide (f.d.toNat + regs ≤ 64))
      (by simp [hclear, hpos, hle, hregs])
    rw [exec_smx, execSmx]
    dsimp only
    rw [draw_of_runs hr hck]
    exact issue_done (s := s.setFree (s.free + 1)) hr hck rfl
      ((foldl_keeps Core.words (by intros; rfl) _ _).trans (foldl_keeps Core.words (by intros; rfl) _ _))
      ((foldl_keeps Core.pc (by intros; rfl) _ _).trans (foldl_keeps Core.pc (by intros; rfl) _ _))
  case tkinit =>
    have hrecord : ¬(!tileOk at_ 64 64) = true := tileOk_passes (by omega) hal
    have hk : ¬(k = 0 ∨ 256 < k) := by omega
    have hall : ¬(!tileOk at_ (64 + 8 * k) 64) = true := tileOk_passes (by omega) hal
    rw [exec_tkinit, execTkinit]
    exact issue_done hr (fieldCheck_legal hz hs) ((if_neg hrecord).trans ((if_neg hk).trans (if_neg hall))) rfl rfl
  case topk =>
    have hck := orFormat_of_ok (fieldCheck_legal hz hs) (ok := decide (fmt = 0) || decide (fmt = 2)) (by simp [hfmt])
    have hrecord : ¬(!tileOk trec 64 64) = true := tileOk_passes (by omega) hal
    have hk : ¬(rk = 0 ∨ 256 < rk ∨ rk < rn) := by omega
    have hall : ¬(!tileOk trec (64 + 8 * rk) 64) = true := tileOk_passes (by omega) hal
    rw [exec_topk, execTopk]
    exact issue_done hr hck ((if_neg hrecord).trans ((if_neg hk).trans (if_neg hall))) rfl rfl

end Sys2Proof.Machine

/- # The object dictionary's frames -/

namespace Sys2Proof.Machine

/- ## A frame laid out and read back (R444) -/

theorem reflStep_lt {poly c : Nat} (n : Nat) (hp : poly < 2 ^ 32) (hc : c < 2 ^ 32) : reflStep poly n c < 2 ^ 32 := by
  induction n generalizing c with
  | zero => exact hc
  | succ n ih =>
    have hhalf : c / 2 < 2 ^ 32 := by omega
    rw [reflStep]
    split
    · exact ih (Nat.xor_lt_two_pow hhalf hp)
    · exact ih hhalf

theorem reflCrc_lt {poly c : Nat} (bs : List Byte) (hp : poly < 2 ^ 32) (hc : c < 2 ^ 32) : reflCrc poly c bs < 2 ^ 32 := by
  induction bs generalizing c with
  | nil => exact hc
  | cons b bs ih => exact ih (reflStep_lt 8 hp (Nat.xor_lt_two_pow hc (Nat.lt_trans b.isLt (by decide))))

theorem crc32c_lt (bs : List Byte) : crc32c bs < 256 ^ 4 :=
  Nat.xor_lt_two_pow (n := 32) (reflCrc_lt bs (by decide) (by decide)) (by decide)

/-- The eight bytes before a frame's payload (R444). -/
def frameHead (op idx sub len seq : Nat) : List Byte := leBytes 1 op ++ leBytes 2 idx ++ leBytes 1 sub ++ leBytes 2 len ++ leBytes 2 seq

section
variable (op idx sub len seq : Nat) (rest : List Byte)

@[simp] theorem frameHead_length : (frameHead op idx sub len seq).length = 8 := by simp [frameHead]

@[simp] theorem frameHead_op : (frameHead op idx sub len seq ++ rest).take 1 = leBytes 1 op := rfl

@[simp] theorem frameHead_index : ((frameHead op idx sub len seq ++ rest).drop 1).take 2 = leBytes 2 idx := rfl

@[simp] theorem frameHead_sub : ((frameHead op idx sub len seq ++ rest).drop 3).take 1 = leBytes 1 sub := rfl

@[simp] theorem frameHead_len : ((frameHead op idx sub len seq ++ rest).drop 4).take 2 = leBytes 2 len := rfl

@[simp] theorem frameHead_seq : ((frameHead op idx sub len seq ++ rest).drop 6).take 2 = leBytes 2 seq := rfl

@[simp] theorem frameHead_payload : (frameHead op idx sub len seq ++ rest).drop 8 = rest := rfl

end

theorem odFrame_eq (op idx sub seq : Nat) (payload : List Byte) :
    odFrame op idx sub seq payload = frameHead op idx sub payload.length seq ++ (payload ++ leBytes 4 (crc32c (frameHead op idx sub payload.length seq ++ payload))) := by
  simp [odFrame, frameHead]

theorem odFrame_length (op idx sub seq : Nat) (payload : List Byte) : (odFrame op idx sub seq payload).length = 12 + payload.length := by
  simp only [odFrame_eq, List.length_append, frameHead_length, leBytes_length]
  omega

/-- A frame that more bytes follow is read as it was laid out where the transport pads what it delivers; elsewhere they discard it. -/
theorem frameOf_odFrame_append {op idx sub seq : Nat} {payload : List Byte} (padded : Bool) (more : List Byte) (hlo : 1 ≤ op) (hhi : op ≤ 6)
    (hidx : idx < 2 ^ 16) (hsub : sub < 2 ^ 8) (hseq : seq < 2 ^ 16) (hlen : payload.length ≤ 256) :
    frameOf padded (odFrame op idx sub seq payload ++ more)
      = if padded = false ∧ more ≠ [] then none else some ⟨op, idx, sub, seq, payload⟩ := by
  have hop : op < 256 ^ 1 := by omega
  have hlen2 : payload.length < 256 ^ 2 := by omega
  have hsplit : odFrame op idx sub seq payload ++ more = frameHead op idx sub payload.length seq
      ++ (payload ++ (leBytes 4 (crc32c (frameHead op idx sub payload.length seq ++ payload)) ++ more)) := by simp [odFrame_eq]
  have hcover : (odFrame op idx sub seq payload ++ more).length = 12 + payload.length + more.length := by
    rw [List.length_append, odFrame_length]
  have hwhole : (12 + payload.length + more.length < 12 ∨ 256 < payload.length ∨ 12 + payload.length + more.length < 12 + payload.length
      ∨ (!padded) = true ∧ 12 + payload.length + more.length ≠ 12 + payload.length) ↔ (padded = false ∧ more ≠ []) := by
    have hshort : ¬12 + payload.length + more.length < 12 := by omega
    have hcut : ¬12 + payload.length + more.length < 12 + payload.length := by omega
    simp [hshort, hcut, Nat.not_lt.mpr hlen]
  have hcrc : ofLe (((odFrame op idx sub seq payload ++ more).drop (8 + payload.length)).take 4)
      = crc32c ((odFrame op idx sub seq payload ++ more).take (8 + payload.length)) := by
    have hsigned : (frameHead op idx sub payload.length seq ++ payload).length = 8 + payload.length := by simp
    rw [hsplit, ← List.append_assoc, List.drop_left' hsigned, List.take_left' hsigned, List.take_left' (leBytes_length ..), ofLe_leBytes (crc32c_lt _)]
  rw [hsplit] at hcover hcrc ⊢
  simp only [frameOf, frameHead_op, frameHead_index, frameHead_sub, frameHead_len, frameHead_seq, frameHead_payload, ofLe_leBytes hop,
    ofLe_leBytes (n := 2) hidx, ofLe_leBytes (n := 1) hsub, ofLe_leBytes hlen2, ofLe_leBytes (n := 2) hseq, List.take_left, hcover, hwhole, hcrc,
    if_neg (show ¬(op < 1 ∨ 6 < op) by omega), ne_eq, not_true_eq_false, if_false]

/-- Settles O55: with nothing behind it, with zeros to whole slots behind it, and with bytes behind it that no slot explains. -/
theorem framesAreReadBack : Obligations.FramesAreReadBack := by
  intro op idx sub seq n payload hlo hhi hidx hsub hseq hlen f
  have hread := fun padded more => frameOf_odFrame_append (payload := payload) padded more hlo hhi hidx hsub hseq hlen
  refine ⟨odFrame_length .., ?alone, ?padded, fun hn => ?followed⟩
  case alone => simpa using hread false []
  case padded => simpa using hread true (List.replicate n 0)
  case followed => simpa [Nat.ne_of_gt hn] using hread false (List.replicate n 0)

end Sys2Proof.Machine

/- # Requests: settings, the bench, security, the vault -/

namespace Sys2Proof.Machine

/-- A write that reaches its entry is answered with what the entry's act replies, in the state that the act leaves. -/
theorem odWrite_acts {s t : State} {rq : Rq} {e : Ent} {i j : Nat} {p : List Byte} {act : Act} {r : Reply} (h : s.takes rq e i j p = true)
    (hact : act (s.openSess rq.src) = (r, t)) : s.odWrite rq e i j p noCalls act = t.answers rq e i j r := by
  rw [odWrite_of_takes _ h, hact]

/- ## Settings and the bench (R314, R325, R391, R394, R473, R479, R480, R510) -/

theorem actBankMask_of_ok {s : State} {p : List Byte} (hlen : p.length = 16) (hok : masksOk (masksOf p) = true) :
    actBankMask p s = (rOk, s.setBlob .bankMask 0 0 p) := by
  simp [actBankMask, hlen, hok]

theorem actCheckNow_of_one {s : State} {v : Nat} (h : v = 1) : actCheckNow v s = (rOk, s.startCheck) := if_neg (not_not.mpr h)

theorem actBenchRestore_of_retired {s : State} {v : Nat} (pass : Bool) (hlife : s.lifecycle = 3)
    (hretired : s.isRetired (v / 4096 % 4) (v % 1024) = true) :
    actBenchRestore v pass s = (rOk, if pass then s.restoreUnit (v / 4096 % 4) (v % 1024) else s) := by
  simp only [actBenchRestore, hlife, hretired, ne_eq, not_true_eq_false, Bool.not_true, Bool.false_eq_true, if_false]

/-- The item that LEDGER_CLEAR_COUNTS names is a Store channel, a Cellar channel or a port (R480). -/
theorem actClearCounts_of_item {s : State} {v : Nat}
    (h : v < 256 + 128 ∧ 256 ≤ v ∨ 512 ≤ v ∧ v < 512 + 32 ∨ 768 ≤ v ∧ v < 768 + 32) :
    actClearCounts v s = (rOk, s.setStart { s.start with clears := s.start.clears ++ [v] }) := by
  have hitem : v / 256 = 1 ∧ v % 256 < 128 ∨ v / 256 = 2 ∧ v % 256 < 32 ∨ v / 256 = 3 ∧ v % 256 < 32 := by omega
  obtain ⟨hkind, hinst⟩ | ⟨hkind, hinst⟩ | ⟨hkind, hinst⟩ := hitem <;> simp [actClearCounts, hkind, hinst, State.updStart]

/-- Every input that INPUT_REARM names is faulty and has been seen deasserted: each is re-armed (R510). -/
theorem actInputRearm_of_seen {s : State} {v : Nat} (src : Arrival) (hlo : 1 ≤ v) (hhi : v ≤ 3)
    (h : ∀ i < 2, bitOf v i = true → (s.input i).faulty = true ∧ (s.input i).seen = true) :
    actInputRearm src v s = (rOk, ((upTo 2).filter fun i => bitOf v i).foldl (fun s i => s.rearm (match src with | .port q => q.val | _ => 0) i) s) := by
  have hrange : ¬(v = 0 ∨ 3 < v) := by omega
  have hready : (((upTo 2).filter fun i => bitOf v i).all fun i => (s.input i).faulty && (s.input i).seen) = true := by
    rw [List.all_filter]
    simpa [upTo, Bool.eq_false_or_eq_true, ← imp_iff_not_or, ← Bool.not_eq_true] using h
  unfold actInputRearm
  dsimp only
  rw [if_neg hrange, if_pos hready] <;> rfl

/-- Settles O22: each request reaches its entry, and its act takes the branch that its rule names. -/
theorem settingsAndBenchRequests : Obligations.SettingsAndBenchRequests := by
  constructor <;> intro rq p s u
  case left =>
    refine ⟨fun h => ?setPoint, fun ⟨h, hlen, hok⟩ => ?masks, fun ⟨h, hone⟩ => ?check, fun h => ?reserve, fun ⟨h, hitem⟩ => ?clear,
      fun ⟨h, hlo, hhi, hseen⟩ => ?rearm⟩
    case setPoint => rw [exec_storeSetPointMax, execStoreSetPointMax, odWrite_of_takes _ h]; rfl
    case masks => rw [exec_bankMask, execBankMask, odWrite_acts h (actBankMask_of_ok hlen hok)]
    case check => rw [exec_checkNow, execCheckNow, odWrite_acts h (actCheckNow_of_one hone)]
    case reserve => rw [exec_cisternReserve, execCisternReserve, odWrite_of_takes _ h]; rfl
    case clear => rw [exec_ledgerClearCounts, execLedgerClearCounts, odWrite_acts h (actClearCounts_of_item hitem)]
    case rearm => rw [exec_inputRearm, execInputRearm, odWrite_acts h (actInputRearm_of_seen rq.src hlo hhi hseen)] <;> rfl
  case right =>
    refine ⟨fun failed untested ⟨h, hone, hlife, hstep⟩ => ?full, fun pass ⟨h, hlife, hretired⟩ => ?restore⟩
    case full =>
      have hbusy : ¬((u.lifecycle ≠ 0 ∧ u.lifecycle ≠ 3) ∨ u.start.step ≠ 14) := by omega
      rw [exec_selftestFull, execSelftestFull, odWrite_of_takes _ h, actSelftestFull, if_neg (not_not.mpr hone), if_neg hbusy]
      rfl
    case restore =>
      rw [exec_benchRestore, execBenchRestore, odWrite_acts h (actBenchRestore_of_retired pass hlife hretired)]

end Sys2Proof.Machine

/- # The Store and Cellar controllers, integrity and the Cistern -/

namespace Sys2Proof.Machine

/- ## The Store controller (R319 to R330, R371) -/

@[simp] theorem State.chan_setChan_self (s : State) (n : Nat) (c : Chan) : (s.setChan n c).chan n = c := Tbl.get_put_self ..

@[simp] theorem State.chan_raise (s : State) (e : Ev) (n : Nat) : (s.raise e).chan n = s.chan n :=
  congrArg (fun x : Store => Tbl.get x.chans n Chan.init) (s.raise_store e)

@[simp] theorem State.rankRefresh_raise (s : State) (e : Ev) (ch r : Nat) : (s.raise e).rankRefresh ch r = s.rankRefresh ch r :=
  congrArg (fun x : Store => Tbl.get x.refresh (2 * ch + r) RankRefresh.init) (s.raise_store e)

section
variable {s : State} {ch : Fin 128} {rank : Fin 2} {bank : Fin 16}

/-- A rank that still owes a refresh at position 3,277 takes a forced one, and REFRESH_FORCED is written at most once per 64 courses (R322). -/
theorem execRefreshForced_of_owed (hneed : (s.rankRefresh ch rank).need ≠ 0) (hpos : 3277 ≤ s.time.pos) :
    ∃ t : State, execRefreshForced ch rank s = .next t
      ∧ (t.chan ch).forced = (s.chan ch).forced + 1 ∧ (t.rankRefresh ch rank).need = (s.rankRefresh ch rank).need - 1
      ∧ (t.rankRefresh ch rank).balance = (s.rankRefresh ch rank).balance - 1000 ∧ t.pages = s.pages ∧ t.reqs = s.reqs := by
  have howed : ¬((s.rankRefresh ch rank).need = 0 ∨ s.time.pos < 3277) := by omega
  simp only [execRefreshForced, if_neg howed]
  split
  all_goals
    refine ⟨_, rfl, ?_⟩
    simp [State.chan, State.rankRefresh, State.setChan, State.draw]

/-- The rows within two of a row that a device of 2 ^ 18 rows has (R323). -/
theorem neighbours_length (row : BitVec 18) : ([row.toNat + 1, row.toNat + 2].filter (· < 2 ^ 18)).length
    = if row.toNat + 2 < 2 ^ 18 then 2 else if row.toNat + 1 < 2 ^ 18 then 1 else 0 := by
  simp only [List.filter_cons, List.filter_nil, decide_eq_true_eq]
  by_cases h1 : row.toNat + 1 < 2 ^ 18 <;> by_cases h2 : row.toNat + 2 < 2 ^ 18
  · simp only [if_pos h1, if_pos h2, List.length_cons, List.length_nil]
  · simp only [if_pos h1, if_neg h2, List.length_cons, List.length_nil]
  · omega
  · simp only [if_neg h1, if_neg h2, List.length_nil]

/-- A row at the row-hammer limit has its neighbours refreshed, and counts on from its table's spill counter (R323). -/
theorem execRowHammerRefresh_of_limit {row : BitVec 18} {n : Nat}
    (hcount : Tbl.find (Tbl.get s.store.hammer (bankKey ch rank bank) ⟨[], 0, 0⟩).counts row.toNat = some n) (hlimit : s.val .rhThreshold 0 0 ≤ n) :
    ∃ t : State, execRowHammerRefresh ch rank bank row s = .next t
      ∧ Tbl.find (Tbl.get t.store.hammer (bankKey ch rank bank) ⟨[], 0, 0⟩).counts row.toNat
        = some (Tbl.get s.store.hammer (bankKey ch rank bank) ⟨[], 0, 0⟩).spill
      ∧ (t.chan ch).rhRefreshes = (s.chan ch).rhRefreshes
        + (if row.toNat + 2 < 2 ^ 18 then 2 else if row.toNat + 1 < 2 ^ 18 then 1 else 0) + min 2 row.toNat
      ∧ t.pages = s.pages := by
  simp only [execRowHammerRefresh, hcount, if_neg (Nat.not_lt.mpr hlimit)]
  rw [neighbours_length]
  split
  all_goals
    refine ⟨_, rfl, ?_, ?_, ?_⟩
    · simp [State.setChan]
    · simp [Nat.add_assoc]
    · simp [State.setChan]

theorem execRhTableClear_of_due (h : s.store.clearedAt + 16000 * 4096 ≤ s.now) : execRhTableClear s = .next (s.setStore { s.store with
    hammer := Tbl.each s.store.hammer fun _ h => { h with counts := [], spill := 0 }, clearedAt := s.now }) := by
  simp only [execRhTableClear, h, if_true]

/-- A sweep that is due begins at a boundary on a serving channel: at the current set point where that is untrained (R324, R326). -/
theorem execTrainingSweep_of_due {cause : Nat} (hdue : s.sweepDue ch = some cause) (hmode : (s.chan ch).mode = .serving)
    (hidle : (s.chan ch).sweep = none) (hpackage : s.packageSweeps ch = false) (hwave : s.waveNow ch = false) (hpos : s.time.pos = 0) :
    ∃ point, execTrainingSweep ch s = .next (s.setChan ch { s.chan ch with sweep := some ⟨s.now, point, cause⟩ })
      ∧ ((s.chan ch).trained.getD (s.chan ch).point 0 = 0 → point = (s.chan ch).point) := by
  have hfree : ¬((s.chan ch).mode ≠ .serving ∨ (s.chan ch).sweep.isSome = true ∨ s.packageSweeps ch = true ∨ s.waveNow ch = true ∨ s.time.pos ≠ 0) := by
    simp [hmode, hidle, hpackage, hwave, hpos]
  simp only [execTrainingSweep, hdue, if_neg hfree]
  exact ⟨_, rfl, fun huntrained => if_pos huntrained⟩

theorem execRankMigrationStart_of_waiting {g : Fin 4} {w : Nat × Nat × Nat} (hwaits : s.store.waiting.find? (fun w => w.1 = g.val) = some w)
    (hnone : Tbl.find s.store.migrations g = none) (hpos : s.time.pos = 0) :
    execRankMigrationStart g s
      = .next ((s.setStore { s.store with waiting := s.store.waiting.erase w }).startMigration g w.2.1 w.2.2) := by
  simp [execRankMigrationStart, hwaits, hnone, hpos]

end

section
variable {s : State} {g : Fin 4} {m : Migration}

/-- A copy onto a spare has reached the top (R329): the marks carried over leave out the bays written since. -/
theorem execRankMigrationEnd_of_copied {q : Nat} (marked : List BayUnit) (hfind : Tbl.find s.store.migrations g = some m)
    (hspare : m.spare = some q) (hdone : s.copyDone g m = true) :
    let u := ((marked.filter fun x => !m.written.contains (x.bay.toNat / 62)).filter fun x => x.bay.toNat % 62 = m.slot).foldl
      (fun s x => s.markUnit g x.bay.toNat x.unit) s
    ∃ t : State, execRankMigrationEnd g marked s = .next t ∧ t.pages = u.pages
      ∧ t.store = { u.store with
          migrations := Tbl.del u.store.migrations g
          map := Tbl.put u.store.map (64 * g.val + m.slot) q
          ranks := Tbl.put u.store.ranks (64 * g.val + m.source) .retired } := by
  simp only [execRankMigrationEnd, hfind, hspare, hdone, Bool.not_true, Bool.false_eq_true, if_false, List.filter_filter]
  exact ⟨_, rfl, by simp, by simp⟩

/-- Every frame has been copied off a dead slot (R330). -/
theorem execSlotDeadCopyEnd_of_copied {marked : List BayUnit} {u : State} (hfind : Tbl.find s.store.migrations g = some m)
    (hspare : m.spare = none) (hdone : s.copyDone g m = true)
    (hcopied : let v := (marked.filter fun x => x.bay.toNat % 62 = m.slot).foldl (fun s x => s.markUnit g x.bay.toNat x.unit) s
      v.copyFrames (fun b => decide (b % 62 = m.slot)) (v.framesIn g) = (true, u)) :
    execSlotDeadCopyEnd ⟨g, marked⟩ s
      = .next ((u.setStore { u.store with migrations := Tbl.del u.store.migrations g }).setRank g m.source .retired) := by
  simp only at hcopied
  simp [execSlotDeadCopyEnd, hfind, hspare, hdone, hcopied]

end

/-- Settles O45: the condition of each event holds, and the event is then what its rule names. -/
theorem storeControllerEvents : Obligations.StoreControllerEvents := by
  intro s ch rank bank g c
  refine ⟨fun ⟨hneed, hpos⟩ => execRefreshForced_of_owed hneed hpos, ?idle, rfl, ?drain,
    fun row n ⟨hcount, hlimit⟩ => execRowHammerRefresh_of_limit hcount hlimit, execRhTableClear_of_due,
    fun cause ⟨hdue, hmode, hidle, hpackage, hwave, hpos⟩ => execTrainingSweep_of_due hdue hmode hidle hpackage hwave hpos, ?sweepEnd, ?wave, ?resume,
    fun w ⟨hwaits, hnone, hpos⟩ => execRankMigrationStart_of_waiting hwaits hnone hpos, fun m ⟨hfind, hdone⟩ =>
      ⟨fun marked q hspare => execRankMigrationEnd_of_copied marked hfind hspare hdone,
        fun marked u ⟨hspare, hcopied⟩ => execSlotDeadCopyEnd_of_copied hfind hspare hdone hcopied⟩⟩
  case idle =>
    intro row last hrow
    simp [execRowIdle, hrow, State.rowPast]
  case drain =>
    rintro ⟨hmode, hsweep, hqueue⟩
    have hissues : (s.chan ch).mode = .serving ∧ (s.chan ch).sweep.isNone = true ∧ (48 ≤ (s.chan ch).writes.length ∨ (s.chan ch).reads.isEmpty = true) :=
      ⟨hmode, Option.isNone_iff_eq_none.mpr hsweep, hqueue.imp_right List.isEmpty_iff.mpr⟩
    exact (exec_writeQueueDrain ch s).trans (if_pos hissues)
  case sweepEnd =>
    intro w narrow bad hsweep e
    have hsweep : (s.chan ch).sweep = some w := hsweep
    refine ⟨fun hok => ?_, fun hfailed => ?_⟩
    · simp only [exec_trainingSweepEnd, execTrainingSweepEnd, hsweep, hok, if_true]
      rw [← hok]
    · simp only [exec_trainingSweepEnd, execTrainingSweepEnd, hsweep, hfailed]
      rfl
  case wave =>
    intro w q hstarts
    simp only [exec_setPointWave, execSetPointWave, hstarts]
  case resume => exact fun hpaused => (exec_setPointResume ch s).trans (if_neg (not_not.mpr hpaused))

end Sys2Proof.Machine

namespace Sys2Proof.Machine

/- ## The Cellar controller (R337, R339, R341, R346, R351, R353, R354, R356 to R358, R366) -/

@[simp] theorem State.cchan_raise (s : State) (e : Ev) (c : Nat) : (s.raise e).cchan c = s.cchan c :=
  congrArg (fun x : Cellar => Tbl.get x.chans c CellarChan.init) (s.raise_cellar e)

@[simp] theorem State.cchan_setCchan_self (s : State) (c : Nat) (v : CellarChan) : (s.setCchan c v).cchan c = v := Tbl.get_put_self ..

@[simp] theorem State.super_setSuper_self (s : State) (k : Nat) (b : Superblock) : (s.setSuper k b).super k = b := Tbl.get_put_self ..

/-- A superblock whose row has been programmed (R339): one row more, sealed with its last, which closes the row buffer's superblock. -/
def State.rowDone (s : State) (key : Nat) (r : RowBuf) : State :=
  let u := s.endProgram key r
  let b := u.super r.sb
  let last := b.rows + 1 = rowsPerSb
  let w := u.setSuper r.sb { b with rows := b.rows + 1, mode := if last then .sealed else b.mode, sealedAt := if last then u.now else b.sealedAt }
  if last then w.setCellar { w.cellar with open_ := Tbl.del w.cellar.open_ key } else w

section
variable {s : State} {set reloc : Bool} {r : RowBuf}

theorem execRowProgramDone_of_failed (h : s.firstProgram (rowKey (bit01 set) reloc) = some r) (f : BlockFail) :
    execRowProgramDone set reloc (.failed f) s = .next (((((s.rowDone (rowKey (bit01 set) reloc) r).failBlock r.sb f 1).replace
      (rowKey (bit01 set) reloc) r.items).relocate r.sb).wornDie f) := by
  simp only [execRowProgramDone, h, State.rowDone, decide_eq_true_eq]

theorem execRowProgramDone_of_passed (h : s.firstProgram (rowKey (bit01 set) reloc) = some r) {parity : List (PageId × Bool)} {w : State} {q : RowBuf}
    (hparity : (s.rowDone (rowKey (bit01 set) reloc) r).rowParity r parity = (w, q)) :
    execRowProgramDone set reloc (.passed parity) s = .next ((((w.setCellar { w.cellar with
      rowSeq := w.cellar.rowSeq + 1, programmed := w.cellar.programmed + (if reloc then 0 else q.added) }).rowItems q q.items).boundMap.eraseVictims).wearCheck) := by
  simp only [State.rowDone] at hparity
  simp only [execRowProgramDone, h, decide_eq_true_eq, hparity]

end

/-- A superblock that has passed its erase (R341): ERASED, with no row, one erase more and no sense of its blocks counted. -/
def State.blocksErased (s : State) (set : Bool) (way block : Nat) (b : Superblock) : State :=
  let u := s.setSuper (sbKey (bit01 set) way block) { b with mode := .erased, rows := 0, erases := b.erases + 1 }
  u.setCellar { u.cellar with senses := Tbl.keep u.cellar.senses fun q _ =>
    !(decide (q % 2 ^ 22 / 4 = 2543 * way + block) && decide (q / 2 ^ 22 % 2 = bit01 set)) }

section
variable {s : State} {set : Bool} {way : Fin 8} {block : BitVec 12}

/-- An erasing superblock becomes ERASED, with one erase more; a block that fails its erase status is replaced first (R341, R350, R356). -/
theorem execSuperblockEraseDone_of_erasing (h : (s.super (sbKey (bit01 set) way block.toNat)).mode = .erasing) (failed : Option BlockFail) :
    let k := sbKey (bit01 set) way block.toNat
    ∃ u t : State, execSuperblockEraseDone set way block failed s = .next (if t.isZone k then t.setCistern { t.cistern with due := some 3 } else t)
      ∧ (failed = none → t = u ∧ u.pages = s.pages) ∧ (∀ f, failed = some f → t = u.wornDie f)
      ∧ (u.super k).mode = .erased ∧ (u.super k).rows = 0 ∧ (u.super k).erases = (s.super k).erases + 1 := by
  intro k
  have hmode : ¬(s.super k).mode ≠ .erasing := not_not.mpr h
  have herased : ∀ v : State, (v.blocksErased set way block.toNat (s.super k)).super k
      = { s.super k with mode := .erased, rows := 0, erases := (s.super k).erases + 1 } := fun v => v.super_setSuper_self k _
  cases failed with
  | none =>
    refine ⟨s.blocksErased set way block.toNat (s.super k), _, if_neg hmode, fun _ => ⟨rfl, rfl⟩, nofun, ?_⟩
    rw [herased]
    exact ⟨rfl, rfl, rfl⟩
  | some f =>
    refine ⟨(s.failBlock k f 2).blocksErased set way block.toNat (s.super k), _, if_neg hmode, nofun, fun g hg => Option.some.inj hg ▸ rfl, ?_⟩
    rw [herased]
    exact ⟨rfl, rfl, rfl⟩

theorem execReadDisturbRelocate_of_limit {ch : Fin 32}
    (hlimit : s.val .readDisturbLimit 0 0 * (if s.isZone (sbKey (ch.val % 2) way block.toNat) then 5 else 1)
      ≤ ((upTo 4).map fun x => Tbl.get s.cellar.senses (senseKey ch way block.toNat x) 0).foldl max 0)
    (hsealed : (s.super (sbKey (ch.val % 2) way block.toNat)).mode = .sealed) :
    execReadDisturbRelocate ch way block s = .next ((s.makeVictim (sbKey (ch.val % 2) way block.toNat)).raise
      { code := 0x6809, sev := 0, unit := 0x2C4, args := leBytes 1 (ch.val % 2) ++ leBytes 2 block.toNat ++ leBytes 1 way }) :=
  if_neg (not_or.mpr ⟨Nat.not_lt.mpr hlimit, not_not.mpr hsealed⟩)

theorem execPatrol_of_sealed (h : (s.super (sbKey (bit01 set) way block.toNat)).mode = .sealed) (worn : Bool) :
    execPatrol set way block worn s = .next (if worn then (s.sensePatrol (sbKey (bit01 set) way block.toNat)).makeVictim (sbKey (bit01 set) way block.toNat)
      else s.sensePatrol (sbKey (bit01 set) way block.toNat)) :=
  if_neg (not_not.mpr h)

end

section
variable {s : State} {slot : BitVec 34} {i : Image} {l : Loc}

/-- A codeword recovered by retry or soft decode counts on its channel (R354). -/
theorem execCellarReadRecovered_of_decoded (himage : s.image slot.toNat = some i) (hloc : i.loc = some l) {how : Recovery} (bits : BitVec 32)
    (hlost : how ≠ .lost) (hrebuilt : how ≠ .rebuilt) :
    execCellarReadRecovered slot how bits s = .next (s.setCchan (s.imageChannel i) { s.cchan (s.imageChannel i) with
      recoveries := (s.cchan (s.imageChannel i)).recoveries + 1, corrected := (s.cchan (s.imageChannel i)).corrected + bits.toNat }) := by
  cases how with
  | lost => exact absurd rfl hlost
  | rebuilt => exact absurd rfl hrebuilt
  | _ => simp only [execCellarReadRecovered, himage, hloc]

/-- A codeword recovered by reconstruction counts on its channel too, and CELLAR_REBUILT is written at most once per 64 courses (R354). -/
theorem execCellarReadRecovered_of_rebuilt (himage : s.image slot.toNat = some i) (hloc : i.loc = some l) (bits : BitVec 32) :
    ∃ t : State, execCellarReadRecovered slot .rebuilt bits s = .next t
      ∧ (t.cchan (s.imageChannel i)).recoveries = (s.cchan (s.imageChannel i)).recoveries + 1
      ∧ (t.cchan (s.imageChannel i)).corrected = (s.cchan (s.imageChannel i)).corrected + bits.toNat
      ∧ t.pages = s.pages ∧ t.cellar.images = s.cellar.images := by
  simp only [execCellarReadRecovered, himage, hloc]
  split
  all_goals
    refine ⟨_, rfl, ?_⟩
    simp [State.setCchan, State.cchan]

/-- A codeword that is lost is lost with every image that shares it (R354). -/
theorem execCellarReadRecovered_of_lost (himage : s.image slot.toNat = some i) (hloc : i.loc = some l) (bits : BitVec 32) :
    ∃ t : State, execCellarReadRecovered slot .lost bits s = .next t ∧ t.pages = s.pages
      ∧ t.cellar.images = Tbl.each s.cellar.images fun k i' => if (s.sharing i).contains k then { i' with lost := true } else i' := by
  simp only [execCellarReadRecovered, himage, hloc]
  exact ⟨_, rfl, by simp [State.setCchan], by simp [State.setCchan]⟩

end

/-- A rebuild that ends leaves its set's list (R358), and those that could not run beside it may begin. -/
theorem execCellarRebuildEnd_of_runs {s : State} {set : Bool} {r : Rebuild} {rest : List Rebuild}
    (hfirst : Tbl.get s.cellar.rebuilds (bit01 set) [] = r :: rest) (hruns : s.rebuildRuns r = true) :
    ∃ t : State, t.cellar.rebuilds = Tbl.put s.cellar.rebuilds (bit01 set) rest ∧ t.pages = s.pages
      ∧ execCellarRebuildEnd set s = .next (t.takeRebuilds s.rebuildRuns) := by
  simp only [execCellarRebuildEnd, hfirst, hruns, Bool.not_true, Bool.false_eq_true, if_false]
  exact ⟨_, by simp [State.setCchan], by simp [State.setCchan], rfl⟩

/-- Settles O46: the condition of each event holds, and the event is then what its rule names. -/
theorem cellarControllerEvents : Obligations.CellarControllerEvents := by
  intro s set reloc way block ch key
  refine ⟨?timer, ?row, fun herasing failed => execSuperblockEraseDone_of_erasing herasing failed, ?relocation,
    fun ⟨hlimit, hsealed⟩ => execReadDisturbRelocate_of_limit hlimit hsealed,
    fun hsealed => ⟨execPatrol_of_sealed hsealed false, execPatrol_of_sealed hsealed true⟩, fun slot bits i l ⟨himage, hloc⟩ =>
      ⟨fun how ⟨hlost, hrebuilt⟩ => execCellarReadRecovered_of_decoded himage hloc bits hlost hrebuilt, execCellarReadRecovered_of_rebuilt himage hloc bits,
        execCellarReadRecovered_of_lost himage hloc bits⟩,
    fun r rest ⟨hfirst, hruns⟩ => execCellarRebuildEnd_of_runs hfirst hruns, rfl, fun hdue => if_pos hdue⟩
  case timer =>
    rintro r ⟨hrow, hold⟩
    simp only [exec_rowProgramTimer, execRowProgramTimer, key, hrow, if_pos hold]
  case row =>
    intro r hfirst u b last w v
    exact ⟨execRowProgramDone_of_failed hfirst, fun parity w q hparity => execRowProgramDone_of_passed hfirst hparity⟩
  case relocation =>
    rintro k ⟨hfew, hpick⟩
    simp only [exec_relocationStart, execRelocationStart, if_neg (Nat.not_le.mpr hfew), hpick]

end Sys2Proof.Machine

namespace Sys2Proof.Machine

/- ## What leaves the time and the integrity counts alone -/

/-- A fold keeps what each of its steps keeps. -/
theorem foldl_unchanged {σ α β : Type} (get : σ → β) {g : σ → α → σ} (hg : ∀ s x, get (g s x) = get s) (l : List α) (s : σ) :
    get (l.foldl g s) = get s := by
  induction l generalizing s with
  | nil => rfl
  | cons x l ih => exact (ih _).trans (hg s x)

section
variable (s : State)

@[simp] theorem State.fnTo_time (f : FnId) (w : FnWord) : (s.fnTo f w).time = s.time := by
  simp only [State.fnTo]
  split <;> simp

@[simp] theorem State.fnHold_time (f : FnId) (c : Nat) : (s.fnHold f c).time = s.time := by
  simp only [State.fnHold]
  split <;> simp

@[simp] theorem State.holdCluster_time (region unit : Nat) : (s.holdCluster region unit).time = s.time := by
  simp only [State.holdCluster]
  split_ifs <;> simp

@[simp] theorem State.markRetired_time (region unit level cause : Nat) : (s.markRetired region unit level cause).time = s.time := by
  simp only [State.markRetired]
  split <;> simp

@[simp] theorem State.checkCluster_time (region unit base n least : Nat) : (s.checkCluster region unit base n least).time = s.time := by
  simp only [State.checkCluster]
  split <;> simp

@[simp] theorem State.settleLanes_time : s.settleLanes.time = s.time := by
  simp only [State.settleLanes]
  rw [foldl_unchanged State.time (fun s e => by split <;> rfl)]
  refine foldl_unchanged State.time (fun s e => ?_) _ _
  exact foldl_unchanged State.time (fun s i => by split <;> rfl) _ _

@[simp] theorem State.checkClusterOf_time (region unit : Nat) : (s.checkClusterOf region unit).time = s.time := by
  simp only [State.checkClusterOf]
  split_ifs <;> simp

@[simp] theorem State.retireUnit_time (region unit cause : Nat) : (s.retireUnit region unit cause).time = s.time := by
  simp [State.retireUnit]

@[simp] theorem State.setRank_time (region rank : Nat) (m : RankMode) : (s.setRank region rank m).time = s.time := rfl

@[simp] theorem State.startMigration_time (region rank cause : Nat) : (s.startMigration region rank cause).time = s.time := by
  simp only [State.startMigration]
  split <;> simp

@[simp] theorem State.retireRank_time (region rank cause : Nat) : (s.retireRank region rank cause).time = s.time := by
  simp only [State.retireRank, State.retireRankAs]
  split_ifs <;> simp

@[simp] theorem State.repeatCount_time (region bay unit : Nat) : (s.repeatCount region bay unit).time = s.time := by
  simp only [State.repeatCount]
  split_ifs <;> simp

/-- Time stands still while a unit is read. -/
theorem State.unitRead_time (region bay unit : Nat) (told : UnitSays) : (s.unitRead region bay unit told).time = s.time := by
  cases told <;> simp [State.unitRead, State.setChan]

@[simp] theorem State.queueSlot_integ (bk : Nat) : (s.queueSlot bk).integ = s.integ := by
  simp only [State.queueSlot]
  split
  · rfl
  · split <;> rfl

@[simp] theorem State.landingPressure_integ : s.landingPressure.integ = s.integ := by
  simp only [State.landingPressure]
  split
  · rfl
  · exact foldl_unchanged State.integ (fun s (e : Nat × Landing) => s.queueSlot_integ e.1) _ _

@[simp] theorem State.requeue_integ (bk : Nat) (was : Bool) : (s.requeue bk was).integ = s.integ := by
  simp only [State.requeue, State.landingPressure_integ]
  split <;> simp

@[simp] theorem State.queueWriteBack_integ (k step : Nat) : (s.queueWriteBack k step).integ = s.integ := by
  simp only [State.queueWriteBack]
  split <;> rfl

@[simp] theorem State.releaseSlot_integ (slot : Nat) : (s.releaseSlot slot).integ = s.integ := by
  simp only [State.releaseSlot]
  split
  · rfl
  · split <;> rfl

@[simp] theorem State.cancelItems_integ (k : Nat) : (s.cancelItems k).integ = s.integ := by
  simp only [State.cancelItems]
  refine (foldl_unchanged State.integ (fun s sl => ?_) _ _).trans rfl
  split
  · split <;> simp
  · rfl

@[simp] theorem State.settleReserve_integ : s.settleReserve.integ = s.integ := by
  simp only [State.settleReserve]
  split_ifs <;> simp

@[simp] theorem State.settleOverdraft_integ (room : Nat) : (s.settleOverdraft room).integ = s.integ := by
  simp only [State.settleOverdraft, State.returnOverdraft]
  split_ifs <;> simp

@[simp] theorem State.pageWritten_integ (k : Nat) : (s.pageWritten k).integ = s.integ := by
  simp only [State.pageWritten, State.markWritten]
  cases (s.page k).mode <;> dsimp only <;> split_ifs <;> simp

end

/- ## Scrubbing and repair (R367, R375, R376, R379, R380, R383, R384) -/

theorem execLoftScrubPass_of_due {s : State} (counts : List LoftCount) (bad : List LoftBad) (hdark : s.dark = false)
    (hdue : s.integ.loftFrom + 500000 * 4096 ≤ s.now) :
    execLoftScrubPass counts bad s = .next (bad.foldl State.loftBad (counts.foldl State.loftCount (s.setInteg { s.integ with loftFrom := s.now }))) :=
  if_neg (not_or.mpr ⟨Bool.eq_false_iff.mp hdark, Nat.not_lt.mpr hdue⟩)

/-- A scrub pass of the Store ends with its totals at zero, and a new pass begins then (R380). -/
theorem execScrubPass_of_on {s : State} (finds : List ScrubFind) (hon : (s.fn .scrubber).state = .on) (hmode : s.power.mode ≠ .quiet)
    (hzeroing : s.power.zeroing = false) : ∃ t : State, execScrubPass finds s = .next t
      ∧ t.integ.scrubFrom = s.now ∧ t.integ.passCorrected = 0 ∧ t.integ.passUncorrected = 0 := by
  have hscrubs : ¬((s.fn .scrubber).state ≠ .on ∨ s.power.mode = .quiet ∨ s.power.zeroing = true) := by simp [hon, hmode, hzeroing]
  simp only [execScrubPass, if_neg hscrubs]
  refine ⟨_, rfl, ?_⟩
  simp only [State.raise_integ, State.setInteg_integ, State.now, and_true]
  rw [foldl_unchanged State.time fun s f => by split <;> simp [State.unitRead_time]]

/-- A repair taken off the list and counted, with its event (R375). -/
def State.repairCounted (s : State) (bk : Nat) (r : Repair) : State :=
  let u := s.setInteg { s.integ with repairs := s.integ.repairs.erase r }
  (u.setInteg { u.integ with repaired := s.integ.repaired + 1 }).raise
    { code := 0x7003, sev := 1, unit := srcRoom (pageRoom (bk / 16)), args := brickArg bk ++ leBytes 1 r.source }

theorem State.repairCounted_landing (s : State) (bk : Nat) (r : Repair) : (s.repairCounted bk r).landing = s.landing := State.raise_landing ..

theorem State.repairCounted_pages (s : State) (bk : Nat) (r : Repair) : (s.repairCounted bk r).pages = s.pages := State.raise_pages ..

theorem State.repairCounted_repaired (s : State) (bk : Nat) (r : Repair) : (s.repairCounted bk r).integ.repaired = s.integ.repaired + 1 :=
  congrArg Integ.repaired (State.raise_integ ..)

/-- A repaired brick as it goes into the landing (R375): the lines whose poison stands take the repair's plaintext, the others what is there. -/
def State.repairWritten (s : State) (bk : Nat) (r : Repair) (old : List Byte) (pm : Nat) : State :=
  ((s.putSlot bk { Landing.init s.now with
    data := (upTo 4).foldl (fun d j => if bitOf pm j then mergeLine d j ((r.plain.drop (64 * j)).take 64) fullMask else d) old
    written := pm }).requeue bk false).pageWritten (bk / 16)

theorem State.repairWritten_repaired (s : State) (bk : Nat) (r : Repair) (old : List Byte) (pm : Nat) :
    (s.repairWritten bk r old pm).integ.repaired = s.integ.repaired := by
  simp only [State.repairWritten, State.pageWritten_integ, State.requeue_integ, State.putSlot, State.setLanding_integ]

section
variable {s : State} {b : BrickId} {r : Repair}

theorem execBrickRepair_of_gone (hrepair : s.integ.repairs.find? (fun r => r.brick = brickIdKey b) = some r)
    (hgone : (s.page (brickIdKey b / 16)).inStore = false) :
    execBrickRepair b s = .next (s.setInteg { s.integ with repairs := s.integ.repairs.erase r }) := by
  simp only [execBrickRepair, hrepair, hgone, Bool.not_false, if_true]

/-- A repair of a brick in the Store goes through the landing, where there is room for it (R375). -/
theorem execBrickRepair_of_stored {old : List Byte} {pm : Nat} (hrepair : s.integ.repairs.find? (fun r => r.brick = brickIdKey b) = some r)
    (hstored : (s.page (brickIdKey b / 16)).inStore = true) (hbase : s.baseOf (brickIdKey b) = .ready old pm)
    (hroom : (s.slotOf (brickIdKey b)).isSome = true
      ∨ s.landingFull = false ∧ (attrDurable (s.pageAttr (brickIdKey b / 16)) = true → s.fits 264 = true)) :
    execBrickRepair b s = .next ((s.repairWritten (brickIdKey b) r old pm).repairCounted (brickIdKey b) r).retryAll := by
  have hfits : ¬((s.slotOf (brickIdKey b)).isNone = true
      ∧ (s.landingFull = true ∨ (attrDurable (s.pageAttr (brickIdKey b / 16)) = true ∧ (!s.fits 264) = true))) := by
    rintro ⟨hnone, hfull | ⟨hdurable, hunfit⟩⟩ <;> simp_all
  simp only [execBrickRepair, hrepair, hstored, Bool.not_true, Bool.false_eq_true, if_false, if_neg hfits, hbase,
    State.repairCounted, State.repairWritten]

end

/-- A lost image with a CLEAN copy of a page in the Store is replaced by it (R376, R379). -/
theorem execReferrerSearchEnd_of_clean {s : State} {slot : BitVec 34} {i : Image} {k : Nat} {p : Page} (himage : s.image slot.toNat = some i)
    (hlost : i.lost = true) (hclean : (s.pages.filter fun e => e.2.slot = some slot.toNat).find? (fun e => e.2.mode = .clean) = some (k, p)) :
    ∃ t u : State, execReferrerSearchEnd slot s = .next t
      ∧ u = ((s.setCellar { s.cellar with images := Tbl.put s.cellar.images slot.toNat { imageOf k p.form i.loc i.refs with lost := false } }).updPage k
        fun p => { p with mode := .dirty, dirtySince := s.now }).queueWriteBack k 1
      ∧ t.pages = u.pages ∧ t.cellar = u.cellar := by
  simp only [execReferrerSearchEnd, himage, hlost, Bool.not_true, Bool.false_eq_true, if_false, hclean]
  exact ⟨_, _, rfl, rfl, by simp; rfl, by simp; rfl⟩

theorem execReferrerSearchEnd_of_none {s : State} {slot : BitVec 34} {i : Image} (himage : s.image slot.toNat = some i) (hlost : i.lost = true)
    (hnone : (s.pages.filter fun e => e.2.slot = some slot.toNat).find? (fun e => e.2.mode = .clean) = none) :
    execReferrerSearchEnd slot s = .next (s.poisonReferrers slot.toNat i) := by
  simp only [execReferrerSearchEnd, himage, hlost, Bool.not_true, Bool.false_eq_true, if_false, hnone]

/-- A unit counted three times: its entry is freed, and its row is judged against the rubble list (R383, R384). -/
theorem execRowWeak_of_counted {s : State} {g : Fin 4} {bay : BitVec 31} {unit : Fin 8}
    (h : ∃ e ∈ Tbl.get s.integ.repeats g [], e.bay = bay.toNat ∧ e.unit = unit.val ∧ 3 ≤ e.count) :
    let u := s.setInteg { s.integ with repeats := Tbl.put s.integ.repeats g ((Tbl.get s.integ.repeats g []).filter fun e =>
      !(decide (e.bay = bay.toNat) && decide (e.unit = unit.val))) }
    let at_ := u.unitRow g bay.toNat unit
    execRowWeak g bay unit s = .next (if (u.rubble g).contains (rowWord (rankChannel g at_.1) (at_.1 % 2) at_.2.1 at_.2.2) then u
      else if 4096 ≤ (u.rubble g).length then u.retireRank g at_.1 1 else u.rowRetired g at_.1 at_.2.1 at_.2.2) := by
  obtain ⟨e, he, hbay, hunit, hcount⟩ := h
  have hany : ((Tbl.get s.integ.repeats g []).any fun e => (decide (e.bay = bay.toNat) && decide (e.unit = unit.val)) && decide (3 ≤ e.count)) = true :=
    List.any_eq_true.mpr ⟨e, he, by simp [hbay, hunit, hcount]⟩
  simp only [execRowWeak, hany, Bool.not_true, Bool.false_eq_true, if_false, apply_ite Host.Outcome.next]

/-- Settles O47: the condition of each event holds, and the event is then what its rule names. -/
theorem scrubbingAndRepair : Obligations.ScrubbingAndRepair := by
  intro s
  refine ⟨fun counts bad ⟨hdark, hdue⟩ => execLoftScrubPass_of_due counts bad hdark hdue,
    fun finds ⟨hon, hmode, hzeroing⟩ => execScrubPass_of_on finds hon hmode hzeroing, ?repair, ?search, ?row⟩
  case repair =>
    intro b r bk hrepair
    refine ⟨execBrickRepair_of_gone hrepair, fun old pm ⟨hstored, hbase, hroom⟩ => ?_⟩
    exact ⟨_, s.repairWritten bk r old pm, execBrickRepair_of_stored hrepair hstored hbase hroom, rfl, State.repairCounted_landing ..,
      State.repairCounted_pages .., by rw [State.repairCounted_repaired, State.repairWritten_repaired]⟩
  case search =>
    intro slot i ⟨himage, hlost⟩ l
    exact ⟨fun k p hclean => execReferrerSearchEnd_of_clean himage hlost hclean, execReferrerSearchEnd_of_none himage hlost⟩
  case row =>
    intro g bay unit t
    refine ⟨rfl, fun hcounted => ?_⟩
    intro u at_ listed
    have hweak : exec (.rowWeak g bay unit) s = .next (if listed then u else if 4096 ≤ (u.rubble g).length then u.retireRank g at_.1 1
      else u.rowRetired g at_.1 at_.2.1 at_.2.2) := execRowWeak_of_counted hcounted
    refine ⟨fun hlisted => ?_, fun ⟨hlisted, hfull⟩ => ?_, fun ⟨hlisted, hroom⟩ => ?_⟩
    · rw [hweak, if_pos hlisted]
    · rw [hweak, if_neg (Bool.eq_false_iff.mp hlisted), if_pos hfull]
    · rw [hweak, if_neg (Bool.eq_false_iff.mp hlisted), if_neg (Nat.not_le.mpr hroom)]

end Sys2Proof.Machine

namespace Sys2Proof.Machine

/- ## The Cistern (R389, R391 to R393) -/

section
variable {s : State}

theorem execCeilingRecompute_of_owed (hpos : s.time.pos = 0) (hmode : s.cistern.mode ≠ .idle)
    (howed : s.cistern.due.isSome = true ∨ s.time.course % 1000 = 0) : execCeilingRecompute s = .next (s.recomputeCeiling false) := by
  rw [execCeilingRecompute, if_pos hpos, State.ceilingBoundary, if_pos ⟨hmode, howed⟩]

/-- A Ready pack with a cell below 3.76 V charges again where it may (R389); its ceiling stands until it is next recomputed. -/
theorem execChargeResume_of_low (steps : List (BitVec 16)) (hmode : s.cistern.mode = .ready)
    (hlow : (s.cistern.cells.any fun x => decide (x.mv < 3760)) = true) (hmay : s.cistern.mayCharge = true) (hphase : s.cistern.phase = .none) :
    ∃ t : State, execChargeResume steps s = .next t ∧ t.cistern.mode = .charging ∧ t.cistern.ceiling = s.cistern.ceiling ∧ t.pages = s.pages := by
  simp only [execChargeResume, hmode, hlow, hmay, hphase, ne_eq, not_true_eq_false, Bool.not_true, Bool.false_eq_true, or_false, if_false]
  exact ⟨_, rfl, rfl, rfl, rfl⟩

theorem execCisternFault_of_sound (cell : Byte) (cause : PackCause) (hmode : s.cistern.mode ≠ .idle) (hdark : s.dark = false)
    (hnone : s.cistern.fault = none) : ∃ t : State, execCisternFault cell cause s = .next t
      ∧ t.cistern = { s.cistern with fault := some (cell.toNat, cause), okRun := 0, phase := .none, asked := false, due := some 2 }
      ∧ t.pages = s.pages := by
  have hheard : ¬(s.cistern.mode = .idle ∨ s.dark = true) := by simp [hmode, hdark]
  have hfirst : ¬s.cistern.fault.isSome = true := by simp [hnone]
  rw [execCisternFault, if_neg hheard, State.packFault, if_neg hfirst]
  exact ⟨_, rfl, by simp, by simp [State.updCistern]⟩

theorem execCisternFaultClear_of_sound (hfault : s.cistern.fault.isSome = true) (hrun : 1000 ≤ s.cistern.okRun) :
    ∃ t : State, execCisternFaultClear s = .next t ∧ t.cistern.fault = none
      ∧ t.cistern.mode = (if s.cistern.full then .ready else .charging) ∧ t.cistern.due = some 2 := by
  rw [execCisternFaultClear, if_pos ⟨.inl hfault, hrun⟩]
  exact ⟨_, rfl, rfl, rfl, rfl⟩

theorem execCheckInterval_of_due (hmode : s.cistern.mode ≠ .idle) (hdue : s.cistern.nextCheck ≤ s.time.course) (hdark : s.dark = false) :
    execCheckInterval s = .next s.startCheck := by
  have h : s.cistern.mode ≠ .idle ∧ s.cistern.nextCheck ≤ s.time.course ∧ (!s.dark) = true := ⟨hmode, hdue, by simp [hdark]⟩
  rw [execCheckInterval, if_pos h]

theorem execCheckDischargeStart_of_fit {t : Nat} (hphase : s.cistern.phase = .waiting t) (hdue : s.cistern.due = none) (hfit : s.dirtyStored ≤ s.ceiling) :
    execCheckDischargeStart s = .next (s.setCistern { s.cistern with phase := .discharging }) := by
  simp only [execCheckDischargeStart, hphase]
  exact congrArg _ (if_pos ⟨Option.isNone_iff_eq_none.mpr hdue, hfit⟩)

theorem execCheckDefer_of_late {t : Nat} (hphase : s.cistern.phase = .waiting t) (hlate : t ≤ s.time.course) (hdirty : s.ceiling < s.dirtyStored) :
    execCheckDefer s
      = .next (s.setCistern { s.cistern with phase := .none, nextCheck := s.time.course + 43200000000, due := some 1 }) := by
  simp only [execCheckDefer, hphase]
  exact congrArg _ (if_pos ⟨hlate, hdirty⟩)

/-- Only the mark that CISTERN_EOL has been written may change with it (R387). -/
theorem State.sayEol_cistern (s : State) : ∃ b, s.sayEol.cistern = { s.cistern with eol := b } := by
  simp only [State.sayEol]
  split
  · exact ⟨true, by simp⟩
  · exact ⟨s.cistern.eol, rfl⟩

/-- A discharged pack has been measured (R391): it charges again, and the next check is an interval away. -/
theorem execCisternCheck_of_discharging (cells : List CellCheck) (h : s.cistern.phase = .discharging) :
    ∃ t : State, execCisternCheck cells s = .next t ∧ t.cistern.phase = .none ∧ t.cistern.mode = .charging
      ∧ t.cistern.lastCheck = s.now ∧ t.cistern.nextCheck = s.time.course + s.val .checkInterval 0 0 ∧ t.cistern.due = some 1 := by
  simp only [execCisternCheck, if_neg (not_not.mpr h)]
  refine ⟨_, rfl, ?_⟩
  obtain ⟨b, hb⟩ := State.sayEol_cistern _
  rw [hb]
  simp

end

/-- Settles O48: the condition of each event holds, and the event is then what its rule names. -/
theorem cisternEvents : Obligations.CisternEvents := by
  intro s c
  refine ⟨fun ⟨hpos, hmode, howed⟩ => execCeilingRecompute_of_owed hpos hmode howed, fun hfull => congrArg _ (if_pos hfull),
    fun steps ⟨hmode, hlow, hmay, hphase⟩ => execChargeResume_of_low steps hmode hlow hmay hphase,
    fun cell cause ⟨hmode, hdark, hnone⟩ => execCisternFault_of_sound cell cause hmode hdark hnone,
    fun ⟨hfault, hrun⟩ => execCisternFaultClear_of_sound hfault hrun, fun ⟨hmode, hdue, hdark⟩ => execCheckInterval_of_due hmode hdue hdark,
    fun t hphase => ⟨fun ⟨hdue, hfit⟩ => execCheckDischargeStart_of_fit hphase hdue hfit,
      fun ⟨hlate, hdirty⟩ => execCheckDefer_of_late hphase hlate hdirty⟩, fun cells h => execCisternCheck_of_discharging cells h⟩

end Sys2Proof.Machine

namespace Sys2Proof.Machine

/- ## Security (R409, R410, R412, R413, R415 to R417, R423, R428, R429, R431) -/

/-- A write of any length that reaches its entry is answered with what the entry's act replies, in the state that the act leaves. -/
theorem odWhole_acts {s t : State} {rq : Rq} {e : Ent} {i j : Nat} {p : List Byte} {act : Act} {r : Reply} (hlive : s.odLive rq.src = true)
    (hclass : (s.classOf rq.src).isSome = true) (hbar : (s.openSess rq.src).barred rq.src e i j (some (ofLe p)) noCalls = none)
    (hacc : e.row.acc ≠ .ro) (hlen : lengthFits e.row p.length = true) (hval : valueFits e.row p = true)
    (hact : act (s.openSess rq.src) = (r, t)) : s.odWhole rq e i j p noCalls act = t.answers rq e i j r := by
  rw [odWhole_of_reach act hlive hclass hbar hacc hlen hval, hact]

theorem State.slot_setSlot_self {s : State} {i : Nat} (x : FwSlot) (h : i < s.sec.slots.length) : (s.setSlot i x).slot i = x := by
  simp [State.slot, State.setSlot, State.updSec, List.getD_eq_getElem?_getD, h]

theorem State.slot_setSlot_ne {s : State} {i k : Nat} (x : FwSlot) (h : k ≠ i) : (s.setSlot k x).slot i = s.slot i := by
  simp [State.slot, State.setSlot, State.updSec, List.getD_eq_getElem?_getD, List.getElem?_set_ne h]

@[simp] theorem State.slot_raise (s : State) (e : Ev) (i : Nat) : (s.raise e).slot i = s.slot i := by simp [State.slot]

@[simp] theorem State.setSlot_counter (s : State) (i : Nat) (x : FwSlot) : (s.setSlot i x).sec.counter = s.sec.counter := rfl
@[simp] theorem State.setSlot_log (s : State) (i : Nat) (x : FwSlot) : (s.setSlot i x).sec.log = s.sec.log := rfl
@[simp] theorem State.setSlot_slotCount (s : State) (i : Nat) (x : FwSlot) : (s.setSlot i x).sec.slots.length = s.sec.slots.length :=
  List.length_set

theorem actLcAdvance_of_allowed {s : State} {v : Nat} (hallowed : s.lcAllowed v = true) (hidle : s.sec.erasing = none)
    (hkeeps : ¬(s.lifecycle = 2 ∧ v = 3)) :
    actLcAdvance v s = (rOk, ((s.setSec { s.sec with log := s.sec.log ++ [v] }).raise
      { code := 0x1001, sev := 1, unit := 1, args := leBytes 1 s.lifecycle ++ leBytes 1 v ++ leBytes 1 1 }).startAsk 4) := by
  have hopen : ¬((!s.lcAllowed v) = true ∨ s.sec.erasing.isSome = true) := by simp [hallowed, hidle]
  unfold actLcAdvance
  rw [if_neg hopen, if_neg hkeeps]
  rfl

theorem actLcAdvance_of_return {s : State} {v : Nat} (hallowed : s.lcAllowed v = true) (hidle : s.sec.erasing = none)
    (hreturn : s.lifecycle = 2 ∧ v = 3) : actLcAdvance v s = (rOk, s.eraseNow 255 3) := by
  have hopen : ¬((!s.lcAllowed v) = true ∨ s.sec.erasing.isSome = true) := by simp [hallowed, hidle]
  unfold actLcAdvance
  rw [if_neg hopen, if_pos hreturn]

/-- What FW_STAGE leaves of an image that passes R415. -/
def State.imageStaged (s : State) (i : Nat) (img : List Byte) : State :=
  (s.setSlot i ⟨.staged, (imageByte img 1).toNat, ofLe (imagePart img 4 4), imagePart img 16 48, true⟩).raise
    { code := 0x9001, sev := 0, unit := srcKeystone, args := leBytes 1 i ++ leBytes 1 (imageByte img 1).toNat ++ leBytes 4 (ofLe (imagePart img 4 4)) }

/-- What FW_STAGE leaves of an image that fails check `why` of R415. -/
def State.imageRefused (s : State) (i why : Nat) : State :=
  (s.setSlot i ⟨.empty, 0, 0, List.replicate 48 0, false⟩).raise
    { code := 0x9002, sev := 2, unit := srcKeystone, args := leBytes 1 i ++ leBytes 1 why }

theorem actFwStage_of_pass {s : State} {i : Nat} {img : List Byte} (hslot : s.stageSlot = some i) (hpass : fwCheck s.sec.counter img = 0) :
    actFwStage img s = (rOk, s.imageStaged i img) := by
  unfold actFwStage
  simp only [hslot, hpass, if_true]
  rfl

theorem actFwStage_of_fail {s : State} {i : Nat} {img : List Byte} (hslot : s.stageSlot = some i) (hfail : fwCheck s.sec.counter img ≠ 0) :
    actFwStage img s = (rWhy stRefused (fwCheck s.sec.counter img), s.imageRefused i (fwCheck s.sec.counter img)) := by
  unfold actFwStage
  simp only [hslot, hfail, if_false]
  rfl

theorem actFwActivate_of_staged {s : State} {v i : Nat} (hone : v = 1) (h : (upTo 2).find? (fun i => (s.slot i).mode = .staged) = some i) :
    actFwActivate v s = (rOk, s.setSlot i { s.slot i with mode := .trial }) := by
  simp [actFwActivate, hone, h]

theorem actFwRestart_of_quiet {s : State} {v : Nat} (hone : v = 1) (h : s.power.mode = .quiet) : actFwRestart v s = (rOk, s.startAsk 5) := by
  simp [actFwRestart, hone, h]

/-- The counter and the running slot as FW_COMMIT leaves them, before it looks at the other slot. -/
def State.committing (s : State) : State :=
  (s.updSec fun x => { x with counter := max s.sec.counter (s.slot s.sec.running).svn }).setSlot s.sec.running
    { s.slot s.sec.running with mode := .committed }

/-- What FW_COMMIT leaves. -/
def State.committed (s : State) : State :=
  let i := s.sec.running
  let o := 1 - i
  let w := s.committing
  let w := w.setSlot o (if w.slotPasses o then { w.slot o with mode := .staged } else ⟨.empty, 0, 0, List.replicate 48 0, false⟩)
  w.raise { code := 0x9003, sev := 1, unit := srcKeystone,
            args := leBytes 1 i ++ leBytes 1 (w.slot i).svn ++ leBytes 1 (max s.sec.counter (s.slot i).svn) }

theorem actFwCommit_of_trial {s : State} {v : Nat} (hone : v = 1) (htrial : (s.slot s.sec.running).mode = .trial) (hstep : s.start.step = 14) :
    actFwCommit v s = (rOk, s.committed) := by
  have hnow : ¬((s.slot s.sec.running).mode ≠ .trial ∨ s.start.step ≠ 14) := by simp [htrial, hstep]
  unfold actFwCommit
  dsimp only
  rw [if_neg (not_not.mpr hone), if_neg hnow]
  rfl

theorem State.committed_counter (s : State) : s.committed.sec.counter = max s.sec.counter (s.slot s.sec.running).svn := by
  simp [State.committed, State.committing, State.updSec]

theorem State.committed_log (s : State) : s.committed.sec.log = s.sec.log := by
  simp [State.committed, State.committing, State.updSec]

/-- The other slot, which FW_COMMIT settles last, is not the one that runs. -/
theorem State.committed_running {s : State} (hrun : s.sec.running < 2) (htwo : s.sec.slots.length = 2) :
    (s.committed.slot s.sec.running).mode = .committed := by
  have hother : 1 - s.sec.running ≠ s.sec.running := by omega
  simp only [State.committed, State.slot_raise, State.slot_setSlot_ne _ hother]
  rw [State.committing, State.slot_setSlot_self]
  simpa [State.updSec, htwo] using hrun

theorem actLockRelease_of_clear {s : State} {v : Nat} (src : Arrival) (hone : v = 1) (hlocked : s.sec.lockState ≠ 0)
    (hclear : s.sec.hard &&& s.sec.tripped = 0) :
    actLockRelease src v s = (rOk, s.setSec { s.sec with release := some (match src with | .port q => q.val | _ => 0) }) := by
  have hopen : ¬(s.sec.lockState = 0 ∨ s.sec.hard &&& s.sec.tripped ≠ 0) := by simp [hlocked, hclear]
  unfold actLockRelease
  rw [if_neg (not_not.mpr hone), if_neg hopen]
  rfl

/-- A response is set where it is not weaker than what is set, and from the Bench in any case (R429). -/
theorem actAlarmResponse_of_may {s : State} {src : Arrival} {k v : Nat} (h : s.alarmSet k ≤ v ∨ src = .uart) :
    actAlarmResponse src k v s = (rOk, s.setVal .alarmResponse 0 k v) := by
  obtain hnot | rfl := h
  · have hmay : ¬v < s.alarmSet k := by omega
    simp [actAlarmResponse, hmay]
  · simp [actAlarmResponse]

theorem actKeyGenerate_of_wanted {s : State} {k : Fin 64} {v : Nat} (hone : v = 1) (h : s.keyWanted k = true) :
    actKeyGenerate k v s = (rOk, s.drawKey.2.loadKey k s.drawKey.1 1) := by
  simp [actKeyGenerate, hone, h]

theorem actKeyImport_of_wanted {s : State} {k : Fin 64} {keys : List Byte} {inside : Bool} (hin : inside = true) (hlen : keys.length = 64)
    (h : s.keyWanted k = true) (hne : keysEqual (BitVec.ofNat 512 (ofLe keys)) = false) :
    actKeyImport k inside keys s = (rOk, s.loadKey k (BitVec.ofNat 512 (ofLe keys)) 2) := by
  simp [actKeyImport, hin, hlen, h, hne]

/-- Settles O23: each request reaches its entry, and its act takes the branch that its rule names. -/
theorem securityRequestsTakeEffect : Obligations.SecurityRequestsTakeEffect := by
  intro rq p s u v
  refine ⟨fun ⟨h, hallowed, hidle, hkeeps⟩ => ?burn, fun ⟨h, hallowed, hidle, hreturn⟩ => ?erase,
    fun i ⟨hlive, hclass, hbar, hlen, hslot⟩ => ⟨fun hpass => ⟨u.imageStaged i p, ?staged, fun hi => ?stagedSlot⟩,
      fun why ⟨hfail, hne⟩ => ⟨u.imageRefused i why, ?refused, fun hi => ?emptySlot⟩⟩,
    fun i ⟨h, hone, hstaged⟩ => ?activate, fun ⟨h, hone, hquiet⟩ => ?restart,
    fun ⟨h, hone, htrial, hstep, hrun, htwo⟩ => ⟨u.committed, ?commit, State.committed_running hrun htwo, State.committed_counter u, ?log⟩,
    fun ⟨h, hone, hlocked, hclear⟩ => ?release, fun k ⟨h, hmay⟩ => ?response, fun k ⟨h, hone, hwanted⟩ => ?generate,
    fun k ⟨h, hin, hlen, hwanted, hne⟩ => ?bring⟩
  case burn => rw [exec_lcAdvance, execLcAdvance, odWrite_acts h (actLcAdvance_of_allowed hallowed hidle hkeeps)]
  case erase => rw [exec_lcAdvance, execLcAdvance, odWrite_acts h (actLcAdvance_of_return hallowed hidle hreturn)]
  case staged =>
    rw [exec_fwStage, execFwStage, odWhole_acts hlive hclass hbar (by decide) hlen rfl (actFwStage_of_pass hslot hpass)]
  case stagedSlot => rw [State.imageStaged, State.slot_raise, State.slot_setSlot_self _ hi]; exact ⟨rfl, rfl⟩
  case refused =>
    subst hfail
    rw [exec_fwStage, execFwStage, odWhole_acts hlive hclass hbar (by decide) hlen rfl (actFwStage_of_fail hslot hne)]
  case emptySlot => rw [State.imageRefused, State.slot_raise, State.slot_setSlot_self _ hi]
  case activate => rw [exec_fwActivate, execFwActivate, odWrite_acts h (actFwActivate_of_staged hone hstaged)]
  case restart => rw [exec_fwRestart, execFwRestart, odWrite_acts h (actFwRestart_of_quiet hone hquiet)]
  case commit => rw [exec_fwCommit, execFwCommit, odWrite_acts h (actFwCommit_of_trial hone htrial hstep)]
  case log => rw [State.committed_log]; simp [u]
  case release => rw [exec_lockRelease, execLockRelease, odWrite_acts h (actLockRelease_of_clear rq.src hone hlocked hclear)] <;> rfl
  case response => rw [exec_alarmResponse, execAlarmResponse, odWrite_acts h (actAlarmResponse_of_may hmay)]
  case generate => rw [exec_roomKeyGenerate, execRoomKeyGenerate, odWrite_acts h (actKeyGenerate_of_wanted hone hwanted)]
  case bring => rw [exec_roomKeyImport, execRoomKeyImport, odWrite_acts h (actKeyImport_of_wanted hin hlen hwanted hne)]

end Sys2Proof.Machine

/- # The Keeper's restart, the compatibility band and the board -/

namespace Sys2Proof.Machine

/- ## The Keeper's restart (R31, R412) -/

/-- The writer's buffer drains into the tally, the notification queues and what is sent, and nowhere else. -/
theorem State.unholdN_eq : ∀ (n : Nat) (s : State), ∃ t q o, s.unholdN n = ((s.setTally t).setNotify q).setOut o
  | 0, s => ⟨s.tally, s.notify, s.out, rfl⟩
  | n + 1, s => by
    unfold State.unholdN
    split
    · exact ⟨s.tally, s.notify, s.out, rfl⟩
    next e room also es hheld =>
      split
      · obtain ⟨t, q, o, h⟩ := State.unholdN_eq n (s.setTally ({ s.tally with held := es }.miss e))
        exact ⟨t, q, o, h⟩
      · split
        · exact ⟨s.tally, s.notify, s.out, rfl⟩
        · obtain ⟨q, o, hn⟩ := State.notifyAll_eq e (s.notifyDests e room also) (s.setTally ({ s.tally with held := es }.append e))
          obtain ⟨t, q', o', h⟩ := State.unholdN_eq n (((s.setTally ({ s.tally with held := es }.append e)).setNotify q).setOut o)
          exact ⟨t, q', o', by dsimp only; rw [hn, h]; rfl⟩

theorem State.unhold_eq (s : State) : ∃ t q o, s.unhold = ((s.setTally t).setNotify q).setOut o := by
  unfold State.unhold
  split
  · exact ⟨s.tally, s.notify, s.out, rfl⟩
  · exact State.unholdN_eq _ _

@[simp] theorem State.unhold_power (s : State) : s.unhold.power = s.power := by
  obtain ⟨t, q, o, h⟩ := s.unhold_eq; rw [h]; rfl
@[simp] theorem State.unhold_sec (s : State) : s.unhold.sec = s.sec := by
  obtain ⟨t, q, o, h⟩ := s.unhold_eq; rw [h]; rfl
@[simp] theorem State.unhold_od (s : State) : s.unhold.od = s.od := by
  obtain ⟨t, q, o, h⟩ := s.unhold_eq; rw [h]; rfl

theorem State.restartedLately_of_old {s : State} (h : s.power.keeperRestart = none
    ∨ ∃ t, s.power.keeperRestart = some t ∧ t + 300000000 * 4096 ≤ s.now) : s.restartedLately = false := by
  obtain hnone | ⟨t, ht, hold⟩ := h
  · exact State.restartedLately_of_none hnone
  · rw [State.restartedLately_of_some ht, decide_eq_false_iff_not]; omega

theorem State.val_of_od {s t : State} (h : t.od = s.od) (e : Ent) (i j : Nat) : t.val e i j = s.val e i j := by
  rw [State.val, State.val, h]

/-- Settles O58: a restart sets the Keeper's own flags, and its end drains the writer's buffer. -/
theorem keeperRestartLeavesTheKeystone : Obligations.KeeperRestartLeavesTheKeystone := by
  refine fun s => ⟨fun ⟨hrun, hlast⟩ => ?restart, fun hdown => ?done⟩
  case restart =>
    refine ⟨s.setPower { s.power with keeperDown := true, keeperRestart := some s.now }, ?_, rfl, rfl, fun _ => rfl⟩
    rw [exec_keeperWatchdog, execKeeperWatchdog_of_serving (.inl hrun), State.restartedLately_of_old hlast]
    rfl
  case done =>
    refine ⟨(s.setPower { s.power with keeperDown := false }).unhold, ?_, ?_, ?_, fun i => State.val_of_od ?_ _ _ _⟩
    · rw [exec_keeperRestartDone, execKeeperRestartDone, if_pos hdown]; rfl
    · rw [State.unhold_power]; rfl
    · rw [State.unhold_sec]; rfl
    · rw [State.unhold_od]; rfl

/- ## The compatibility band (R485) -/

/-- Settles O59: COMPAT_BAND divides RELEASE by 2 ^ 16, and what is left has 16 bits. -/
theorem compatibilityBand : Obligations.CompatibilityBand := by
  intro s x hslot hlt
  have hband : s.compatBand = x.release / 65536 := by simp [State.compatBand, hslot]
  rw [hband, bitsOf, Nat.shiftRight_eq_div_pow]
  omega

/- ## The board (R427, R503 to R511) -/

theorem State.input_setInput_self (s : State) (i : Nat) (p : Pin) : (s.setInput i p).input i = p := by
  simp [State.input, State.setInput]

/-- A board event enters the tally, the notification queues and what is sent, and nothing else. -/
theorem State.boardEvent_eq (s : State) (code sev : Nat) (args : List Byte) :
    ∃ t q o, s.boardEvent code sev args = ((s.setTally t).setNotify q).setOut o := by
  unfold State.boardEvent
  split
  · exact ⟨s.tally, s.notify, s.out, rfl⟩
  · exact State.raise_eq (s := s) _

@[simp] theorem State.boardEvent_board (s : State) (code sev : Nat) (args : List Byte) : (s.boardEvent code sev args).board = s.board := by
  obtain ⟨t, q, o, h⟩ := s.boardEvent_eq code sev args; rw [h]; rfl
@[simp] theorem State.boardEvent_power (s : State) (code sev : Nat) (args : List Byte) : (s.boardEvent code sev args).power = s.power := by
  obtain ⟨t, q, o, h⟩ := s.boardEvent_eq code sev args; rw [h]; rfl
@[simp] theorem State.boardEvent_pages (s : State) (code sev : Nat) (args : List Byte) : (s.boardEvent code sev args).pages = s.pages := by
  obtain ⟨t, q, o, h⟩ := s.boardEvent_eq code sev args; rw [h]; rfl
@[simp] theorem State.boardEvent_od (s : State) (code sev : Nat) (args : List Byte) : (s.boardEvent code sev args).od = s.od := by
  obtain ⟨t, q, o, h⟩ := s.boardEvent_eq code sev args; rw [h]; rfl

theorem State.resetAsserted_of_starting {s : State} (h : s.power.mode = .starting) : s.resetAsserted.power.mode = .off := by
  have hstart : (s.takeInput 2).power.mode = .starting := h
  unfold State.resetAsserted
  dsimp only
  rw [if_pos hstart]
  rfl

theorem execInputToggling_of_edges {s : State} {i : Fin 5} {edges : BitVec 16} (hedges : 8 < edges.toNat)
    (hquiet : (s.input i).toggling = false) :
    execInputToggling i edges s =
      let u := (s.setInput i { s.input i with toggling := true }).boardEvent 0xC001 2 (leBytes 1 i ++ leBytes 2 edges.toNat)
      .next (if (s.input i).taken then u else u.inputAsserted i) := by
  have hnew : ¬(edges.toNat ≤ 8 ∨ (s.input i).toggling = true) := by simp [hedges, hquiet]
  unfold execInputToggling
  dsimp only
  rw [if_neg hnew]

/-- What INPUT_FAULTY leaves of an input that has stood too long. -/
def State.declareFaulty (s : State) (i : Nat) : State :=
  let n := (s.now - (s.input i).since) / 4096
  (s.setInput i { s.input i with faulty := true, seen := false, owed := if s.dark then some n else none }).boardEvent 0xC002 3
    (leBytes 1 i ++ leBytes 4 n)

theorem State.declareFaulty_board (s : State) (i : Nat) : (s.declareFaulty i).board =
    (s.setInput i { s.input i with faulty := true, seen := false, owed := if s.dark then some ((s.now - (s.input i).since) / 4096) else none }).board :=
  State.boardEvent_board _ _ _ _

theorem State.declareFaulty_power (s : State) (i : Nat) : (s.declareFaulty i).power = s.power := State.boardEvent_power _ _ _ _
theorem State.declareFaulty_pages (s : State) (i : Nat) : (s.declareFaulty i).pages = s.pages := State.boardEvent_pages _ _ _ _

theorem State.declareFaulty_input (s : State) (i : Nat) : ((s.declareFaulty i).input i).faulty = true ∧ ((s.declareFaulty i).input i).seen = false := by
  rw [State.input, State.declareFaulty_board, ← State.input, State.input_setInput_self]
  exact ⟨rfl, rfl⟩

theorem execInputFaulty_of_stuck {s : State} {i : Fin 2} (htaken : (s.input i).taken = true) (hgood : (s.input i).faulty = false)
    (hlong : (s.input i).since + 5000000 * 4096 ≤ s.now) (hreading : (if i.val = 0 then s.vinIn else s.diesCool) = true) :
    execInputFaulty i s = .next (s.declareFaulty i) := by
  have hdue : ¬((!(s.input i).taken) = true ∨ (s.input i).faulty = true ∨ s.now < (s.input i).since + 5000000 * 4096
      ∨ (!(if i.val = 0 then s.vinIn else s.diesCool)) = true) := by
    simp only [hreading]
    simp [htaken, hgood, hlong]
  unfold execInputFaulty
  dsimp only
  rw [if_neg hdue]
  rfl

theorem execInputOvervoltage_of_high {s : State} {peak : BitVec 16} (hclosed : s.board.switchOpen = false) (hhigh : 63000 < peak.toNat) :
    execInputOvervoltage peak s =
      .next (((s.setBoard { s.board with switchOpen := true }).boardEvent 0xC006 2 (leBytes 2 peak.toNat)).powerLoss .below38) := by
  have hnew : ¬(s.board.switchOpen = true ∨ peak.toNat ≤ 63000) := by simp [hclosed, hhigh]
  unfold execInputOvervoltage
  rw [if_neg hnew]

/-- What the loss of AUX3V3 leaves: the I3C session has ended and its address is free. -/
def State.auxGone (s : State) (mv : Nat) : State :=
  let w := (s.setBoard { s.board with aux := mv, auxLost := true }).endSess .i3c
  (w.setOd { w.od with i3c := { w.od.i3c with addr := 0 } }).boardEvent 0xC004 2 (leBytes 2 mv)

theorem State.auxGone_board (s : State) (mv : Nat) : (s.auxGone mv).board = { s.board with aux := mv, auxLost := true } :=
  State.boardEvent_board _ _ _ _
theorem State.auxGone_addr (s : State) (mv : Nat) : (s.auxGone mv).od.i3c.addr = 0 := by
  rw [State.auxGone, State.boardEvent_od]; rfl
theorem State.auxGone_pages (s : State) (mv : Nat) : (s.auxGone mv).pages = s.pages := State.boardEvent_pages _ _ _ _

theorem execAuxLost_of_lost {s : State} {mv : BitVec 16} (hout : (s.setBoard { s.board with aux := mv.toNat }).auxIn = false)
    (hfirst : s.board.auxLost = false) : execAuxLost mv s = .next (s.auxGone mv.toNat) := by
  have hnew : ¬((s.setBoard { s.board with aux := mv.toNat }).auxIn = true ∨ s.board.auxLost = true) := by
    rw [hout, hfirst]; simp
  unfold execAuxLost
  dsimp only
  rw [if_neg hnew]
  rfl

theorem execInputDeasserted_of_taken {s : State} {i : Fin 5} (hreset : i.val ≠ 2) (hpresent : i.val ≠ 3) (htaken : (s.input i).taken = true) :
    execInputDeasserted i s
      = .next (s.setInput i { s.input i with taken := false, toggling := false, seen := (s.input i).seen || (s.input i).faulty, since := s.now }) := by
  unfold execInputDeasserted
  split
  · exact absurd ‹_› hreset
  · exact absurd ‹_› hpresent
  · simp only [htaken, if_true]

theorem State.jtagRuns_of_reset {s : State} (h : s.inReset = true) (ir : JtagIr) (bits : Nat) :
    s.jtagRuns ir bits = (s.setBoard { s.board with jtag := ir }).send (.jtag bits) := if_pos h

/-- What SAMPLE_PRELOAD leaves in reset: the cells hold what was shifted in, and what the pins showed has been shifted out. -/
def State.sampled (s : State) (data : BitVec 512) : State :=
  let u := s.draw.2
  ((u.setBoard { u.board with jtag := .sample }).send (.jtag (Config.boundarySample s.free).toNat)).setBoard
    { u.board with jtag := .sample, scan := data }

theorem execSamplePreload_of_reset {s : State} (h : s.inReset = true) (data : BitVec 512) :
    execSamplePreload data s = .next (s.sampled data) := by
  have hreset : ¬(!s.inReset) = true := by simp [h]
  have hdrawn : s.draw.2.inReset = true := h
  unfold execSamplePreload
  rw [if_neg hreset]
  exact congrArg (fun w => Host.Outcome.next (State.setBoard w { s.draw.2.board with jtag := .sample, scan := data }))
    (State.jtagRuns_of_reset hdrawn _ _)

/-- Settles O52: an event of the board is its own function of the model, in the branch that its rule names. -/
theorem boardEvents : Obligations.BoardEvents := by
  refine fun s => ⟨rfl, rfl, rfl, rfl, State.resetAsserted_of_starting, fun i edges ⟨hedges, hquiet⟩ => ?toggling,
    fun i ⟨htaken, hgood, hlong, hreading, _⟩ => ?faulty, fun peak ⟨hclosed, hhigh⟩ => ?overvoltage, rfl, fun mv ⟨hout, hfirst⟩ => ?aux,
    rfl, rfl, rfl, fun i ⟨hreset, hpresent, htaken⟩ => ?deasserted, rfl, rfl, fun hreset => ⟨?bypass, ?idcode, fun data => ?sample, ?extest⟩⟩
  case toggling => rw [exec_inputToggling, execInputToggling_of_edges hedges hquiet]
  case faulty =>
    obtain ⟨hfaulty, hseen⟩ := s.declareFaulty_input i
    exact ⟨s.declareFaulty i, by rw [exec_inputFaulty, execInputFaulty_of_stuck htaken hgood hlong hreading], hfaulty, hseen,
      s.declareFaulty_power i, s.declareFaulty_pages i⟩
  case overvoltage => rw [exec_inputOvervoltage, execInputOvervoltage_of_high hclosed hhigh]
  case aux =>
    exact ⟨s.auxGone mv.toNat, by rw [exec_auxLost, execAuxLost_of_lost hout hfirst], s.auxGone_board _, s.auxGone_addr _, s.auxGone_pages _⟩
  case deasserted => rw [exec_inputDeasserted, execInputDeasserted_of_taken hreset hpresent htaken]
  case bypass => rw [exec_bypass, execBypass, State.jtagRuns_of_reset hreset]
  case idcode => rw [exec_idcode, execIdcode, State.jtagRuns_of_reset hreset]
  case sample => exact ⟨s.sampled data, by rw [exec_samplePreload, execSamplePreload_of_reset hreset], rfl, rfl, rfl⟩
  case extest => rw [exec_extest, execExtest, State.jtagRuns_of_reset hreset]

end Sys2Proof.Machine

/- # Alarms, erases and SPDM -/

namespace Sys2Proof.Machine

/- ## The end of an Erase (R432) -/

/-- What the end of an Erase leaves of the Keystone: one entry burnt, SEAL_EPOCH counted on by one up to 32, the lock undone. -/
def State.eraseSealed (s : State) (target : Nat) : State :=
  s.setSec { s.sec with erasing := none, epoch := min 32 (s.sec.epoch + 1), log := s.sec.log ++ [if 31 ≤ s.sec.log.length then 4 else target],
                        lockState := 0, locked := false, keysOff := false, hard := 0, release := none }

/-- The two events that the end of an Erase writes. -/
def State.eraseSaid (s : State) (sensor target : Nat) : State :=
  ((s.eraseSealed target).raise
    { code := 0x9012, sev := 3, unit := srcKeystone, args := leBytes 1 sensor ++ leBytes 1 (min 32 (s.sec.epoch + 1)) }).raise
    { code := 0x1001, sev := 1, unit := srcKeystone,
      args := leBytes 1 s.lifecycle ++ leBytes 1 (if 31 ≤ s.sec.log.length then 4 else target) ++ leBytes 1 (if sensor = 255 then 1 else 2) }

theorem State.eraseSaid_sec (s : State) (sensor target : Nat) : (s.eraseSaid sensor target).sec = (s.eraseSealed target).sec := by
  rw [State.eraseSaid, State.raise_sec, State.raise_sec]
theorem State.eraseSaid_pages (s : State) (sensor target : Nat) : (s.eraseSaid sensor target).pages = s.pages := by
  rw [State.eraseSaid, State.raise_pages, State.raise_pages]; rfl
theorem State.eraseSaid_power (s : State) (sensor target : Nat) : (s.eraseSaid sensor target).power = s.power := by
  rw [State.eraseSaid, State.raise_power, State.raise_power]; rfl

theorem execEraseDone_of_erasing {s : State} {sensor target : Nat} (h : s.sec.erasing = some (sensor, target)) :
    execEraseDone s = .next ((s.eraseSaid sensor target).startAsk (if sensor = 255 then 4 else 6)) := by
  unfold execEraseDone
  simp only [h]
  rfl

/- ## SPDM messages (R420) -/

/-- An SPDM message bears the version that its code is of: 1.0 for GET_VERSION, 1.3 for every other. -/
def spdmVersionFits (msg : List Byte) : Prop := field msg 0 1 = if field msg 1 1 = 0x84 then 0x10 else 0x13

theorem spdmCommand_of_reach {s : State} {rq : Rq} {msg : List Byte} (sid : Option (BitVec 32)) (act : SpdmAct) (hlive : s.odLive rq.src = true)
    (hclass : (s.classOf rq.src).isSome = true)
    (hbar : ((s.openSess rq.src).barred rq.src .spdmMessage 0 0 (some (ofLe msg)) noCalls).isNone = true)
    (hlen : lengthFits Ent.spdmMessage.row msg.length = true) :
    s.spdmCommand rq sid msg act = (State.spdmTake rq sid msg act (s.openSess rq.src)).2.answers rq .spdmMessage 0 0 rOk :=
  odWhole_acts hlive hclass (Option.isNone_iff_eq_none.mp hbar) (by decide) hlen rfl rfl

theorem spdmAnswered {x : Reply × State} {t : State} {rq : Rq} (h : x = (rOk, t)) :
    x.2.answers rq .spdmMessage 0 0 rOk = t.answers rq .spdmMessage 0 0 rOk := by rw [h]

section
variable {s : State} {rq : Rq} {msg : List Byte}

theorem spdmTake_of_plain (act : SpdmAct) (hver : spdmVersionFits msg) :
    State.spdmTake rq none msg act s = (rOk, ((act (s.spdmOf rq.src) s).2.2.putSpdm (act (s.spdmOf rq.src) s).2.1).updSess rq.src
      fun y => { y with spdm := (act (s.spdmOf rq.src) s).1 }) := by
  unfold spdmVersionFits at hver
  simp [State.spdmTake, hver]

theorem spdmTake_of_version (act : SpdmAct) (hver : ¬spdmVersionFits msg) :
    State.spdmTake rq none msg act s = (rOk, (s.putSpdm (s.spdmOf rq.src)).updSess rq.src fun y => { y with spdm := spdmErr 0x41 0 }) := by
  unfold spdmVersionFits at hver
  simp [State.spdmTake, hver]

/-- A secured message for a session that is not the open one is not looked into. -/
theorem spdmTake_of_outside {i : BitVec 32} (act : SpdmAct) (hver : spdmVersionFits msg)
    (hout : (s.spdmOf rq.src).session = 0 ∨ (s.spdmOf rq.src).sid ≠ i.toNat) :
    State.spdmTake rq (some i) msg act s = (rOk, (s.putSpdm (s.spdmOf rq.src)).updSess rq.src fun y => { y with spdm := errDecrypt }) := by
  unfold spdmVersionFits at hver
  have hmine : ¬((s.spdmOf rq.src).session ≠ 0 ∧ (s.spdmOf rq.src).sid = i.toNat) := by tauto
  simp only [State.spdmTake, hmine, hout, hver, decide_true, decide_false, ne_eq, not_true_eq_false, Bool.false_eq_true, if_false, if_true]

/-- A message in the established session counts, is acted on, and its answer is sealed. -/
theorem spdmTake_of_established {i : BitVec 32} (act : SpdmAct) (hver : spdmVersionFits msg) (hest : (s.spdmOf rq.src).session = 2)
    (hsid : (s.spdmOf rq.src).sid = i.toNat) :
    let x := { s.spdmOf rq.src with reqSeq := (s.spdmOf rq.src).reqSeq + 1 }
    let y := sealAnswer x (act x s).2.1 (act x s).1
    State.spdmTake rq (some i) msg act s = (rOk, ((act x s).2.2.putSpdm y.2).updSess rq.src fun z => { z with spdm := y.1 }) := by
  unfold spdmVersionFits at hver
  simp [State.spdmTake, hver, hest, hsid]

end

/-- Settles O49: each request reaches SPDM_MESSAGE with its own act, and a message falls under one of the cases of `spdmTake`. -/
theorem alarmsErasesAndSpdm : Obligations.AlarmsErasesAndSpdm := by
  refine fun s rq sid msg => ⟨fun _ _ => rfl, fun sensor target herasing => ?erase, fun ⟨hlive, hclass, hbar, hlen⟩ => ?spdm⟩
  case erase =>
    exact ⟨s.eraseSaid sensor target, s.eraseSealed target, by rw [exec_eraseDone, execEraseDone_of_erasing herasing], rfl,
      s.eraseSaid_sec _ _, s.eraseSaid_pages _ _, s.eraseSaid_power _ _⟩
  case spdm =>
    intro u done
    have hdone (act : SpdmAct) : s.spdmCommand rq sid msg act = done act := spdmCommand_of_reach sid act hlive hclass hbar hlen
    refine ⟨?_, ?_, ?_, ?_, ?_, ?_, ?_, ?_, ?_, ?_, ?_, ?_, ?_, ?_, ?_, ?plain, ?version, ?secured⟩
    case plain => rintro act ⟨rfl, hver⟩; exact spdmAnswered (spdmTake_of_plain act hver)
    case version => rintro act ⟨rfl, hver⟩; exact spdmAnswered (spdmTake_of_version act hver)
    case secured =>
      rintro act i ⟨rfl, hver⟩
      exact ⟨fun hout => spdmAnswered (spdmTake_of_outside act hver hout),
        fun ⟨hest, hsid⟩ => spdmAnswered (spdmTake_of_established act hver hest hsid)⟩
    all_goals exact congrArg Host.Outcome.next (hdone _)

end Sys2Proof.Machine

/- # Writes, block transfers and the I3C target -/

namespace Sys2Proof.Machine

/- ## A write that only keeps the value (R438, R439, R443) -/

/-- What bars a request of an entry that no Tenant reaches does not ask for the rooms of calls. -/
theorem State.barred_of_noTenant {e : Ent} (h : e.row.mask.tenant = .none) (s : State) (a : Arrival) (i j : Nat) (write : Option Nat)
    (rooms rooms' : CallRooms) : s.barred a e i j write rooms = s.barred a e i j write rooms' := by
  simp only [State.barred, State.masked, State.tenantMay, h]

/-- A write of an entry that no Tenant reaches is acted on and answered, whatever the rooms of calls. -/
theorem odWrite_of_takes_noTenant {s : State} {rq : Rq} {e : Ent} {i j : Nat} {p : List Byte} (rooms : CallRooms) (act : Act)
    (hmask : e.row.mask.tenant = .none) (h : s.takes rq e i j p = true) :
    s.odWrite rq e i j p rooms act = (act (s.openSess rq.src)).2.answers rq e i j (act (s.openSess rq.src)).1 := by
  rw [← odWrite_of_takes act h]
  simp only [State.odWrite, State.judgeWrite, State.barred_of_noTenant hmask _ _ _ _ _ rooms noCalls]

/-- The entries of O25: numbers for the Steward alone, with no rule of their own. -/
def keptEntries : List Ent := [.notifyMinSeverity, .readDisturbLimit, .rhThreshold, .laneFecLimit, .holdThreshold, .braceLimit]

theorem kept_noTenant {e : Ent} (h : e ∈ keptEntries) : e.row.mask.tenant = .none := by
  fin_cases h <;> rfl

theorem actOf_of_kept {e : Ent} (h : e ∈ keptEntries) (rq : Rq) (i j : Nat) (p : List Byte) (s : State) :
    actOf rq e i j p s = (rOk, (s.keepLate e i j).setVal e i j (ofLe p)) := by
  fin_cases h <;> rfl

@[simp] theorem State.keepLate_val (s : State) (e e' : Ent) (i j i' j' : Nat) : (s.keepLate e i j).val e' i' j' = s.val e' i' j' := by
  unfold State.keepLate
  split <;> rfl

/-- A request's frame reaches a session: the link carries the dictionary, and the arrival has a class. -/
theorem State.heard_of_class {s : State} {a : Arrival} (hlive : s.odLive a = true) (hclass : (s.classOf a).isSome = true) :
    ¬(!s.odLive a || (s.classOf a).isNone) = true := by
  simpa [hlive] using Option.isSome_iff_ne_none.mp hclass

/-- Settles O25: such a write is acted on by keeping its value, which is another instance's for no other key. -/
theorem writeSetsAnEntry : Obligations.WriteSetsAnEntry := by
  refine fun rq index sub p s => ⟨fun e i j ⟨hat, h, he⟩ => ?kept, fun ⟨hat, hlive, hclass⟩ => ?none⟩
  case kept =>
    have hmem : e ∈ keptEntries := by simpa [keptEntries] using he
    refine ⟨?_, State.val_setVal_self _ _ _ _ _, fun e' i' j' hkey => ?_⟩
    · simp only [exec_write, execWrite, State.writeFrame, hat]
      rw [odWrite_of_takes_noTenant _ _ (kept_noTenant hmem) h, actOf_of_kept hmem]
    · rw [State.val_setVal_ne _ _ _ _ _ _ _ _ hkey, State.keepLate_val, State.openSess_val]
  case none =>
    simp only [exec_write, execWrite, State.writeFrame, hat]
    rw [State.noEntry, if_neg (State.heard_of_class hlive hclass)]
    rfl

/- ## Block transfers (R448) -/

theorem blockFrame_of_entry {s t : State} {rq : Rq} {index sub i j : Nat} {e : Ent} {act : Ent → Nat → Nat → Act} {r : Reply}
    (hat : Ent.at index sub = some (e, i, j)) (hlive : s.odLive rq.src = true) (hclass : (s.classOf rq.src).isSome = true)
    (hact : act e i j (s.openSess rq.src) = (r, t)) : s.blockFrame rq index sub act = t.odAnswer rq index sub r := by
  simp only [State.blockFrame, hat]
  rw [if_neg (State.heard_of_class hlive hclass), hact]

section
variable {s : State} {rq : Rq} {p : List Byte} {e : Ent} {i j : Nat}

theorem actBlockStart_of_free (hbar : s.barred rq.src e i j (some 0) s.callRooms = none) (hentry : blockEntry e = true) (hlen : p.length = 4)
    (hfit : octetsFit e (ofLe p) = true) (helse : s.transferElsewhere rq.src (e.row.key i j) = false) :
    actBlockStart rq p e i j s = (rOk, s.putTransfer rq.src ⟨e.row.key i j, ofLe p, [], (rq.seq.toNat + 1) % 65536, s.now⟩) := by
  simp [actBlockStart, hbar, hentry, hlen, hfit, helse]

theorem actBlockData_of_next {t : Transfer} (hup : s.power.keeperDown = false) (htransfer : s.transfer rq.src (e.row.key i j) = some t)
    (hp : p ≠ []) (hseq : rq.seq.toNat = t.nextSeq) (hroom : t.got.length + p.length ≤ t.total) :
    actBlockData rq p e i j s
      = (rOk, s.putTransfer rq.src { t with got := t.got ++ p, nextSeq := (t.nextSeq + 1) % 65536, last := s.now }) := by
  have hin : ¬(rq.seq.toNat ≠ t.nextSeq ∨ t.total < t.got.length + p.length) := by simp [hseq, hroom]
  simp only [actBlockData, hup, htransfer, List.isEmpty_iff, hp, if_neg hin, Bool.false_eq_true, if_false]

theorem actBlockEnd_of_whole {t : Transfer} (hup : s.power.keeperDown = false) (htransfer : s.transfer rq.src (e.row.key i j) = some t)
    (hp : p = []) (hseq : rq.seq.toNat = t.nextSeq) (hwhole : t.got.length = t.total) :
    let w := s.dropTransfer rq.src (e.row.key i j)
    actBlockEnd rq p e i j s = w.judgeWrite rq e i j t.got w.callRooms (actOf rq e i j t.got) := by
  simp [actBlockEnd, hup, htransfer, hp, hseq, hwhole]

theorem actBlockRead_of_reach (hlen : p.length = 4) (hbar : s.barred rq.src e i j none s.callRooms = none) (hwo : e.row.acc ≠ .wo)
    (hcmd : e.row.acc ≠ .cmd) :
    actBlockRead rq p e i j s = ((stOk, ((readEnt rq.src e i j s).1.drop (ofLe p)).take 256), (readEnt rq.src e i j s).2) := by
  simp [actBlockRead, State.judgeRead, hlen, hbar, hwo, hcmd]

end

/-- Settles O26: each request of a transfer reaches its entry, and its act takes the branch that accepts it. -/
theorem blockTransfers : Obligations.BlockTransfers := by
  intro rq index sub p e i j s hat hlive hclass u key
  refine ⟨fun ⟨hbar, hentry, hlen, hfit, helse⟩ => ?start, fun t ⟨hup, htransfer, hp, hseq, hroom⟩ => ?data,
    fun t ⟨hup, htransfer, hp, hseq, hwhole⟩ => ?whole, fun ⟨hlen, hbar, hwo, hcmd⟩ => ?read⟩
  case start =>
    rw [exec_blockStart, execBlockStart, blockFrame_of_entry hat hlive hclass (actBlockStart_of_free hbar hentry hlen hfit helse)]
  case data =>
    rw [exec_blockData, execBlockData, blockFrame_of_entry hat hlive hclass (actBlockData_of_next hup htransfer hp hseq hroom)]
  case whole =>
    intro w x
    have hact : actBlockEnd rq p e i j u = (x.1, x.2) := actBlockEnd_of_whole hup htransfer hp hseq hwhole
    rw [exec_blockEnd, execBlockEnd, blockFrame_of_entry hat hlive hclass hact]
  case read =>
    rw [exec_blockRead, execBlockRead, blockFrame_of_entry hat hlive hclass (actBlockRead_of_reach hlen hbar hwo hcmd)]
    rfl

/- ## What time ends, and the I3C target (R448, R449, R451, R452, R454) -/

theorem State.sess_endSess_rack (s : State) (mac : BitVec 48) : (s.endSess (.rack mac)).sess (.rack mac) = none := by
  simp [State.sess, State.endSess]

theorem State.i3cAddress_of_free {s : State} (haux : s.auxIn = true) (hfree : s.od.i3c.addr = 0) (addr : Nat) :
    s.i3cAddress addr = (s.setOd { s.od with i3c := { s.od.i3c with addr := addr } }).openSess .i3c := by
  have hopen : ¬((!s.auxIn) = true ∨ s.od.i3c.addr ≠ 0) := by simp [haux, hfree]
  rw [State.i3cAddress, if_neg hopen]
  rfl

theorem execPrivateRead_of_on {s : State} (h : s.i3cOn = true) :
    execPrivateRead s = .next (s.i3cNext.2.send (.i3c (s.i3cNext.1.take s.od.i3c.mrl))) := by
  have hon : ¬(!s.i3cOn) = true := by simp [h]
  rw [execPrivateRead, if_neg hon]

/-- Settles O27: each event that time brings finds its transfer, session or frame; each I3C command acts on the target alone. -/
theorem transportsEndAndI3c : Obligations.TransportsEndAndI3c := by
  constructor
  case left =>
    refine fun src index sub mac s => ⟨fun t ⟨ht, hidle⟩ => ?transfer, fun x ⟨hx, hidle⟩ => ⟨?session, s.sess_endSess_rack mac⟩,
      fun ⟨hbench, hlive⟩ => ?gap⟩
    case transfer => simp only [exec_blockTransferTimeout, execBlockTransferTimeout, ht, if_pos hidle]
    case session => simp only [exec_sessionIdleTimeout, execSessionIdleTimeout, hx, if_pos hidle]
    case gap => simp only [exec_uartFrameGap, execUartFrameGap, hbench, hlive, Bool.and_self, if_true]
  case right =>
    intro a b e n s i sets
    refine ⟨rfl, fun hstatic => ?byStatic, fun ⟨haux, hfree⟩ => ?address, fun haux => ⟨?reset, fun hbit => ⟨?enable, ?disable⟩, ?mwl, ?mrl, ?action⟩,
      rfl, rfl, rfl, rfl, rfl, ⟨_, rfl⟩, fun hon => ?read⟩
    case byStatic => rw [exec_setdasa, execSetdasa, if_pos hstatic]
    case address =>
      rw [State.i3cAddress_of_free haux hfree]
      obtain ⟨l, h⟩ := State.openSess_eq (s.setOd { s.od with i3c := { s.od.i3c with addr := a.toNat } }) .i3c
      rw [h]; rfl
    case reset => rw [exec_rstdaa, execRstdaa, if_pos haux]; rfl
    case enable => rw [exec_enec, execEnec, haux, hbit]; rfl
    case disable => rw [exec_disec, execDisec, haux, hbit]; rfl
    case mwl => rw [exec_setmwl, execSetmwl, if_pos haux]; rfl
    case mrl => rw [exec_setmrl, execSetmrl, if_pos haux]; rfl
    case action => rw [exec_rstact, execRstact, if_pos haux]; rfl
    case read => rw [exec_privateRead, execPrivateRead_of_on hon]

end Sys2Proof.Machine

/- # Functions, the start and the self-test slices -/

namespace Sys2Proof.Machine

/- ## Functions and the start (R457 to R459, R464 to R466) -/

section
variable {s : State} {f : FnId}

theorem execFunctionStarted_of_up (hstate : (s.fn f).state = .starting) (hkeeps : (s.fn f).pendDis = false) (hup : s.startedNow f = true) :
    execFunctionStarted f s = .next (s.fnOn f).retryAll := by
  rw [execFunctionStarted, if_pos ⟨hstate, by rw [hkeeps]; rfl, hup⟩]

theorem execFunctionSafePoint_of_pending (hstate : (s.fn f).state = .starting) (hpend : (s.fn f).pendDis = true) :
    execFunctionSafePoint f s = .next (s.fnStop f 0) := by
  rw [execFunctionSafePoint, if_pos ⟨hstate, hpend⟩]

theorem execFunctionStopped_of_drained (hstate : (s.fn f).state = .stopping) (hdrained : s.stoppedNow f = true) :
    execFunctionStopped f s = .next (s.fnOff f).retryAll := by
  rw [execFunctionStopped, if_pos ⟨hstate, hdrained⟩]

theorem execStartBegin_of_cause {c : Nat} (hcause : s.startCause = some c) (hmay : s.mayStart = true) (hidle : s.sec.erasing = none) :
    execStartBegin s = .next (s.startBegin c) := by
  simp only [execStartBegin, hcause, hmay, hidle, Option.isNone_none, and_self, if_true]

/-- What the end of a step that runs does. -/
def State.stepEndsWith (s : State) (e : StepEnd) : State :=
  match e with
  | .s01 ok => if ok then s.endS01 else s.stepFailed 1
  | .s02 ok => s.endS02 ok
  | .s03 l => s.endS03 l
  | .s04 l => s.endS04 l
  | .s05 l => s.endS05 l
  | .s06 l => s.endS06 l
  | .s07 l => s.endS07 l
  | .s08 mv t r f => s.endS08 mv t r f
  | .s09 => s.recoverFlush.passOn 9
  | .s10 => s.passOn 10
  | .s11 => if s.time.acquired then s.passOn 11 else s
  | .s12 v => s.endS12 v
  | .s13 r => s.goS13 r

theorem execStartStep_of_runs {e : StepEnd} (h : s.stepRuns (endNo e) = true) : execStartStep e s = .next (s.stepEndsWith e) := by
  have hruns : ¬(!s.stepRuns (endNo e)) = true := by simp [h]
  unfold execStartStep
  rw [if_neg hruns]
  cases e <;> rfl

theorem execStartStepLimit_of_due {n : Fin 14} {l : Nat} {late : List (BitVec 8)} (hlimit : s.stepLimit n = some l) (hruns : s.stepRuns n = true)
    (hdue : (s.startRec.step n).start + 4096 * l ≤ s.now) : execStartStepLimit n late s = .next (s.stepLate n late) := by
  simp only [execStartStepLimit, hlimit, hruns, hdue, and_self, if_true]

/- ## The self-test slices (R474 to R476) -/

@[simp] theorem State.loopPort_test (s : State) (x : Slice) (begin_ : Bool) : (s.loopPort x begin_).test = s.test := by
  unfold State.loopPort
  dsimp only
  split_ifs <;> rfl

/-- Nothing bars a slice at this boundary (R474, R475). -/
def State.sliceDue (s : State) : Prop :=
  s.time.pos = 0 ∧ (s.lifecycle = 1 ∨ s.lifecycle = 2) ∧ s.decided .selftestEnable 0 0 = 1 ∧ s.power.keeperDown = false
    ∧ (s.power.mode = .full ∨ s.power.mode = .capped) ∧ s.test.running = none ∧ s.power.step = 0
    ∧ s.test.last + 4096 * s.decided .sliceInterval 0 0 ≤ s.now

theorem execSliceStart_of_due {x : Slice} (hdue : s.sliceDue)
    (hnext : s.slicesLeft.find? (fun x => s.headroom x.kind && !s.recoveryIn x.region) = some x) :
    let u := (s.setTest { s.test with running := some (x, s.now), last := s.now, aborting := none }).loopPort x true
    execSliceStart s = .next (if x.kind = 8 then (u.groupPages x.region (x.unit - 0x240)).foldl State.dropLoft u
      else if x.kind = 2 ∨ x.kind = 3 then u.settleLanes else u) := by
  obtain ⟨hpos, hlife, henabled, hup, hmode, hidle, hstep, hlast⟩ := hdue
  have hruns : ¬(!(decide (s.time.pos = 0) && (decide (s.lifecycle = 1) || decide (s.lifecycle = 2)) && decide (s.decided .selftestEnable 0 0 = 1)
      && !s.power.keeperDown && (decide (s.power.mode = .full) || decide (s.power.mode = .capped)) && s.test.running.isNone
      && decide (s.power.step = 0) && decide (s.test.last + 4096 * s.decided .sliceInterval 0 0 ≤ s.now))) = true := by
    rw [← Bool.decide_or, ← Bool.decide_or, decide_eq_true hlife, decide_eq_true hmode]
    simp [hpos, henabled, hup, hidle, hstep, hlast]
  unfold execSliceStart
  dsimp only
  rw [if_neg hruns, hnext]
  rfl

/-- What the end of a slice leaves of the self-test and its port, passed or failed. -/
def State.sliceOver (s : State) (x : Slice) (fails : Nat) : State :=
  (s.setTest { s.test with running := none, aborting := none, done := s.test.done ++ [x], fails := s.test.fails + fails }).loopPort x false

/-- What a slice that failed keeps of what was measured, and writes. -/
def State.sliceFailed (s : State) (x : Slice) (measured limit : Nat) : State :=
  (s.setTest { s.test with failed := some (x, measured, limit) }).raise
    { code := 0xA010, sev := 2, region := x.region, unit := x.unit, args := leBytes 1 x.kind ++ leBytes 4 measured ++ leBytes 4 limit }

theorem State.sliceFailed_test (s : State) (x : Slice) (measured limit : Nat) :
    (s.sliceFailed x measured limit).test = { s.test with failed := some (x, measured, limit) } := State.raise_test _ _

theorem State.sliceOver_test (s : State) (x : Slice) (fails : Nat) : (s.sliceOver x fails).test =
    { s.test with running := none, aborting := none, done := s.test.done ++ [x], fails := s.test.fails + fails } := State.loopPort_test _ _ _

section
variable {x : Slice} {since : Nat} (hrun : s.test.running = some (x, since)) (hdue : since + 4096 * sliceCourses x.kind ≤ s.now)
  (measured limit : BitVec 32)
include hrun hdue

theorem execSliceEnd_of_pass : let u := s.sliceOver x 0
    execSliceEnd true measured limit s
      = .next (if x.kind = 9 then u.setTest { u.test with deaf := u.test.deaf.filter (· ≠ x.region) } else u).endRound := by
  have hlong : ¬s.now < since + 4096 * sliceCourses x.kind := by omega
  simp only [execSliceEnd, hrun, if_neg hlong, and_true, if_true]
  rfl

theorem execSliceEnd_of_fail : execSliceEnd false measured limit s
    = .next ((s.sliceOver x 1).sliceFailed x measured.toNat limit.toNat).endRound := by
  have hlong : ¬s.now < since + 4096 * sliceCourses x.kind := by omega
  simp only [execSliceEnd, hrun, if_neg hlong, Bool.false_eq_true, and_false, if_false]
  rfl

end
end

/-- Settles O50: each event finds what its rule asks for, and a step's end is looked up by its kind. -/
theorem functionsStartsAndSlices : Obligations.FunctionsStartsAndSlices := by
  intro s f e n late measured limit w
  refine ⟨fun ⟨hstate, hkeeps, hup⟩ => ?started, fun ⟨hstate, hpend⟩ => ?safePoint, fun ⟨hstate, hdrained⟩ => ?stopped,
    fun c ⟨hcause, hmay, hidle⟩ => ?begins, fun hruns => ?step, fun l ⟨hlimit, hruns, hdue⟩ => ?late, fun x hx => ?slice,
    fun x since ⟨hrun, hdue⟩ => ?ended⟩
  case started => rw [exec_functionStarted, execFunctionStarted_of_up hstate hkeeps hup]
  case safePoint => rw [exec_functionSafePoint, execFunctionSafePoint_of_pending hstate hpend]
  case stopped => rw [exec_functionStopped, execFunctionStopped_of_drained hstate hdrained]
  case begins => rw [exec_startBegin, execStartBegin_of_cause hcause hmay hidle]
  case step =>
    rw [exec_startStep, execStartStep_of_runs hruns]
    refine ⟨?_, ?_, ?_, ?_, ?_, ?_, ?_, ?_, ?_, ?_, ?_, ?s11, ?_, ?_⟩
    case s11 => rintro ⟨rfl, hacquired⟩; rw [State.stepEndsWith, if_pos hacquired]
    all_goals intros; subst e; rfl
  case late => rw [exec_startStepLimit, execStartStepLimit_of_due hlimit hruns hdue]
  case slice =>
    obtain ⟨hpos, hlife, henabled, hup, hmode, hidle, hstep, hlast, hnext⟩ := hx
    intro u
    rw [exec_sliceStart, execSliceStart_of_due ⟨hpos, hlife, henabled, hup, hmode, hidle, hstep, hlast⟩ hnext]
  case ended =>
    intro u
    refine ⟨?pass, (s.sliceOver x 1).sliceFailed x measured.toNat limit.toNat, ?fail, ?kept⟩
    case pass => rw [exec_sliceEnd, execSliceEnd_of_pass hrun hdue]; rfl
    case fail => rw [exec_sliceEnd, execSliceEnd_of_fail hrun hdue]
    case kept =>
      rw [State.sliceFailed_test, State.sliceOver_test]
      exact ⟨rfl, rfl, rfl, rfl⟩

end Sys2Proof.Machine

/- # The vault -/

namespace Sys2Proof.Machine

/- ## The vault's requests (R486, R498, R501) -/

theorem actVaultJoin_of_clear {s : State} {v : Nat} (views : List PeerView) (hone : v = 1) (hclear : s.poolConflict = false) :
    actVaultJoin v views s = (rOk, ((if s.vault.mode = .joined then s else s.joinSelf).tryPeers State.notJoined views).retryAll) := by
  simp [actVaultJoin, hone, hclear]

/-- No page has moved from here or to here, so that the module may leave (R501). -/
def State.movedNone (s : State) : Prop :=
  s.vault.records = [] ∧ s.vault.here = [] ∧ s.vault.leaving = [] ∧ s.vault.far.any (fun e => decide (e.2 = FarMode.landed)) = false

theorem actVaultLeave_of_movedNone {s : State} {v : Nat} (hone : v = 1) (h : s.movedNone) :
    actVaultLeave v s = (rOk, ((s.vault.far.foldl (fun s e => s.dropReserve e.1) s).setVault { s.vault with
      mode := .standalone, peers := [], far := [], lostPages := [], lossSaid := [], again := [], gather := [] }).retryAll) := by
  obtain ⟨hrecords, hhere, hleaving, hlanded⟩ := h
  have hnone : ¬(!s.vault.records.isEmpty || !s.vault.here.isEmpty || !s.vault.leaving.isEmpty
      || s.vault.far.any fun e => decide (e.2 = FarMode.landed)) = true := by
    rw [hrecords, hhere, hleaving, hlanded]; decide
  unfold actVaultLeave
  dsimp only
  rw [if_neg (not_not.mpr hone), if_neg hnone]

theorem actPeerFailed_of_joined {s : State} {m : Nat} (h : (s.peer m).st = .joined) : actPeerFailed m s = (rOk, s.losePeer m 1) := if_pos h

theorem actPoolGather_of_joined {s : State} {v : Nat} (room : Nat) (hone : v = 1) (h : s.vault.mode = .joined) :
    let ks := (s.vault.records.map (·.1)).filter fun k => decide (pageRoom k = room) && !s.vault.gather.contains k
    actPoolGather room v s = (rOk, ((s.setVault { s.vault with gather := s.vault.gather ++ ks }).settleGather).retryAll) := by
  simp [actPoolGather, hone, h]

/-- Settles O24: each request reaches its entry, and its act takes the branch that its rule names. -/
theorem vaultRequestsTakeEffect : Obligations.VaultRequestsTakeEffect := by
  intro rq p s u
  refine ⟨fun views ⟨h, hone, hclear⟩ => ?join, fun ⟨h, hone, hmoved⟩ => ?leave, fun ⟨h, hjoined⟩ => ?failed, fun room ⟨h, hone, hjoined⟩ => ?gather⟩
  case join => rw [exec_vaultJoin, execVaultJoin, odWrite_acts h (actVaultJoin_of_clear views hone hclear)]
  case leave => rw [exec_vaultLeave, execVaultLeave, odWrite_acts h (actVaultLeave_of_movedNone hone hmoved)]
  case failed => rw [exec_peerFailed, execPeerFailed, odWrite_acts h (actPeerFailed_of_joined hjoined)]
  case gather => rw [exec_poolGather, execPoolGather, odWrite_acts h (actPoolGather_of_joined room hone hjoined)]

/- ## The vault's events (R487, R489, R498) -/

/-- The members that the retry of every 500,000 courses tries (R487, R488). -/
def State.triedAgain (s : State) (m : Nat) : Bool :=
  decide ((s.peer m).st = .unknown) || decide ((s.peer m).st = .refused)
    || (s.peer m).again && (decide ((s.peer m).st = .lost) || decide ((s.peer m).st = .fenced))

theorem execJoinRetry_of_due {s : State} (views : List PeerView) (hdue : s.vault.triedAt + 500000 * 4096 ≤ s.now) :
    let u := (if s.vault.mode = .joining ∧ s.power.mode ≠ .starting then s.joinSelf else s).tryPeers State.triedAgain views
    execJoinRetry views s = .next ((u.setVault { u.vault with triedAt := s.now }).retryAll) := by
  unfold execJoinRetry
  simp only [decide_eq_true hdue, Bool.true_and, if_true, true_and]
  rfl

theorem execAliveSend_of_member {s : State} (h : s.vault.mode = .joined ∨ s.vault.mode = .fenced) :
    execAliveSend s = .next (s.poolPeers.foldl (fun s m =>
      if (s.peer m).sent + 256 * 4096 ≤ s.now then s.tell m 11 s.ownIndex 0 0 (leBytes 8 (s.val .vaultEpoch 0 0)) else s) s) := by
  have hmember : ¬(s.vault.mode ≠ .joined ∧ s.vault.mode ≠ .fenced) := by tauto
  rw [execAliveSend, if_neg hmember]

/- ## PageMove messages (R488 to R497) -/

/-- A message with this TAG is taken from the port: its link is Up to a peer, the TAG is free, and the module is up and not in Quiet. -/
structure State.takesMoves (s : State) (port tag : Nat) : Prop where
  up : s.isUp port = true
  peer : s.roleOf port = .peer
  awake : s.quieted = false
  stays : s.power.exitAt = none
  live : s.vaultLive = true
  free : s.tagOpen port tag = false

/-- The state once a PageMove's sender has been heard and the message answered OK. -/
def State.heardMove (s : State) (port tag src : Nat) : State := (s.hear src).respond port tag 0 none 0

section
variable {s : State} {port tag src kind : Nat} {act : State → State} {takes : State → Bool}

theorem State.moveIn_of_taken (h : s.takesMoves port tag) (htakes : takes (s.heardMove port tag src) = true) :
    s.moveIn port tag src kind act takes =
      let u := s.heardMove port tag src
      if (u.peer src).st = .fenced ∧ kind < 11 then u.tell src 9 0 3 0 [] else if u.heeds src kind then (act u).retryAll else u := by
  have hlink : ¬((!s.isUp port) = true ∨ s.roleOf port ≠ .peer) := by simp [h.up, h.peer]
  have htag : ¬s.tagOpen port tag = true := by simp [h.free]
  have hquiet : ¬(s.quieted = true ∨ s.power.exitAt.isSome = true) := by simp [h.awake, h.stays]
  have hlive : ¬((!s.vaultLive) = true ∨ (!takes (s.heardMove port tag src)) = true) := by simp [h.live, htakes]
  unfold State.moveIn
  rw [if_neg hlink, if_neg htag, if_neg hquiet]
  exact if_neg hlive

/-- A message heeded from a member that is not Fenced is acted on. -/
theorem State.moveIn_of_heeded (h : s.takesMoves port tag) (htakes : takes (s.heardMove port tag src) = true)
    (hfenced : (s.heardMove port tag src |>.peer src).st ≠ .fenced) (hheeds : (s.heardMove port tag src).heeds src kind = true) :
    s.moveIn port tag src kind act takes = (act (s.heardMove port tag src)).retryAll := by
  rw [State.moveIn_of_taken h htakes]
  simp only [hfenced, false_and, hheeds, if_false, if_true]

/-- A Fenced member's message is answered MoveRefused, cause 3, unless it is Alive or Relay. -/
theorem State.moveIn_of_fenced (h : s.takesMoves port tag) (htakes : takes (s.heardMove port tag src) = true)
    (hfenced : (s.heardMove port tag src |>.peer src).st = .fenced) (hkind : kind < 11) :
    s.moveIn port tag src kind act takes = (s.heardMove port tag src).tell src 9 0 3 0 [] := by
  rw [State.moveIn_of_taken h htakes]
  exact if_pos ⟨hfenced, hkind⟩

/-- Alive and Relay are heeded from every member. -/
theorem State.moveIn_of_open (h : s.takesMoves port tag) (htakes : takes (s.heardMove port tag src) = true) (hkind : 11 ≤ kind) :
    s.moveIn port tag src kind act takes = (act (s.heardMove port tag src)).retryAll := by
  have hheeds : (s.heardMove port tag src).heeds src kind = true := by simp [State.heeds, hkind]
  have hkept : ¬((s.heardMove port tag src |>.peer src).st = .fenced ∧ kind < 11) := by omega
  rw [State.moveIn_of_taken h htakes]
  exact (if_neg hkept).trans (if_pos hheeds)

/-- Where there is no place for what the message brings, it is answered BUSY. -/
theorem State.moveIn_of_noPlace (h : s.takesMoves port tag) (hnone : takes (s.heardMove port tag src) = false) :
    s.moveIn port tag src kind act takes = s.respond port tag 7 none 0 := by
  have hlink : ¬((!s.isUp port) = true ∨ s.roleOf port ≠ .peer) := by simp [h.up, h.peer]
  have htag : ¬s.tagOpen port tag = true := by simp [h.free]
  have hquiet : ¬(s.quieted = true ∨ s.power.exitAt.isSome = true) := by simp [h.awake, h.stays]
  have hlive : (!s.vaultLive) = true ∨ (!takes (s.heardMove port tag src)) = true := .inr (by simp [hnone])
  unfold State.moveIn
  rw [if_neg hlink, if_neg htag, if_neg hquiet]
  exact if_pos hlive

end

/-- A MoveReq, and what resolves a move under way by its base, is heeded from every member that is not Fenced. -/
theorem State.heeds_always (s : State) (src : Nat) {kind : Nat} (h : kind = 1 ∨ kind = 7) : s.heeds src kind = true := by
  obtain rfl | rfl := h <;> simp [State.heeds]

/-- Page data is heeded from Joined members alone. -/
theorem State.heeds_data_of_fenced {s : State} {src : Nat} (h : (s.peer src).st = .fenced) : s.heeds src 3 = false := by
  simp [State.heeds, h]

/-- Settles O51: an event finds what its rule asks for; a message that is taken is acted on in the case that its chapter gives, or refused to a Fenced
sender, of which page data alone asks for a place first. -/
theorem vaultEventsAndMessages : Obligations.VaultEventsAndMessages := by
  intro s port tag src room page w epoch m k p
  refine ⟨fun views hdue => ?retry, fun hmember => ?alive, fun ⟨hjoined, hsilent⟩ => ?silence, rfl, fun ⟨hup, hrole, hawake, hstays, hlive, htag⟩ => ?taken⟩
  case retry => rw [exec_joinRetry]; exact execJoinRetry_of_due views hdue
  case alive => rw [exec_aliveSend, execAliveSend_of_member hmember]
  case silence => rw [exec_peerSilence, execPeerSilence, if_pos ⟨hjoined, hsilent⟩]
  case taken =>
    have h : s.takesMoves port tag.toNat := ⟨hup, hrole, hawake, hstays, hlive, htag⟩
    intro u fenced
    refine ⟨fun hfree => ?heeded, fun hfenced t ht => ?refused, ?aliveHeard, fun frame => ?relay⟩
    case heeded =>
      have hacts {kind : Nat} {act : State → State} {t : State} (hheeds : u.heeds src.toNat kind = true) (hact : act u = t) :
          s.moveIn port tag.toNat src.toNat kind act = t.retryAll :=
        (State.moveIn_of_heeded h rfl hfree hheeds).trans (congrArg State.retryAll hact)
      refine ⟨?req, fun target ⟨hheeds, hpool, hhome, hbase, hstays⟩ => ?order, fun gen data ⟨hheeds, hawaited⟩ => ?data,
        fun ⟨hheeds, hawaited⟩ => ?empty, fun ⟨hheeds, hawaited⟩ => ?soon, fun r ⟨hheeds, hrecord, htarget⟩ => ?ack,
        fun ⟨hbase, hleaving⟩ => ⟨?release, ?unfreeze⟩, fun done ⟨hbase, hstays, hfar⟩ => ?confirm,
        fun cause ⟨hheeds, hawaited, hbase⟩ => ?defer, fun cause hheeds => ?moveRefused, fun hheeds => ?query⟩
      case req => rw [exec_moveReq, execMoveReq, hacts (State.heeds_always _ _ (.inl rfl)) rfl]
      case order =>
        have hact : (u.isPool k && u.homedHere k && decide (u.baseModule k = src.toNat) && (Tbl.find u.vault.leaving k).isNone) = true := by
          simp [hpool, hhome, hbase, hstays]
        rw [exec_moveOrder, execMoveOrder]
        exact congrArg _ (hacts hheeds (if_pos hact))
      case data =>
        rw [exec_moveData, execMoveData]
        by_cases hfits : u.pageFits k gen.toNat data = true
        · have htakes : (!u.heeds src.toNat 3 || !u.awaited k || u.pageFits k gen.toNat data) = true := by simp [hfits]
          rw [if_pos hfits]
          exact congrArg _ ((State.moveIn_of_heeded h htakes hfree hheeds).trans (congrArg State.retryAll (if_pos hawaited)))
        · have hnone : (!u.heeds src.toNat 3 || !u.awaited k || u.pageFits k gen.toNat data) = false := by simp [hheeds, hawaited, hfits]
          rw [if_neg hfits]
          exact congrArg _ (State.moveIn_of_noPlace h hnone)
      case empty => rw [exec_moveEmpty, execMoveEmpty]; exact congrArg _ (hacts hheeds (if_pos hawaited))
      case soon => rw [exec_moveSoon, execMoveSoon]; exact congrArg _ (hacts hheeds (if_pos hawaited))
      case ack =>
        rw [exec_moveAck, execMoveAck]
        refine congrArg _ (hacts hheeds ?_)
        simp only [k] at hrecord
        simp only [hrecord, if_pos htarget]
        rfl
      case release =>
        rw [exec_moveRelease, execMoveRelease]
        exact congrArg _ (hacts (State.heeds_always _ _ (.inr rfl)) ((if_neg (not_not.mpr hbase)).trans (if_pos hleaving)))
      case unfreeze =>
        rw [exec_moveRelease, execMoveRelease]
        exact congrArg _ (hacts (State.heeds_always _ _ (.inr rfl)) ((if_neg (not_not.mpr hbase)).trans (if_pos hleaving)))
      case confirm =>
        have hkept : ¬(Tbl.find u.vault.leaving k).isSome = true := by simpa using hstays
        rw [exec_moveRelease, execMoveRelease]
        exact congrArg _ (hacts (State.heeds_always _ _ (.inr rfl)) ((if_neg (not_not.mpr hbase)).trans ((if_neg hkept).trans (if_pos hfar))))
      case defer => rw [exec_moveDefer, execMoveDefer]; exact congrArg _ (hacts hheeds (if_pos ⟨hawaited, hbase⟩))
      case moveRefused => rw [exec_moveRefused, execMoveRefused, hacts hheeds rfl]
      case query => rw [exec_moveQuery, execMoveQuery, hacts hheeds rfl]
    case refused =>
      have hrefuses (kind : Nat) (act : State → State) (hkind : kind < 11) : s.moveIn port tag.toNat src.toNat kind act = t :=
        (State.moveIn_of_fenced h rfl hfenced hkind).trans ht.symm
      refine ⟨?noReq, fun target => ?noOrder, fun gen data => ?noData, ?noEmpty, ?noSoon, ?noAck, fun done => ?noRelease, fun cause => ⟨?noDefer, ?noMoveRefused⟩, ?noQuery⟩
      case noReq => rw [exec_moveReq, execMoveReq, hrefuses 1 _ (by decide)]
      case noOrder => rw [exec_moveOrder, execMoveOrder, hrefuses 2 _ (by decide)]
      case noData =>
        have htakes : (!u.heeds src.toNat 3 || !u.awaited k || u.pageFits k gen.toNat data) = true := by
          rw [State.heeds_data_of_fenced hfenced]; rfl
        rw [exec_moveData, execMoveData]
        exact congrArg _ ((State.moveIn_of_fenced h htakes hfenced (by decide)).trans ht.symm)
      case noEmpty => rw [exec_moveEmpty, execMoveEmpty, hrefuses 4 _ (by decide)]
      case noSoon => rw [exec_moveSoon, execMoveSoon, hrefuses 5 _ (by decide)]
      case noAck => rw [exec_moveAck, execMoveAck, hrefuses 6 _ (by decide)]
      case noRelease => rw [exec_moveRelease, execMoveRelease, hrefuses 7 _ (by decide)]
      case noDefer => rw [exec_moveDefer, execMoveDefer, hrefuses 8 _ (by decide)]
      case noMoveRefused => rw [exec_moveRefused, execMoveRefused, hrefuses 9 _ (by decide)]
      case noQuery => rw [exec_moveQuery, execMoveQuery, hrefuses 10 _ (by decide)]
    case aliveHeard => rw [exec_alive, execAlive]; exact congrArg _ (State.moveIn_of_open h rfl (by decide))
    case relay => rw [exec_relay, execRelay]; exact congrArg _ (State.moveIn_of_open h rfl (by decide))

end Sys2Proof.Machine

/- # Fuses stay burnt

The lifecycle log and SEAL_EPOCH change in two places only: an erase that ends (`execEraseDone`) and LC_ADVANCE (`actLcAdvance`). Every
other operation of the model is followed to show so, in the order of the model's files. A lemma `f_sec` says that `f` leaves the whole
Keystone as it was, `f_fuses` that it leaves the log and the epoch, `f_burns` that it keeps what is burnt. -/

namespace Sys2Proof.Machine

/-- The lifecycle log keeps every entry in its place, and SEAL_EPOCH, where it is at most 32, does not fall and stays at most 32. -/
def Sec.burnsTo (x y : Sec) : Prop := x.log <+: y.log ∧ (x.epoch ≤ 32 → x.epoch ≤ y.epoch ∧ y.epoch ≤ 32)

@[simp] theorem Sec.burnsTo_self (x : Sec) : x.burnsTo x := ⟨List.prefix_refl _, fun h => ⟨Nat.le_refl _, h⟩⟩

theorem Sec.burnsTo_trans {x y z : Sec} (h : x.burnsTo y) (h' : y.burnsTo z) : x.burnsTo z := by
  obtain ⟨hlog, hepoch⟩ := h
  obtain ⟨hlog', hepoch'⟩ := h'
  refine ⟨hlog.trans hlog', fun hx => ?_⟩
  obtain ⟨hxy, hy⟩ := hepoch hx
  obtain ⟨hyz, hz⟩ := hepoch' hy
  exact ⟨hxy.trans hyz, hz⟩

@[simp] theorem Sec.burnsTo_of_same {x y : Sec} (hlog : y.log = x.log) (hepoch : y.epoch = x.epoch) : x.burnsTo y := by
  simp [Sec.burnsTo, hlog, hepoch]

/-- Whatever state an outcome leads to, it keeps the fuses of `x`. -/
def Sec.burnsIn (x : Sec) (o : Host.Outcome State Fault Refusal) : Prop := ∀ t, o = .next t → x.burnsTo t.sec

@[simp] theorem Sec.burnsIn_next (x : Sec) (t : State) : x.burnsIn (.next t) ↔ x.burnsTo t.sec := by simp [Sec.burnsIn]

theorem Sec.burnsIn_ite {x : Sec} {p : Prop} [Decidable p] {o o' : Host.Outcome State Fault Refusal} (h : x.burnsIn o) (h' : x.burnsIn o') :
    x.burnsIn (if p then o else o') := by
  split
  · exact h
  · exact h'

@[simp] theorem State.ite_sec (p : Prop) [Decidable p] (s t : State) : (if p then s else t).sec = if p then s.sec else t.sec :=
  apply_ite State.sec p s t

@[simp] theorem Sec.ite_log (p : Prop) [Decidable p] (x y : Sec) : (if p then x else y).log = if p then x.log else y.log :=
  apply_ite Sec.log p x y
@[simp] theorem Sec.ite_epoch (p : Prop) [Decidable p] (x y : Sec) : (if p then x else y).epoch = if p then x.epoch else y.epoch :=
  apply_ite Sec.epoch p x y

/-- A walk along a list keeps the Keystone's state where each step does. -/
@[simp] theorem foldl_sec {α : Type} {g : State → α → State} (h : ∀ s x, (g s x).sec = s.sec) (l : List α) (s : State) :
    (l.foldl g s).sec = s.sec := foldl_unchanged State.sec h l s

/-- So does a walk that carries a value along beside the state. -/
theorem foldl_pair_sec {α β : Type} {g : β × State → α → β × State} (h : ∀ x a, (g x a).2.sec = x.2.sec) (l : List α) (b : β)
    (s : State) : (l.foldl g (b, s)).2.sec = s.sec := foldl_unchanged (fun x => x.2.sec) h l (b, s)

/-- A walk along a list keeps the fuses where each step does. -/
theorem foldl_fuses {α : Type} {g : State → α → State} (hlog : ∀ s x, (g s x).sec.log = s.sec.log)
    (hepoch : ∀ s x, (g s x).sec.epoch = s.sec.epoch) (l : List α) (s : State) :
    (l.foldl g s).sec.log = s.sec.log ∧ (l.foldl g s).sec.epoch = s.sec.epoch :=
  ⟨foldl_unchanged (fun u => u.sec.log) hlog l s, foldl_unchanged (fun u => u.sec.epoch) hepoch l s⟩

/-- The state that a call leaves beside its result. -/
theorem snd_sec_of_eq {α : Type} {p : α × State} {a : α} {s : State} (h : p = (a, s)) : s.sec = p.2.sec := by rw [h]

/-- What may be left undone keeps the Keystone's state where what is done does. -/
theorem getD_sec {o : Option State} {s : State} (h : ∀ t, o = some t → t.sec = s.sec) : (o.getD s).sec = s.sec := by
  cases o with
  | none => rfl
  | some t => exact h t rfl

/- ## Dictionary values, function words, events -/

@[simp] theorem State.keepLate_sec (s : State) (e i j) : (s.keepLate e i j).sec = s.sec := by simp [State.keepLate]
@[simp] theorem State.setVal_sec (s : State) (e i j v) : (s.setVal e i j v).sec = s.sec := by simp [State.setVal]
@[simp] theorem State.setBlob_sec (s : State) (e i j v) : (s.setBlob e i j v).sec = s.sec := by simp [State.setBlob]
@[simp] theorem State.setPair_sec (s : State) (k c v) : (s.setPair k c v).sec = s.sec := by simp [State.setPair]
@[simp] theorem State.updPair_sec (s : State) (k c f) : (s.updPair k c f).sec = s.sec := by simp [State.updPair]
@[simp] theorem State.draw_sec (s : State) : (s.draw).2.sec = s.sec := by simp [State.draw]
@[simp] theorem State.queueTx_sec (s : State) (p head data cost) : (s.queueTx p head data cost).sec = s.sec := by simp [State.queueTx]
@[simp] theorem State.odFlit_sec (s : State) (p frame) : (s.odFlit p frame).sec = s.sec := by simp [State.odFlit]
@[simp] theorem State.raiseAll_sec (s : State) (es : List Ev) : (s.raiseAll es).sec = s.sec := by
  induction es generalizing s with
  | nil => rfl
  | cons e es ih => rw [State.raiseAll, ih, State.raise_sec]
@[simp] theorem State.unholdN_sec (s : State) (n : Nat) : (s.unholdN n).sec = s.sec := by
  obtain ⟨t, q, o, h⟩ := State.unholdN_eq n s; rw [h]; rfl
@[simp] theorem State.fnTo_sec (s : State) (f w) : (s.fnTo f w).sec = s.sec := by simp [State.fnTo]
@[simp] theorem State.fnHold_sec (s : State) (f cause) : (s.fnHold f cause).sec = s.sec := by
  unfold State.fnHold; dsimp only; (repeat' split) <;> simp

/- ## Units and their retirement -/

@[simp] theorem State.holdCluster_sec (s : State) (region unit) : (s.holdCluster region unit).sec = s.sec := by
  unfold State.holdCluster; (repeat' split) <;> simp
@[simp] theorem State.markRetired_sec (s : State) (region unit level cause) : (s.markRetired region unit level cause).sec = s.sec := by
  simp [State.markRetired]
@[simp] theorem State.checkCluster_sec (s : State) (region unit base n least) : (s.checkCluster region unit base n least).sec = s.sec := by
  simp [State.checkCluster]
@[simp] theorem State.settleLanes_sec (s : State) : s.settleLanes.sec = s.sec := by simp [State.settleLanes]
@[simp] theorem State.checkClusterOf_sec (s : State) (region unit) : (s.checkClusterOf region unit).sec = s.sec := by simp [State.checkClusterOf]
@[simp] theorem State.retireUnit_sec (s : State) (region unit cause) : (s.retireUnit region unit cause).sec = s.sec := by simp [State.retireUnit]

/- ## The Store controller -/

@[simp] theorem State.setRank_sec (s : State) (region rank m) : (s.setRank region rank m).sec = s.sec := by simp [State.setRank]
@[simp] theorem State.setChan_sec (s : State) (n c) : (s.setChan n c).sec = s.sec := by simp [State.setChan]
theorem State.reRun_sec {s t : State} {k bays keep} (h : s.reRun k bays keep = some t) : t.sec = s.sec := by
  unfold State.reRun at h; (repeat' split at h) <;> simp at h <;> subst h <;> simp
@[simp] theorem State.accessRow_sec (s : State) (ch rank bank row) : (s.accessRow ch rank bank row).sec = s.sec := by simp [State.accessRow]
@[simp] theorem State.flagWritten_sec (s : State) (region bay) : (s.flagWritten region bay).sec = s.sec := by
  unfold State.flagWritten; split <;> simp
@[simp] theorem State.accessBay_sec (s : State) (region rank bay) : (s.accessBay region rank bay).sec = s.sec := by simp [State.accessBay]
@[simp] theorem execUrgencyUpdate_burns (s : State) : s.sec.burnsIn (execUrgencyUpdate s) := by simp [execUrgencyUpdate]
@[simp] theorem execRowIdle_burns (channel rank bank) (s : State) : s.sec.burnsIn (execRowIdle channel rank bank s) := by
  unfold execRowIdle; split <;> simp
@[simp] theorem State.issueWrites_sec (s : State) (ch n : Nat) : (s.issueWrites ch n).sec = s.sec := by
  induction n generalizing s with
  | zero => rfl
  | succ n ih =>
    unfold State.issueWrites
    split
    · rfl
    · simp [ih]
@[simp] theorem execWriteQueueDrain_burns (channel) (s : State) : s.sec.burnsIn (execWriteQueueDrain channel s) := by
  unfold execWriteQueueDrain; dsimp only; (repeat' split) <;> simp
@[simp] theorem State.placeRefresh_sec (s : State) : s.placeRefresh.sec = s.sec := by simp [State.placeRefresh]
@[simp] theorem execRefreshForced_burns (channel rank) (s : State) : s.sec.burnsIn (execRefreshForced channel rank s) := by
  unfold execRefreshForced; dsimp only; (repeat' split) <;> simp
@[simp] theorem execRowHammerRefresh_burns (channel rank bank row) (s : State) : s.sec.burnsIn (execRowHammerRefresh channel rank bank row s) := by
  unfold execRowHammerRefresh; dsimp only; (repeat' split) <;> simp
@[simp] theorem execRhTableClear_burns (s : State) : s.sec.burnsIn (execRhTableClear s) := by
  simp only [execRhTableClear]; (repeat' split) <;> simp
@[simp] theorem State.startMigration_sec (s : State) (region rank cause) : (s.startMigration region rank cause).sec = s.sec := by
  unfold State.startMigration; split <;> simp
@[simp] theorem State.retireRankAs_sec (s : State) (region rank cause unitCause) : (s.retireRankAs region rank cause unitCause).sec = s.sec := by
  simp [State.retireRankAs]
@[simp] theorem State.retireRank_sec (s : State) (region rank cause) : (s.retireRank region rank cause).sec = s.sec := by simp [State.retireRank]
@[simp] theorem State.retireChannelRanks_sec (s : State) (ch cause) : (s.retireChannelRanks ch cause).sec = s.sec := by
  simp [State.retireChannelRanks]
@[simp] theorem execRankMigrationStart_burns (region) (s : State) : s.sec.burnsIn (execRankMigrationStart region s) := by
  unfold execRankMigrationStart; (repeat' split) <;> simp
@[simp] theorem State.copyFrames_sec (s : State) (bad : Nat → Bool) (l : List (Nat × Frame)) : (s.copyFrames bad l).2.sec = s.sec := by
  induction l generalizing s with
  | nil => rfl
  | cons kf l ih =>
    unfold State.copyFrames
    dsimp only
    split
    · split
      · next u h => rw [ih, State.reRun_sec h]
      · exact ih s
    · exact ih s
@[simp] theorem execTrainingSweep_burns (channel) (s : State) : s.sec.burnsIn (execTrainingSweep channel s) := by
  unfold execTrainingSweep; dsimp only; (repeat' split) <;> simp
@[simp] theorem execTrainingSweepEnd_burns (channel narrowest failedLanes) (s : State) :
    s.sec.burnsIn (execTrainingSweepEnd channel narrowest failedLanes s) := by
  unfold execTrainingSweepEnd; dsimp only; (repeat' split) <;> simp
@[simp] theorem State.pauseChan_sec (s : State) (ch) : (s.pauseChan ch).sec = s.sec := by simp [State.pauseChan]
@[simp] theorem State.waveChan_sec (p ch) (s : State) : (State.waveChan p s ch).sec = s.sec := by
  unfold State.waveChan; dsimp only; (repeat' split) <;> simp
@[simp] theorem execSetPointWave_burns (wave) (s : State) : s.sec.burnsIn (execSetPointWave wave s) := by
  unfold execSetPointWave; split <;> simp
@[simp] theorem State.pauseDue_sec (s : State) : s.pauseDue.sec = s.sec := by simp [State.pauseDue]
@[simp] theorem State.endChanges_sec (s : State) (ch) : (s.endChanges ch).sec = s.sec := by simp [State.endChanges]
@[simp] theorem execSetPointResume_burns (channel) (s : State) : s.sec.burnsIn (execSetPointResume channel s) := by
  unfold execSetPointResume; dsimp only; (repeat' split) <;> simp
@[simp] theorem State.decidePoint_sec (s : State) (new) : (s.decidePoint new).sec = s.sec := by simp [State.decidePoint]
@[simp] theorem State.settleBudgetPoint_sec (s : State) : s.settleBudgetPoint.sec = s.sec := by simp [State.settleBudgetPoint]

/- ## Pages and quotas -/

@[simp] theorem State.agePages_sec (s : State) : s.agePages.sec = s.sec := by simp [State.agePages]
@[simp] theorem State.settleReserve_sec (s : State) : s.settleReserve.sec = s.sec := by simp [State.settleReserve]
@[simp] theorem State.returnOverdraft_sec (s : State) (room) : (s.returnOverdraft room).sec = s.sec := by simp [State.returnOverdraft]
@[simp] theorem State.settleOverdraft_sec (s : State) (room) : (s.settleOverdraft room).sec = s.sec := by simp [State.settleOverdraft]
@[simp] theorem State.freeFrame_sec (s : State) (k) : (s.freeFrame k).sec = s.sec := by
  unfold State.freeFrame; split <;> simp
@[simp] theorem State.leaveStore_sec (s : State) (k m) : (s.leaveStore k m).sec = s.sec := by simp [State.leaveStore]
@[simp] theorem State.queueWriteBack_sec (s : State) (k step) : (s.queueWriteBack k step).sec = s.sec := by simp [State.queueWriteBack]
@[simp] theorem State.queueDemotion_sec (s : State) (k step) : (s.queueDemotion k step).sec = s.sec := by simp [State.queueDemotion]
@[simp] theorem State.queueSlot_sec (s : State) (bk) : (s.queueSlot bk).sec = s.sec := by
  unfold State.queueSlot; split <;> simp
@[simp] theorem State.queueSlots_sec (s : State) (f) : (s.queueSlots f).sec = s.sec := by simp [State.queueSlots]
@[simp] theorem State.parityError_sec (s : State) (region unit path poisoned room) : (s.parityError region unit path poisoned room).sec = s.sec := by
  simp [State.parityError]

/- ## Bricks and their media -/

@[simp] theorem State.layGroup_sec (s : State) (k) : (s.layGroup k).sec = s.sec := by simp [State.layGroup]
@[simp] theorem State.advanceGen_sec (s : State) (k) : (s.advanceGen k).sec = s.sec := by simp [State.advanceGen]
@[simp] theorem State.freshen_sec (s : State) (k) : (s.freshen k).sec = s.sec := by simp [State.freshen]
@[simp] theorem State.nextVersion_sec (s : State) (bk) : (s.nextVersion bk).2.sec = s.sec := by
  unfold State.nextVersion; dsimp only; (repeat' split) <;> simp
@[simp] theorem State.groupWritten_sec (s : State) (k) : (s.groupWritten k).sec = s.sec := by simp [State.groupWritten]
@[simp] theorem State.markUnit_sec (s : State) (region bay unit) : (s.markUnit region bay unit).sec = s.sec := by
  unfold State.markUnit; split <;> simp
@[simp] theorem execRankMigrationEnd_burns (region marked) (s : State) : s.sec.burnsIn (execRankMigrationEnd region marked s) := by
  unfold execRankMigrationEnd; (repeat' split) <;> simp
@[simp] theorem execSlotDeadCopyEnd_burns (copy) (s : State) : s.sec.burnsIn (execSlotDeadCopyEnd copy s) := by
  unfold execSlotDeadCopyEnd; dsimp only; (repeat' split) <;> simp

/- ## Overshoot and protection -/

@[simp] theorem State.setStair_sec (s : State) (t x) : (s.setStair t x).sec = s.sec := by simp [State.setStair]

/- ## The Cellar's translation layer -/

@[simp] theorem State.putImage_sec (s : State) (slot i) : (s.putImage slot i).sec = s.sec := by simp [State.putImage]
@[simp] theorem State.releaseSlot_sec (s : State) (slot) : (s.releaseSlot slot).sec = s.sec := by
  unfold State.releaseSlot; split <;> simp
@[simp] theorem State.refImage_sec (s : State) (slot) : (s.refImage slot).sec = s.sec := by
  unfold State.refImage; split <;> simp
@[simp] theorem State.unrefImage_sec (s : State) (slot) : (s.unrefImage slot).sec = s.sec := by
  unfold State.unrefImage; split <;> simp
@[simp] theorem State.setSuper_sec (s : State) (k b) : (s.setSuper k b).sec = s.sec := by simp [State.setSuper]
@[simp] theorem State.setCchan_sec (s : State) (c v) : (s.setCchan c v).sec = s.sec := by simp [State.setCchan]
theorem State.openRow.pick_sec {s t : State} {key : Nat} (h : State.openRow.pick key s = some t) : t.sec = s.sec := by
  unfold State.openRow.pick at h
  split at h
  · cases h
  · cases h; simp
theorem State.openRow_sec {s t : State} {key : Nat} (h : s.openRow key = some t) : t.sec = s.sec := by
  unfold State.openRow at h
  split at h
  · dsimp only at h
    split at h
    · cases h; rfl
    · exact State.openRow.pick_sec h
  · exact State.openRow.pick_sec h
@[simp] theorem State.closeRow_sec (s : State) (key) : (s.closeRow key).sec = s.sec := by
  unfold State.closeRow; split <;> simp
theorem State.placeItem_sec {s t : State} {key slot bytes : Nat} {page : Option Nat} (h : s.placeItem key slot bytes page = some t) :
    t.sec = s.sec := by
  unfold State.placeItem at h
  dsimp only at h
  split at h
  · obtain ⟨u, hu, rfl⟩ := Option.map_eq_some_iff.mp h
    split <;> simp [State.openRow_sec hu]
  · split at h
    · cases h; rfl
    · obtain ⟨u, hu, rfl⟩ := Option.map_eq_some_iff.mp h
      split <;> simp [State.openRow_sec hu]
@[simp] theorem State.placeItem_getD_sec (s : State) (key slot bytes : Nat) (page : Option Nat) :
    ((s.placeItem key slot bytes page).getD s).sec = s.sec := getD_sec fun _ => State.placeItem_sec
@[simp] theorem State.cancelItems_sec (s : State) (k : Nat) : (s.cancelItems k).sec = s.sec := by
  unfold State.cancelItems
  dsimp only
  rw [foldl_sec fun u x => ?_]
  · rfl
  · split
    · split <;> simp
    · rfl
@[simp] theorem State.moveItems_sec (s : State) (k k') : (s.moveItems k k').sec = s.sec := by simp [State.moveItems]
@[simp] theorem State.beginWriteBack_sec (s : State) (k : Nat) : (s.beginWriteBack k).sec = s.sec := by
  unfold State.beginWriteBack
  extract_lets p slot set tr
  split
  · simp
  · split
    · rfl
    · split
      · rfl
      · next u h =>
        dsimp only
        split <;> simp [State.placeItem_sec h]
@[simp] theorem State.pageProgrammed_sec (s : State) (k slot loc) : (s.pageProgrammed k slot loc).sec = s.sec := by
  unfold State.pageProgrammed; dsimp only; (repeat' split) <;> simp
@[simp] theorem State.rowItems_sec (s : State) (r : RowBuf) (l : List RowItem) : (s.rowItems r l).sec = s.sec := by
  induction l generalizing s with
  | nil => rfl
  | cons it l ih =>
    unfold State.rowItems
    dsimp only
    rw [ih]
    split
    · simp
    · split
      · split <;> simp
      · rfl
@[simp] theorem State.eraseVictims_sec (s : State) : s.eraseVictims.sec = s.sec := by simp [State.eraseVictims]
@[simp] theorem State.retireBlock_sec (s : State) (f cause) : (s.retireBlock f cause).sec = s.sec := by simp [State.retireBlock]
@[simp] theorem State.runWithout_sec (s : State) (k p plane) : (s.runWithout k p plane).sec = s.sec := by simp [State.runWithout]
@[simp] theorem State.swapIn_sec (s : State) (k p plane b) : (s.swapIn k p plane b).sec = s.sec := by simp [State.swapIn]
@[simp] theorem State.replaceBlock_sec (s : State) (k p plane) : (s.replaceBlock k p plane).sec = s.sec := by
  unfold State.replaceBlock; dsimp only; (repeat' split) <;> simp
@[simp] theorem State.readMarks_sec (s : State) (die) : (s.readMarks die).sec = s.sec := by simp [State.readMarks]
@[simp] theorem State.failBlock_sec (s : State) (k f cause) : (s.failBlock k f cause).sec = s.sec := by simp [State.failBlock]
@[simp] theorem State.replace_sec (s : State) (key : Nat) (l : List RowItem) : (s.replace key l).sec = s.sec := by
  induction l generalizing s with
  | nil => rfl
  | cons it l ih =>
    unfold State.replace
    dsimp only
    rw [ih]
    split <;> simp
@[simp] theorem State.wearCheck_sec (s : State) : s.wearCheck.sec = s.sec := by simp [State.wearCheck]
@[simp] theorem State.endProgram_sec (s : State) (key r) : (s.endProgram key r).sec = s.sec := by simp [State.endProgram]
@[simp] theorem execRowProgramTimer_burns (set relocation) (s : State) : s.sec.burnsIn (execRowProgramTimer set relocation s) := by
  unfold execRowProgramTimer; dsimp only; (repeat' split) <;> simp
@[simp] theorem State.startFetches_sec (s : State) (channel limit n : Nat) : (s.startFetches channel limit n).sec = s.sec := by
  induction n generalizing s with
  | zero => rfl
  | succ n ih =>
    unfold State.startFetches
    dsimp only
    split
    · rfl
    · split
      · rfl
      · simp [ih]
@[simp] theorem State.addFetch_sec (s : State) (k kind i loft step) : (s.addFetch k kind i loft step).sec = s.sec := by simp [State.addFetch]
@[simp] theorem State.needPage_sec (s : State) (k loft) : (s.needPage k loft).2.sec = s.sec := by
  unfold State.needPage; (repeat' split) <;> simp
@[simp] theorem State.queueFetch_sec (s : State) (k kind loft) : (s.queueFetch k kind loft).sec = s.sec := by
  unfold State.queueFetch; (repeat' split) <;> simp
@[simp] theorem State.serveFetches_sec (s : State) : s.serveFetches.sec = s.sec := by simp [State.serveFetches]
@[simp] theorem State.senseImage_sec (s : State) (i) : (s.senseImage i).sec = s.sec := by
  unfold State.senseImage; split <;> simp
@[simp] theorem execCellarReadRecovered_burns (slot how bits) (s : State) : s.sec.burnsIn (execCellarReadRecovered slot how bits s) := by
  unfold execCellarReadRecovered; dsimp only; (repeat' split) <;> simp
@[simp] theorem State.rebuildItems_sec (s : State) (set : Nat) (slots : List Nat) : (s.rebuildItems set slots).sec = s.sec := by
  refine foldl_sec (fun u x => ?_) slots s
  split <;> simp
@[simp] theorem State.takeRebuilds_sec (s : State) (was) : (s.takeRebuilds was).sec = s.sec := by simp [State.takeRebuilds]
@[simp] theorem State.hurryFetches_sec (s : State) (channel ways) : (s.hurryFetches channel ways).sec = s.sec := by simp [State.hurryFetches]
@[simp] theorem State.startRebuild_sec (s : State) (channel ways) : (s.startRebuild channel ways).sec = s.sec := by simp [State.startRebuild]
@[simp] theorem State.disableCchan_sec (s : State) (channel) : (s.disableCchan channel).sec = s.sec := by simp [State.disableCchan]
@[simp] theorem State.retireDie_sec (s : State) (channel way cause) : (s.retireDie channel way cause).sec = s.sec := by simp [State.retireDie]
@[simp] theorem State.retireCchan_sec (s : State) (channel cause) : (s.retireCchan channel cause).sec = s.sec := by simp [State.retireCchan]
@[simp] theorem execCellarRebuildEnd_burns (set) (s : State) : s.sec.burnsIn (execCellarRebuildEnd set s) := by
  unfold execCellarRebuildEnd; dsimp only; (repeat' split) <;> simp
@[simp] theorem execMapCheckpoint_burns (s : State) : s.sec.burnsIn (execMapCheckpoint s) := by simp [execMapCheckpoint]
@[simp] theorem execCellarChannelTraining_burns (channel) (s : State) : s.sec.burnsIn (execCellarChannelTraining channel s) := by
  unfold execCellarChannelTraining; dsimp only; (repeat' split) <;> simp
@[simp] theorem State.relocate_sec (s : State) (k : Nat) : (s.relocate k).sec = s.sec := by
  refine foldl_sec (fun u x => ?_) _ s
  split
  · next i _ =>
    cases h : (u.senseImage i).placeItem (rowKey (sbSet k) true) x (imageBytes i.bricks) none with
    | none => rfl
    | some t => simpa using State.placeItem_sec h
  · rfl
@[simp] theorem State.boundMap_sec (s : State) : s.boundMap.sec = s.sec := by simp [State.boundMap]
@[simp] theorem State.wornDie_sec (s : State) (f) : (s.wornDie f).sec = s.sec := by simp [State.wornDie]
@[simp] theorem State.rowParity_sec (s : State) (r : RowBuf) (l : List (PageId × Bool)) : (s.rowParity r l).1.sec = s.sec := by
  induction l generalizing s r with
  | nil => rfl
  | cons x l ih =>
    unfold State.rowParity
    dsimp only
    split
    · exact ih s r
    · split
      · rw [ih]; simp
      · rw [ih]; split <;> simp
@[simp] theorem execRowProgramDone_burns (set relocation ends) (s : State) : s.sec.burnsIn (execRowProgramDone set relocation ends s) := by
  unfold execRowProgramDone; dsimp only; (repeat' split) <;> simp
@[simp] theorem execSuperblockEraseDone_burns (set way block failed) (s : State) :
    s.sec.burnsIn (execSuperblockEraseDone set way block failed s) := by
  unfold execSuperblockEraseDone; dsimp only; (repeat' split) <;> simp
@[simp] theorem State.makeVictim_sec (s : State) (k) : (s.makeVictim k).sec = s.sec := by simp [State.makeVictim]
@[simp] theorem execRelocationStart_burns (set) (s : State) : s.sec.burnsIn (execRelocationStart set s) := by
  unfold execRelocationStart; (repeat' split) <;> simp
@[simp] theorem execReadDisturbRelocate_burns (channel way block) (s : State) : s.sec.burnsIn (execReadDisturbRelocate channel way block s) := by
  unfold execReadDisturbRelocate; dsimp only; (repeat' split) <;> simp
@[simp] theorem State.sensePatrol_sec (s : State) (k) : (s.sensePatrol k).sec = s.sec := by simp [State.sensePatrol]
@[simp] theorem execPatrol_burns (set way block worn) (s : State) : s.sec.burnsIn (execPatrol set way block worn s) := by
  unfold execPatrol; dsimp only; (repeat' split) <;> simp
@[simp] theorem State.levelWear_sec (s : State) (set) : (s.levelWear set).sec = s.sec := by
  unfold State.levelWear; dsimp only; (repeat' split) <;> simp
@[simp] theorem State.tendBlocks_sec (s : State) : s.tendBlocks.sec = s.sec := by simp [State.tendBlocks]
@[simp] theorem State.cellarShortages_sec (s : State) : s.cellarShortages.sec = s.sec := by simp [State.cellarShortages]

/- ## The landing -/

@[simp] theorem State.markWritten_sec (s : State) (k b) : (s.markWritten k b).sec = s.sec := by simp [State.markWritten]
theorem State.layBrick_sec {s t : State} {bk : Nat} {st : Laid} (h : s.layBrick bk st = some t) : t.sec = s.sec := by
  unfold State.layBrick at h
  dsimp only at h
  split at h
  · cases h; simp
  · split at h
    · cases h; simp
    · simpa using State.reRun_sec h
@[simp] theorem State.putSlot_sec (s : State) (bk l) : (s.putSlot bk l).sec = s.sec := by simp [State.putSlot]
@[simp] theorem State.spillSaid_sec (s : State) (room w) : (s.spillSaid room w).sec = s.sec := by simp [State.spillSaid]
@[simp] theorem State.allocate_sec (s : State) (k home) : (s.allocate k home).sec = s.sec := by simp [State.allocate]
theorem State.partPage_sec {s t : State} {k home : Nat} {of_ : List (Nat × Nat)} (h : s.partPage k home of_ = some t) : t.sec = s.sec := by
  unfold State.partPage at h
  dsimp only at h
  split at h
  · cases h
  · cases h
    simp only [State.settleOverdraft_sec, State.setPage_sec, State.setStore_sec]
    split <;> simp
theorem State.splitPage_sec {s t : State} {k home : Nat} (h : s.splitPage k home = some t) : t.sec = s.sec := State.partPage_sec h
@[simp] theorem State.pageWritten_sec (s : State) (k) : (s.pageWritten k).sec = s.sec := by
  unfold State.pageWritten; dsimp only; (repeat' split) <;> simp
@[simp] theorem State.demoteAtOnce_sec (s : State) (k) : (s.demoteAtOnce k).sec = s.sec := by simp [State.demoteAtOnce]
@[simp] theorem State.copyDemoted_sec (s : State) (k) : (s.copyDemoted k).sec = s.sec := by simp [State.copyDemoted]
@[simp] theorem State.accepted_sec (s : State) (k first) : (s.accepted k first).sec = s.sec := by simp [State.accepted]
@[simp] theorem State.landingPressure_sec (s : State) : s.landingPressure.sec = s.sec := by simp [State.landingPressure]
@[simp] theorem State.requeue_sec (s : State) (bk was) : (s.requeue bk was).sec = s.sec := by simp [State.requeue]
@[simp] theorem State.writeSlot_sec (s : State) (bk j data pm) : (s.writeSlot bk j data pm).sec = s.sec := by simp [State.writeSlot]
@[simp] theorem State.beginFill_sec (s : State) (bk) : (s.beginFill bk).sec = s.sec := by simp [State.beginFill]
@[simp] theorem State.queueReadPart_sec (s : State) (r bay first n target lane) : (s.queueReadPart r bay first n target lane).sec = s.sec := by
  simp [State.queueReadPart]
@[simp] theorem State.queueRead_sec (s : State) (bk target) : (s.queueRead bk target).sec = s.sec := by
  unfold State.queueRead; split <;> simp
@[simp] theorem State.endReadPart_sec (s : State) (r bay first) : (s.endReadPart r bay first).sec = s.sec := by simp [State.endReadPart]
@[simp] theorem State.endRead_sec (s : State) (bk) : (s.endRead bk).sec = s.sec := by simp [State.endRead]
@[simp] theorem State.queueStoreWrite_sec (s : State) (bk) : (s.queueStoreWrite bk).sec = s.sec := by simp [State.queueStoreWrite]
@[simp] theorem State.damageShared_sec (s : State) (k) : (s.damageShared k).sec = s.sec := by simp [State.damageShared]
@[simp] theorem State.poisonStore_sec (s : State) (bk : Nat) (m : Mismatch) : (s.poisonStore bk m).sec = s.sec := by
  unfold State.poisonStore
  extract_lets k kept src
  clear_value src
  split
  · rfl
  · split
    next v u hv =>
    have hu : u.sec = s.sec := by rw [snd_sec_of_eq hv]; simp
    extract_lets st s1 c s2 s3
    have h1 : s1.sec = s.sec := by
      simp only [s1]
      cases h : u.layBrick bk st with
      | none => simp [hu]
      | some t => simp [State.layBrick_sec h, hu]
    have h3 : s3.sec = s.sec := by simp [s3, s2, h1]
    clear_value s3
    cases src <;> simp [h3]

/- ## The directory and recalls -/

@[simp] theorem State.setEntries_sec (s : State) (t) : (s.setEntries t).sec = s.sec := by simp [State.setEntries]
@[simp] theorem State.putEntry_sec (s : State) (l e) : (s.putEntry l e).sec = s.sec := by
  unfold State.putEntry; split <;> simp
@[simp] theorem State.recallPorts_sec (s : State) (l : Nat) (discard : Bool) (ps : List Nat) : (s.recallPorts l discard ps).2.sec = s.sec := by
  induction ps generalizing s with
  | nil => rfl
  | cons p ps ih =>
    unfold State.recallPorts
    dsimp only
    split <;> simp [ih]
@[simp] theorem State.grant_sec (s : State) (l st ports) : (s.grant l st ports).sec = s.sec := by simp [State.grant]
@[simp] theorem State.victimCounted_sec (s : State) (slice) : (s.victimCounted slice).sec = s.sec := by simp [State.victimCounted]
@[simp] theorem State.setClaim_sec (s : State) (l v) : (s.setClaim l v).sec = s.sec := by simp [State.setClaim]
@[simp] theorem State.dirSpace_sec (s : State) (l) : (s.dirSpace l).2.sec = s.sec := by
  unfold State.dirSpace; dsimp only; (repeat' split) <;> simp
@[simp] theorem State.recallDone_sec (s : State) (id) : (s.recallDone id).sec = s.sec := by simp [State.recallDone]
@[simp] theorem State.captureLine_sec (s : State) (id l : Nat) (d : List Byte) (poison : Bool) : (s.captureLine id l d poison).sec = s.sec := rfl
@[simp] theorem State.later_sec (s : State) (x) : (s.later x).sec = s.sec := by simp [State.later]
theorem State.ownPage_sec {s t : State} {k home : Nat} {of_ : List (Nat × Nat)} {c : Bool}
    (h : (if c then s.partPage k home of_ else some s) = some t) : t.sec = s.sec := by
  split at h
  · exact State.partPage_sec h
  · cases h; rfl
@[simp] theorem State.applyOne_sec (s : State) (x : Returned) : (s.applyOne x).2.sec = s.sec := by
  unfold State.applyOne
  extract_lets l k bk p home s1
  split
  · simp
  · have h1 : s1.sec = s.sec := by simp [s1]
    split
    · exact h1
    · next u h =>
      have hu : u.sec = s.sec := (State.ownPage_sec h).trans h1
      split <;> simp [hu]
@[simp] theorem State.setVerPage_sec (s : State) (g v off k) : (s.setVerPage g v off k).sec = s.sec := by simp [State.setVerPage]
@[simp] theorem State.applyVersion_sec (s : State) (fresh : Bool) (x : Returned) (gv : Nat × Nat) : (s.applyVersion fresh x gv).sec = s.sec := by
  unfold State.applyVersion
  extract_lets k off own n c
  have hown (u : State) (c : Nat) : (own u c).sec = u.sec := by
    simp only [own]
    split
    · next t h => rw [snd_sec_of_eq h]; simp
    · next t h => simp [snd_sec_of_eq h]
  split
  · rfl
  · split
    · split
      · rfl
      · exact hown _ _
    · split
      · simp
      · rw [hown]; simp
@[simp] theorem State.applyLine_sec (s : State) (x : Returned) : (s.applyLine x).sec = s.sec := by
  unfold State.applyLine
  extract_lets k fresh
  split
  · next t h => simp [snd_sec_of_eq h]
  · next t h =>
    have ht : t.sec = s.sec := by rw [snd_sec_of_eq h]; simp
    split
    · exact ht
    · simp [ht]
@[simp] theorem State.applyReturned_sec (s : State) : s.applyReturned.sec = s.sec := by simp [State.applyReturned]
@[simp] theorem State.answerRecall_sec (s : State) (r data) : (s.answerRecall r data).sec = s.sec := by
  unfold State.answerRecall; dsimp only; (repeat' split) <;> simp
@[simp] theorem State.awaitCrash_sec (s : State) (id l) : (s.awaitCrash id l).sec = s.sec := by simp [State.awaitCrash]
@[simp] theorem State.dropRecalls_sec (s : State) (p : Nat) : (s.dropRecalls p).sec = s.sec := by
  unfold State.dropRecalls
  dsimp only
  rw [foldl_sec fun u x => ?_]
  · rfl
  · split
    · split <;> simp
    · simp
@[simp] theorem State.crashCleared_sec (s : State) (l) : (s.crashCleared l).sec = s.sec := by simp [State.crashCleared]
@[simp] theorem execHostCrashScanStart_burns (port) (s : State) : s.sec.burnsIn (execHostCrashScanStart port s) := by
  unfold execHostCrashScanStart; split <;> simp
@[simp] theorem State.markLost_sec (s : State) (l : Nat) : (s.markLost l).sec = s.sec := by
  unfold State.markLost
  extract_lets k bk id x before fresh frozen
  split
  · rfl
  · split
    · rfl
    · split
      · simp
      · split
        · rfl
        · split
          · next t h => rw [snd_sec_of_eq h]; simp
          · next t h =>
            have ht : t.sec = s.sec := by rw [snd_sec_of_eq h]; simp
            dsimp only
            split <;> simp [ht]
@[simp] theorem State.markAllLost_sec (s : State) : s.markAllLost.sec = s.sec := by simp [State.markAllLost]
@[simp] theorem State.updScan_sec (s : State) (port f) : (s.updScan port f).sec = s.sec := by simp [State.updScan]
@[simp] theorem State.walkOne_sec (s : State) (port l) : (s.walkOne port l).sec = s.sec := by
  unfold State.walkOne; split <;> simp
@[simp] theorem State.walkScan_sec (s : State) (c) : (s.walkScan c).sec = s.sec := by simp [State.walkScan]
@[simp] theorem State.walkScans_sec (s : State) : s.walkScans.sec = s.sec := by simp [State.walkScans]
@[simp] theorem State.endScan_sec (s : State) (c) : (s.endScan c).sec = s.sec := by simp [State.endScan]

/- ## Stairs -/

@[simp] theorem State.issueStep_sec (s : State) (t m coming) : (s.issueStep t m coming).sec = s.sec := by simp [State.issueStep]
@[simp] theorem State.issueAhead_sec (s : State) (t) : (s.issueAhead t).sec = s.sec := by simp [State.issueAhead]
@[simp] theorem State.unstarve_sec (s : State) (t) : (s.unstarve t).sec = s.sec := by simp [State.unstarve]
@[simp] theorem State.releaseSteps_sec (s : State) (t passed) : (s.releaseSteps t passed).sec = s.sec := by simp [State.releaseSteps]
@[simp] theorem State.moveStair_sec (s : State) (t page) : (s.moveStair t page).sec = s.sec := by
  unfold State.moveStair; dsimp only; (repeat' split) <;> simp
@[simp] theorem State.stairLate_sec (s : State) (t m units) : (s.stairLate t m units).sec = s.sec := by simp [State.stairLate]
@[simp] theorem State.holdLate_sec (s : State) (k ready) : (s.holdLate k ready).sec = s.sec := by simp [State.holdLate]
@[simp] theorem State.touchRecord_sec (s : State) (k region) : (s.touchRecord k region).sec = s.sec := by simp [State.touchRecord]
@[simp] theorem State.touch_sec (s : State) (k region) : (s.touch k region).sec = s.sec := by simp [State.touch]
@[simp] theorem execStairDeadlinePrefetch_burns (stair step) (s : State) : s.sec.burnsIn (execStairDeadlinePrefetch stair step s) := by
  simp [execStairDeadlinePrefetch]

/- ## Far pages -/

@[simp] theorem State.setPeer_sec (s : State) (m p) : (s.setPeer m p).sec = s.sec := by simp [State.setPeer]
@[simp] theorem State.sendMove_sec (s : State) (m) : (s.sendMove m).sec = s.sec := by
  unfold State.sendMove; split <;> simp
@[simp] theorem State.movesBack_sec (s : State) (p) : (s.movesBack p).sec = s.sec := by simp [State.movesBack]
@[simp] theorem State.tell_sec (s : State) (dest kind subject cause k data) : (s.tell dest kind subject cause k data).sec = s.sec := by
  simp [State.tell]
@[simp] theorem State.tryLeave_sec (s : State) (k) : (s.tryLeave k).sec = s.sec := by
  unfold State.tryLeave; split <;> simp
@[simp] theorem State.freezePage_sec (s : State) (k target) : (s.freezePage k target).sec = s.sec := by
  unfold State.freezePage; dsimp only; (repeat' split) <;> simp
@[simp] theorem State.releaseOld_sec (s : State) (k) : (s.releaseOld k).sec = s.sec := by
  unfold State.releaseOld; dsimp only; (repeat' split) <;> simp
@[simp] theorem State.unfreeze_sec (s : State) (k) : (s.unfreeze k).sec = s.sec := by simp [State.unfreeze]
@[simp] theorem State.dropReserve_sec (s : State) (k) : (s.dropReserve k).sec = s.sec := by simp [State.dropReserve]
@[simp] theorem State.confirm_sec (s : State) (k done) : (s.confirm k done).sec = s.sec := by simp [State.confirm]
@[simp] theorem State.commitMove_sec (s : State) (k pinEnd) : (s.commitMove k pinEnd).sec = s.sec := by
  unfold State.commitMove; (repeat' split) <;> simp
@[simp] theorem State.abortMove_sec (s : State) (k) : (s.abortMove k).sec = s.sec := by
  unfold State.abortMove; (repeat' split) <;> simp
@[simp] theorem State.landPage_sec (s : State) (k gen data) : (s.landPage k gen data).sec = s.sec := by
  unfold State.landPage; dsimp only; (repeat' split) <;> simp
@[simp] theorem State.putOff_sec (s : State) (k requester cause retry) : (s.putOff k requester cause retry).sec = s.sec := by simp [State.putOff]
@[simp] theorem State.orderMove_sec (s : State) (k requester) : (s.orderMove k requester).sec = s.sec := by simp [State.orderMove]
@[simp] theorem State.askFar.go_sec (k : Nat) (s : State) : (State.askFar.go k s).sec = s.sec := by
  unfold State.askFar.go
  dsimp only
  split <;> simp
@[simp] theorem State.askFar_sec (s : State) (k : Nat) : (s.askFar k).2.sec = s.sec := by
  unfold State.askFar
  split
  · rfl
  · split
    · split <;> simp
    · rfl
    · split <;> simp
@[simp] theorem State.poolLoss_sec (s : State) (k) : (s.poolLoss k).sec = s.sec := by simp [State.poolLoss]

/- ## Line requests -/

@[simp] theorem State.respondFor_sec (s : State) (p tag code data arg long due) : (s.respondFor p tag code data arg long due).sec = s.sec := by
  simp [State.respondFor]
@[simp] theorem State.answerReq_sec (s : State) (r code data) : (s.answerReq r code data).sec = s.sec := by simp [State.answerReq]
@[simp] theorem State.answerPub_sec (s : State) (gone : Bool) (p tag code arg : Nat) : (s.answerPub gone p tag code arg).sec = s.sec := by
  unfold State.answerPub State.respond
  split <;> simp
@[simp] theorem State.orphan_sec (s : State) (p) : (s.orphan p).sec = s.sec := by simp [State.orphan]
@[simp] theorem State.restartLink_sec (s : State) (p) : (s.restartLink p).sec = s.sec := by
  unfold State.restartLink; split <;> simp
@[simp] theorem State.portDown_sec (s : State) (p cause declared) : (s.portDown p cause declared).sec = s.sec := by simp [State.portDown]
@[simp] theorem State.violation_sec (s : State) (p opcode tag check) : (s.violation p opcode tag check).sec = s.sec := by simp [State.violation]
@[simp] theorem State.charged_sec (s : State) (key) : (s.charged key).sec = s.sec := by simp [State.charged]
theorem State.letIn_sec {s t : State} {k c read} (h : s.letIn k c read = some t) : t.sec = s.sec := by
  unfold State.letIn at h; (repeat' split at h) <;> simp at h <;> subst h <;> simp
theorem State.charge_sec {s t : State} {k c : Nat} (h : s.charge k c = some t) : t.sec = s.sec := by
  obtain ⟨u, hu, rfl⟩ := Option.map_eq_some_iff.mp h
  simpa using State.letIn_sec hu
@[simp] theorem State.chargeUp_sec (s : State) (k c n : Nat) : (s.chargeUp k c n).2.sec = s.sec := by
  induction n generalizing s with
  | zero => rfl
  | succ n ih =>
    unfold State.chargeUp
    split
    · rfl
    · next u h => exact (ih u).trans (State.charge_sec h)
theorem State.chargeN_sec {s t : State} {cl : Call} {n : Nat} (h : s.chargeN cl n = some t) : t.sec = s.sec := by
  induction n generalizing s with
  | zero => cases h; rfl
  | succ n ih =>
    obtain ⟨u, hu, ht⟩ := Option.bind_eq_some_iff.mp h
    exact (ih ht).trans (State.charge_sec hu)
@[simp] theorem State.dropOwn_sec (s : State) (port room line) : (s.dropOwn port room line).sec = s.sec := by simp [State.dropOwn]
@[simp] theorem State.startExit_sec (s : State) : (s.startExit).2.sec = s.sec := by
  unfold State.startExit; split <;> simp
@[simp] theorem State.consult_sec (s : State) (r : OpenReq) : (s.consult r).2.sec = s.sec := by
  unfold State.consult
  dsimp only
  split
  · rfl
  · split
    · rfl
    · split
      · split
        · split
          · next u h => rw [snd_sec_of_eq h]; simp
          · next u h => rw [snd_sec_of_eq h]; simp
        · rfl
      · split
        · split <;> rfl
        · split <;> simp
        · split <;> simp
@[simp] theorem State.settleDir_sec (s : State) (r) : (s.settleDir r).sec = s.sec := by
  unfold State.settleDir; split <;> simp
@[simp] theorem State.bring_sec (s : State) (k room) : (s.bring k room).2.sec = s.sec := by
  unfold State.bring; dsimp only; (repeat' split) <;> simp
@[simp] theorem State.serveRead_sec (s : State) (r k bk media) : (s.serveRead r k bk media).2.sec = s.sec := by
  unfold State.serveRead; dsimp only; (repeat' split) <;> simp
@[simp] theorem State.quotaSaid_sec (s : State) (room line) : (s.quotaSaid room line).sec = s.sec := by simp [State.quotaSaid]
theorem State.ownSplit_sec {s t : State} {k home : Nat} {c : Bool} (h : (if c then s.splitPage k home else some s) = some t) : t.sec = s.sec := by
  split at h
  · exact State.splitPage_sec h
  · cases h; rfl
@[simp] theorem State.serveWrite_sec (s : State) (r : OpenReq) (k bk : Nat) (media : Media) : (s.serveWrite r k bk media).2.sec = s.sec := by
  unfold State.serveWrite
  extract_lets p room durable
  split
  next own ownBricks _ =>
  split
  · simp
  · split
    · simp
    · split
      · rfl
      · split
        · rfl
        · split
          · rfl
          · split
            · rfl
            · split
              · rfl
              · next u h =>
                have hu : u.sec = s.sec := State.ownSplit_sec h
                extract_lets s1
                have h1 : s1.sec = s.sec := by simp only [s1]; split <;> simp [hu]
                split
                · split
                  split
                  · simp [h1]
                  · split <;> simp [h1]
                · exact h1
                · simp [h1]
@[simp] theorem State.serveFar_sec (s : State) (k : Nat) : (s.serveFar k).2.sec = s.sec := by
  unfold State.serveFar
  split
  · dsimp only
    split <;> simp
  · split
    · next t h => rw [snd_sec_of_eq h]; simp
    · next t h =>
      have ht : t.sec = s.sec := by rw [snd_sec_of_eq h]; simp
      split <;> exact ht
@[simp] theorem State.gate_sec (s : State) (r : OpenReq) : (s.gate r).2.sec = s.sec := by
  unfold State.gate
  extract_lets read c tgt viewed
  split
  · rfl
  · split
    · simp
    · split
      · rfl
      · split
        · rfl
        · split
          · simp
          · next u h =>
            have hu : u.sec = s.sec := State.letIn_sec h
            split <;> simp [hu]
theorem State.readOrWrite_sec (s : State) (r : OpenReq) (k bk : Nat) (media : Media) (read : Bool) :
    (if read then if (s.page k).mode = .new then (.done 0 (some 0), s) else s.serveRead r k bk media
      else s.serveWrite r k bk media : Verdict × State).2.sec = s.sec := by
  split
  · split <;> simp
  · simp
@[simp] theorem State.attempt_sec (s : State) (r : OpenReq) (media : Media) : (s.attempt r media).2.sec = s.sec := by
  unfold State.attempt
  extract_lets read
  split
  · rfl
  · rfl
  · simp
  · split
    · simp
    · split
      · rfl
      · split
        · next t u h => rw [snd_sec_of_eq h]; simp
        · next u h => rw [snd_sec_of_eq h]; simp
        · next u h => rw [snd_sec_of_eq h]; simp
        · next d u _ _ _ h =>
          have hu : u.sec = s.sec := by rw [snd_sec_of_eq h]; simp
          dsimp only
          split
          · rw [State.settleDir_sec, State.readOrWrite_sec, hu]
          · rw [State.readOrWrite_sec, hu]
@[simp] theorem State.pin_sec (s : State) (r why ready) : (s.pin r why ready).sec = s.sec := by simp [State.pin]
@[simp] theorem State.ceilingSaid_sec (s : State) : s.ceilingSaid.sec = s.sec := by simp [State.ceilingSaid]
@[simp] theorem State.overshootSaid_sec (s : State) (room) : (s.overshootSaid room).sec = s.sec := by simp [State.overshootSaid]
@[simp] theorem State.baysSaid_sec (s : State) : s.baysSaid.sec = s.sec := by simp [State.baysSaid]
@[simp] theorem State.holdNow_sec (s : State) (r why ready) : (s.holdNow r why ready).sec = s.sec := by
  unfold State.holdNow; split <;> simp
@[simp] theorem State.finish_sec (s : State) (r code data) : (s.finish r code data).sec = s.sec := by simp [State.finish]
@[simp] theorem State.fatalRoom_sec (s : State) (room) : (s.fatalRoom room).sec = s.sec := by
  unfold State.fatalRoom; split <;> simp
@[simp] theorem State.conclude_sec (s : State) (r x) : (s.conclude r x).sec = s.sec := by
  unfold State.conclude; split <;> simp
@[simp] theorem State.run_sec (s : State) (r : OpenReq) (media : Media) : (s.run r media).sec = s.sec := by
  unfold State.run
  split
  · next v u h => simp [snd_sec_of_eq h]
  · next u h => simp [snd_sec_of_eq h]
@[simp] theorem State.retryWith_sec (s : State) (media) : (s.retryWith media).sec = s.sec := by simp [State.retryWith]
@[simp] theorem State.retryAll_sec (s : State) : s.retryAll.sec = s.sec := by simp [State.retryAll]
theorem State.turned_sec {s t : State} {opcode port tag room line} (h : s.turned opcode port tag room line = some t) : t.sec = s.sec := by
  unfold State.turned at h; (repeat' split at h) <;> simp at h <;> subst h <;> simp
@[simp] theorem State.arrive_sec (s : State) (opcode : Nat) (r : OpenReq) : (s.arrive opcode r).sec = s.sec := by
  unfold State.arrive
  split
  · next u h => exact State.turned_sec h
  · split
    · simp
    · split
      · split <;> simp
      · simp
@[simp] theorem execRdLine_burns (port tag room line) (s : State) : s.sec.burnsIn (execRdLine port tag room line s) := by simp [execRdLine]
@[simp] theorem execRdOwn_burns (port tag room line) (s : State) : s.sec.burnsIn (execRdOwn port tag room line s) := by simp [execRdOwn]
@[simp] theorem execWrLine_burns (port tag room line poison data) (s : State) : s.sec.burnsIn (execWrLine port tag room line poison data s) := by
  simp [execWrLine]
@[simp] theorem execWrMask_burns (port tag room line mask data) (s : State) : s.sec.burnsIn (execWrMask port tag room line mask data s) := by
  simp [execWrMask]
@[simp] theorem execHoldThresholdPassed_burns (port tag) (s : State) : s.sec.burnsIn (execHoldThresholdPassed port tag s) := by
  unfold execHoldThresholdPassed; (repeat' split) <;> simp
@[simp] theorem execPinLapse_burns (port room line) (s : State) : s.sec.burnsIn (execPinLapse port room line s) := by
  unfold execPinLapse; split <;> simp
@[simp] theorem execCompletionTimeout_burns (port tag) (s : State) : s.sec.burnsIn (execCompletionTimeout port tag s) := by
  unfold execCompletionTimeout; (repeat' split) <;> simp
@[simp] theorem execBackInvAnswer_burns (port tag data) (s : State) : s.sec.burnsIn (execBackInvAnswer port tag data s) := by
  unfold execBackInvAnswer; split <;> simp
@[simp] theorem execBackInvTimeout_burns (port tag) (s : State) : s.sec.burnsIn (execBackInvTimeout port tag s) := by
  unfold execBackInvTimeout; split <;> simp
@[simp] theorem execHostCrashScanEnd_burns (port) (s : State) : s.sec.burnsIn (execHostCrashScanEnd port s) := by
  unfold execHostCrashScanEnd; split <;> simp

/- ## Flits sent -/

@[simp] theorem State.emit_sec (s : State) (p q type seq map body) : (s.emit p q type seq map body).sec = s.sec := by simp [State.emit]

/- ## Reads, corrections and repairs -/

@[simp] theorem State.repeatCount_sec (s : State) (region bay unit) : (s.repeatCount region bay unit).sec = s.sec := by simp [State.repeatCount]
@[simp] theorem State.unitRead_sec (s : State) (region bay unit told) : (s.unitRead region bay unit told).sec = s.sec := by
  unfold State.unitRead; split <;> simp
@[simp] theorem execRepeatEntryExpire_burns (region bay unit) (s : State) : s.sec.burnsIn (execRepeatEntryExpire region bay unit s) := by
  simp [execRepeatEntryExpire]
@[simp] theorem State.rowRetired_sec (s : State) (region rank bank row) : (s.rowRetired region rank bank row).sec = s.sec := by
  simp [State.rowRetired]
@[simp] theorem execRowWeak_burns (region bay unit) (s : State) : s.sec.burnsIn (execRowWeak region bay unit s) := by
  unfold execRowWeak; dsimp only; (repeat' split) <;> simp
@[simp] theorem execScrubPass_burns (finds) (s : State) : s.sec.burnsIn (execScrubPass finds s) := by
  unfold execScrubPass; split <;> simp
@[simp] theorem State.linkRetry_sec (s : State) (ch rank) : (s.linkRetry ch rank).sec = s.sec := by simp [State.linkRetry]
@[simp] theorem State.groupLost_sec (s : State) (k) : (s.groupLost k).sec = s.sec := by
  unfold State.groupLost; dsimp only; (repeat' split) <;> simp
@[simp] theorem State.readBrick_sec (s : State) (bk : Nat) (f : ReadFaults) : (s.readBrick bk f).2.sec = s.sec := by
  unfold State.readBrick
  extract_lets k place s0 errs group
  split
  next region bay first _ =>
  extract_lets rank ch s1 s2 p l told s3 s4 wrong q
  have h1 : s1.sec = s.sec := by
    simp only [s1]
    split
    · simp [s0]
    · split <;> simp [s0]
  have h2 : s2.sec = s.sec := by simp only [s2]; split <;> simp [h1]
  have h4 : s4.sec = s.sec := by simp only [s4, s3]; split <;> simp [h2]
  clear_value s2 s4
  split
  · exact h2
  · split
    · simp [h4]
    · split <;> simp [h4]
@[simp] theorem State.poisonReads_sec (s : State) (bk) : (s.poisonReads bk).sec = s.sec := by simp [State.poisonReads]
@[simp] theorem execStoreReadComplete_burns (brick faults) (s : State) : s.sec.burnsIn (execStoreReadComplete brick faults s) := by
  unfold execStoreReadComplete
  extract_lets bk
  split
  · simp
  · split <;> next v u h => simp [snd_sec_of_eq h]
@[simp] theorem execLandingFillDone_burns (brick faults) (s : State) : s.sec.burnsIn (execLandingFillDone brick faults s) := by
  unfold execLandingFillDone
  extract_lets bk zeros
  split
  · simp
  · split
    · simp
    · extract_lets put
      have hput u d pm : (put u d pm).sec = u.sec := by simp only [put]; simp
      clear_value put
      split <;> next v u h => simp [hput, snd_sec_of_eq h]
@[simp] theorem State.sampleBrick_sec (s : State) (bk plain region) : (s.sampleBrick bk plain region).sec = s.sec := by
  unfold State.sampleBrick; dsimp only; (repeat' split) <;> simp
@[simp] theorem State.freeMarked_sec (s : State) (bk) : (s.freeMarked bk).sec = s.sec := by simp [State.freeMarked]
theorem State.storeSlot_sec {s t : State} {bk : Nat} {l : Landing} {parity : Fin 3} (h : s.storeSlot bk l parity = some t) : t.sec = s.sec := by
  unfold State.storeSlot at h
  extract_lets k region pm data s1 at h
  have h1 : s1.sec = s.sec := by simp only [s1]; split <;> simp
  split at h
  next v s2 hv =>
  have h2 : s2.sec = s.sec := by rw [snd_sec_of_eq hv]; simp [h1]
  obtain ⟨u, hu, rfl⟩ := Option.map_eq_some_iff.mp h
  simp [State.layBrick_sec hu, h2]
@[simp] theorem execLandingSlotFreed_burns (brick parity) (s : State) : s.sec.burnsIn (execLandingSlotFreed brick parity s) := by
  unfold execLandingSlotFreed
  extract_lets bk
  split
  · simp
  · split
    · simp
    · dsimp only
      split
      · simp
      · next t h =>
        have ht := State.storeSlot_sec h
        suffices hs : ∀ u : State, u.sec = s.sec → s.sec.burnsIn (.next (u.copyDemoted (bk / 16)).retryAll) from
          hs _ (by split <;> simp [ht])
        intro u hu
        simp [hu]
@[simp] theorem execLandingDwell_burns (brick) (s : State) : s.sec.burnsIn (execLandingDwell brick s) := by
  unfold execLandingDwell; dsimp only; (repeat' split) <;> simp
@[simp] theorem execBrickRepair_burns (brick) (s : State) : s.sec.burnsIn (execBrickRepair brick s) := by
  unfold execBrickRepair
  extract_lets bk k
  split
  · simp
  · extract_lets drop
    have hdrop u : (drop u).sec = u.sec := by simp only [drop]; simp
    clear_value drop
    split
    · simp [hdrop]
    · split
      · simp
      · split
        next old pm _ =>
        dsimp only
        rw [Sec.burnsIn_next, State.retryAll_sec, State.raise_sec, State.setInteg_sec, hdrop, State.pageWritten_sec,
          State.requeue_sec, State.putSlot_sec]
        exact Sec.burnsTo_self _
@[simp] theorem State.damageShelves_sec (s : State) (slot) : (s.damageShelves slot).sec = s.sec := by simp [State.damageShelves]
theorem State.poisonBrick_sec (s : State) (k b : Nat) :
    (match s.nextVersion (brickKey k b) with
      | (v, s) =>
        let st := s.sealBrick k b (s.page k).gen (poisonForm (attrSealed (s.pageAttr k)) v 15 (List.replicate 256 0))
        s.updPage k fun p => { p with bricks := p.store.set b st }).sec = s.sec := State.nextVersion_sec s _
@[simp] theorem State.poisonAll_sec (s : State) (k : Nat) : (s.poisonAll k).sec = s.sec := by
  unfold State.poisonAll
  simp only [State.groupWritten_sec, State.updPage_sec]
  exact foldl_sec (fun u b => State.poisonBrick_sec u k b) _ _
@[simp] theorem State.replaceImage_sec (s : State) (k old) : (s.replaceImage k old).sec = s.sec := by simp [State.replaceImage]
@[simp] theorem State.poisonReferrers_sec (s : State) (sl i) : (s.poisonReferrers sl i).sec = s.sec := by simp [State.poisonReferrers]
@[simp] theorem execReferrerSearchEnd_burns (slot) (s : State) : s.sec.burnsIn (execReferrerSearchEnd slot s) := by
  unfold execReferrerSearchEnd; dsimp only; (repeat' split) <;> simp

/- ## Placement and removal -/

@[simp] theorem State.verifyPage_sec (s : State) (k : Nat) (fetched : Bool) : (s.verifyPage k fetched).sec = s.sec := by
  unfold State.verifyPage
  extract_lets hit
  clear_value hit
  split
  · rfl
  · split
    · rfl
    · simp only [State.setShelves_sec]
      refine foldl_sec (fun u b => ?_) _ _
      split
      · simp
      · split <;> simp
@[simp] theorem State.landedLate_sec (s : State) (t m) : (s.landedLate t m).sec = s.sec := by simp [State.landedLate]
@[simp] theorem State.landFetched_sec (s : State) (k f i start) : (s.landFetched k f i start).sec = s.sec := by
  unfold State.landFetched; dsimp only; (repeat' split) <;> simp
@[simp] theorem execFetchComplete_burns (page) (s : State) : s.sec.burnsIn (execFetchComplete page s) := by
  unfold execFetchComplete; dsimp only; (repeat' split) <;> simp
@[simp] theorem execWritebackIdle_burns (page) (s : State) : s.sec.burnsIn (execWritebackIdle page s) := by simp [execWritebackIdle]
@[simp] theorem execWritebackAgeMax_burns (page) (s : State) : s.sec.burnsIn (execWritebackAgeMax page s) := by simp [execWritebackAgeMax]
@[simp] theorem execWritebackLag_burns (page) (s : State) : s.sec.burnsIn (execWritebackLag page s) := by
  unfold execWritebackLag; dsimp only; (repeat' split) <;> simp
theorem State.queueTo_sec (excess : Nat) (l : List (Nat × Page)) (n : Nat) (s : State) :
    (l.foldl (fun (x : Nat × State) e =>
      if excess ≤ x.1 then x else (x.1 + storedSize e.2.store + 8, x.2.queueWriteBack e.1 1)) (n, s)).2.sec = s.sec :=
  foldl_pair_sec (fun x e => by split <;> simp) l n s
@[simp] theorem State.ceilingPressure_sec (s : State) : s.ceilingPressure.sec = s.sec := by
  unfold State.ceilingPressure
  extract_lets goal excess queued tier s1 l
  exact (State.queueTo_sec excess l queued s1).trans (State.setTier_sec _ _)
@[simp] theorem State.dropLoft_sec (s : State) (k) : (s.dropLoft k).sec = s.sec := by simp [State.dropLoft]
@[simp] theorem State.trimLoft_sec (s : State) (room n : Nat) : (s.trimLoft room n).sec = s.sec := by
  induction n generalizing s with
  | zero => rfl
  | succ n ih => unfold State.trimLoft; split <;> [rfl; split <;> simp [ih]]
@[simp] theorem State.trimAll_sec (s : State) : s.trimAll.sec = s.sec := by simp [State.trimAll]
@[simp] theorem State.settleLoftScale_sec (s : State) : s.settleLoftScale.sec = s.sec := by simp [State.settleLoftScale]
@[simp] theorem State.intoLoft_sec (s : State) (k) : (s.intoLoft k).sec = s.sec := by simp [State.intoLoft]
@[simp] theorem State.promoteOne_sec (s : State) (k) : (s.promoteOne k).sec = s.sec := by
  unfold State.promoteOne; dsimp only; (repeat' split) <;> simp
@[simp] theorem State.promotePages_sec (s : State) : s.promotePages.sec = s.sec := by simp [State.promotePages]
@[simp] theorem State.removePage_sec (s : State) (k) : (s.removePage k).sec = s.sec := by
  unfold State.removePage; dsimp only; (repeat' split) <;> simp
@[simp] theorem State.removeDown_sec (s : State) (room n : Nat) : (s.removeDown room n).sec = s.sec := by
  induction n generalizing s with
  | zero => rfl
  | succ n ih => unfold State.removeDown; split <;> [rfl; split <;> simp [ih]]
@[simp] theorem State.removeRoom_sec (s : State) (room n) : (s.removeRoom room n).sec = s.sec := by simp [State.removeRoom]
@[simp] theorem State.settleStuck_sec (s : State) : s.settleStuck.sec = s.sec := by simp [State.settleStuck]
@[simp] theorem State.removeAll_sec (s : State) : s.removeAll.sec = s.sec := by simp [State.removeAll]
@[simp] theorem State.restoreBays_sec (s : State) (n : Nat) : (s.restoreBays n).sec = s.sec := by
  induction n generalizing s with
  | zero => rfl
  | succ n ih =>
    unfold State.restoreBays
    split
    · rfl
    · extract_lets l
      generalize l.foldl _ none = e
      cases e <;> simp [ih]
@[simp] theorem State.cellarOnly_sec (s : State) : s.cellarOnly.sec = s.sec := by
  unfold State.cellarOnly
  refine foldl_sec (fun u e => ?_) _ s
  dsimp only
  split
  · split <;> simp
  all_goals simp
@[simp] theorem State.placement_sec (s : State) : s.placement.sec = s.sec := by simp [State.placement]

/- ## The object dictionary -/

@[simp] theorem State.putSess_sec (s : State) (x) : (s.putSess x).sec = s.sec := by simp [State.putSess]
@[simp] theorem State.updSess_sec (s : State) (a f) : (s.updSess a f).sec = s.sec := by
  unfold State.updSess; split <;> simp
@[simp] theorem State.endSess_sec (s : State) (a) : (s.endSess a).sec = s.sec := by
  unfold State.endSess; split <;> simp
@[simp] theorem State.setSessVal_sec (s : State) (a e v) : (s.setSessVal a e v).sec = s.sec := by simp [State.setSessVal]
@[simp] theorem State.odAnswer_sec (s : State) (rq idx sub r) : (s.odAnswer rq idx sub r).sec = s.sec := by
  unfold State.odAnswer; split <;> simp
@[simp] theorem State.discardFrame_sec (s : State) (a) : (s.discardFrame a).sec = s.sec := by simp [State.discardFrame]
theorem State.judgeWrite_sec {act : Act} (hact : ∀ u, (act u).2.sec = u.sec) (s : State) (rq : Rq) (e : Ent) (i j : Nat) (p : List Byte)
    (rooms : CallRooms) : (s.judgeWrite rq e i j p rooms act).2.sec = s.sec := by
  unfold State.judgeWrite
  split
  · rfl
  · split
    · rfl
    · split
      · rfl
      · split
        · rfl
        · exact hact s
@[simp] theorem State.odWrite_sec {act : Act} (hact : ∀ u, (act u).2.sec = u.sec) (s : State) (rq : Rq) (e : Ent) (i j : Nat) (p : List Byte)
    (rooms : CallRooms) : (s.odWrite rq e i j p rooms act).sec = s.sec := by
  unfold State.odWrite
  split
  · rfl
  · split
    · simp
    · simp [State.judgeWrite_sec hact]
theorem State.judgeWrite_burns {act : Act} (hact : ∀ u : State, u.sec.burnsTo (act u).2.sec) (s : State) (rq : Rq) (e : Ent) (i j : Nat)
    (p : List Byte) (rooms : CallRooms) : s.sec.burnsTo (s.judgeWrite rq e i j p rooms act).2.sec := by
  unfold State.judgeWrite
  split
  · simp
  · split
    · simp
    · split
      · simp
      · split
        · simp
        · exact hact s
theorem State.odWrite_burns {act : Act} (hact : ∀ u : State, u.sec.burnsTo (act u).2.sec) (s : State) (rq : Rq) (e : Ent) (i j : Nat)
    (p : List Byte) (rooms : CallRooms) : s.sec.burnsTo (s.odWrite rq e i j p rooms act).sec := by
  unfold State.odWrite
  split
  · simp
  · split
    · simp
    · simpa using State.judgeWrite_burns hact (s.openSess rq.src) rq e i j p rooms
theorem State.odWhole_burns {act : Act} (hact : ∀ u : State, u.sec.burnsTo (act u).2.sec) (s : State) (rq : Rq) (e : Ent) (i j : Nat)
    (p : List Byte) (rooms : CallRooms) : s.sec.burnsTo (s.odWhole rq e i j p rooms act).sec := by
  unfold State.odWhole
  split
  · simp
  · simpa using State.judgeWrite_burns hact (s.openSess rq.src) rq e i j p rooms
theorem State.odWrite_burnsIn {act : Act} (hact : ∀ u : State, u.sec.burnsTo (act u).2.sec) (s : State) (rq : Rq) (e : Ent) (i j : Nat)
    (p : List Byte) (rooms : CallRooms) : s.sec.burnsIn (.next (s.odWrite rq e i j p rooms act)) :=
  (Sec.burnsIn_next _ _).mpr (State.odWrite_burns hact s rq e i j p rooms)
theorem State.judgeRead_sec {act : Act} (hact : ∀ u, (act u).2.sec = u.sec) (s : State) (rq : Rq) (e : Ent) (i j : Nat)
    (rooms : CallRooms) : (s.judgeRead rq e i j rooms act).2.sec = s.sec := by
  unfold State.judgeRead
  split
  · rfl
  · split
    · rfl
    · exact hact s
@[simp] theorem State.odRead_sec {get : State → List Byte × State} (hget : ∀ u, (get u).2.sec = u.sec) (s : State) (rq : Rq) (e : Ent)
    (i j : Nat) (rooms : CallRooms) : (s.odRead rq e i j rooms get).sec = s.sec := by
  unfold State.odRead
  split
  · rfl
  · have hact (u : State) : 
        (if 256 < (get u).1.length then (rNo stLength, u) else ((stOk, (get u).1), (get u).2) : Reply × State).2.sec = u.sec := by
      split
      · rfl
      · exact hget u
    simpa using State.judgeRead_sec hact (s.openSess rq.src) rq e i j rooms
@[simp] theorem actSet_sec (e i j payload) (s : State) : (actSet e i j payload s).2.sec = s.sec := by
  unfold actSet; split <;> simp

/- ## Tables and packed-image loads -/

@[simp] theorem actTableLoad_sec (src payload) (s : State) : (actTableLoad src payload s).2.sec = s.sec := by
  unfold actTableLoad; dsimp only; (repeat' split) <;> simp
@[simp] theorem execTableLoadImage_burns (rq payload) (s : State) : s.sec.burnsIn (execTableLoadImage rq payload s) := by simp [execTableLoadImage]
@[simp] theorem actTableBind_sec (room id v) (s : State) : (actTableBind room id v s).2.sec = s.sec := by
  unfold actTableBind; dsimp only; (repeat' split) <;> simp
@[simp] theorem execTableBind_burns (rq room id payload) (s : State) : s.sec.burnsIn (execTableBind rq room id payload s) := by simp [execTableBind]
@[simp] theorem State.applyBinds_sec (s : State) : s.applyBinds.sec = s.sec := by simp [State.applyBinds]
@[simp] theorem actTableFree_sec (slot) (s : State) : (actTableFree slot s).2.sec = s.sec := by
  unfold actTableFree; split <;> simp
@[simp] theorem execTableFree_burns (rq payload) (s : State) : s.sec.burnsIn (execTableFree rq payload s) := by simp [execTableFree]
@[simp] theorem State.unbind_sec (s : State) (key) : (s.unbind key).sec = s.sec := by
  unfold State.unbind; split <;> simp
@[simp] theorem State.buildOne_sec (s : State) (key img) : (s.buildOne key img).2.2.sec = s.sec := by
  unfold State.buildOne; dsimp only; (repeat' split) <;> simp
@[simp] theorem execTableBuilt_burns (room window byteImage expImage) (s : State) :
    s.sec.burnsIn (execTableBuilt room window byteImage expImage s) := by
  unfold execTableBuilt; dsimp only; (repeat' split) <;> simp
@[simp] theorem State.setLoad_sec (s : State) (room l) : (s.setLoad room l).sec = s.sec := by simp [State.setLoad]
@[simp] theorem State.endLoad_sec (s : State) (room st reason cause) : (s.endLoad room st reason cause).sec = s.sec := by simp [State.endLoad]
@[simp] theorem actLoadGo_sec (room v) (s : State) : (actLoadGo room v s).2.sec = s.sec := by
  unfold actLoadGo; dsimp only; (repeat' split) <;> simp
@[simp] theorem execPackedLoadGo_burns (rq room payload) (s : State) : s.sec.burnsIn (execPackedLoadGo rq room payload s) := by
  simp [execPackedLoadGo]
theorem State.replacePage_sec {s t : State} {k bs} (h : s.replacePage k bs = some t) : t.sec = s.sec := by
  unfold State.replacePage at h
  extract_lets s1 first s2 at h
  have h1 : s1.sec = s.sec := by simp only [s1]; split <;> simp
  have h2 : s2.sec = s.sec := by simp only [s2]; split <;> simp [h1]
  clear_value s2
  split at h
  next coded u hu =>
  have h3 : u.sec = s.sec := by
    rw [snd_sec_of_eq hu, foldl_pair_sec (fun x b => by simp), h2]
  clear hu
  extract_lets s3 p news r bays at h
  have h4 : s3.sec = s.sec := by simp [s3, h3]
  clear_value news r s3
  split at h
  · cases h
  · rename_i old x start hrun
    clear_value old
    extract_lets s4 s5 s6 at h
    have h5 : s5.sec = s.sec := by simp [s5, s4, h4]
    have h6 : s6.sec = s.sec := by simp only [s6]; split <;> simp [h5]
    clear_value s6
    cases h
    simp [h6]
@[simp] theorem execPackedLoadPage_burns (room) (s : State) : s.sec.burnsIn (execPackedLoadPage room s) := by
  unfold execPackedLoadPage
  extract_lets l
  refine Sec.burnsIn_ite (by simp) (Sec.burnsIn_ite (by simp) (Sec.burnsIn_ite (by simp) ?_))
  refine Sec.burnsIn_ite (by simp) ?_
  split
  · simp
  · simp
  extract_lets recs
  split
  · simp
  split
  · simp
  split
  · simp
  · simp
  extract_lets bs bad
  clear_value bad
  split
  · simp
  split
  · simp
  split
  · simp
  split
  · simp
  split
  next n u hu =>
  have hu : u.sec = s.sec := by simp [snd_sec_of_eq hu]
  extract_lets s1
  have h1 : s1.sec = s.sec := by simp [s1, hu]
  clear_value s1
  split
  · simp [h1]
  split
  · simp [h1]
  next t ht =>
  obtain ⟨v, hv, ht⟩ := Option.bind_eq_some_iff.mp ht
  have hv : v.sec = s.sec := by
    split at hv
    · rw [State.splitPage_sec hv, h1]
    · cases hv; exact h1
  have ht : t.sec = s.sec := by rw [State.replacePage_sec ht, hv]
  simp [ht]

/- ## Published regions and views -/

@[simp] theorem State.setPub_sec (s : State) (g x) : (s.setPub g x).sec = s.sec := by simp [State.setPub]
@[simp] theorem State.freePage_sec (s : State) (k) : (s.freePage k).sec = s.sec := by
  unfold State.freePage; dsimp only; (repeat' split) <;> simp
@[simp] theorem State.releaseVersion_sec (s : State) (g v) : (s.releaseVersion g v).2.sec = s.sec := by
  unfold State.releaseVersion; dsimp only; (repeat' split) <;> simp
@[simp] theorem State.deleteRegion_sec (s : State) (g) : (s.deleteRegion g).sec = s.sec := by simp [State.deleteRegion]
@[simp] theorem State.setView_sec (s : State) (room w g v) : (s.setView room w g v).sec = s.sec := by simp [State.setView]
@[simp] theorem State.unbindView_sec (s : State) (room w) : (s.unbindView room w).sec = s.sec := by
  unfold State.unbindView; split <;> simp
@[simp] theorem actPubDefine_sec (e g v) (s : State) : (actPubDefine e g v s).2.sec = s.sec := by
  unfold actPubDefine; dsimp only; (repeat' split) <;> simp
@[simp] theorem execPubDefine_burns (rq index sub payload) (s : State) : s.sec.burnsIn (execPubDefine rq index sub payload s) := by
  simp [execPubDefine]
@[simp] theorem actPubDelete_sec (g v) (s : State) : (actPubDelete g v s).2.sec = s.sec := by
  unfold actPubDelete; (repeat' split) <;> simp
@[simp] theorem execPubDelete_burns (rq region payload) (s : State) : s.sec.burnsIn (execPubDelete rq region payload s) := by simp [execPubDelete]
@[simp] theorem actViewRegion_sec (room w v) (s : State) : (actViewRegion room w v s).2.sec = s.sec := by
  unfold actViewRegion; dsimp only; (repeat' split) <;> simp
@[simp] theorem execViewRegion_burns (rq room window payload) (s : State) : s.sec.burnsIn (execViewRegion rq room window payload s) := by
  simp [execViewRegion]
@[simp] theorem execPublish_burns (port tag room line region base) (s : State) : s.sec.burnsIn (execPublish port tag room line region base s) := by
  unfold execPublish
  split
  next t h => simp [State.turned_sec h]
  · split <;> [simp; (dsimp only; split <;> simp)]
@[simp] theorem State.recallOwned_sec (s : State) (p) : (s.recallOwned p).2.sec = s.sec := by
  unfold State.recallOwned
  refine foldl_pair_sec (fun x e => ?_) _ _ s
  split
  · rfl
  · split <;> simp
@[simp] theorem State.sealVersion_sec (s : State) (g v) : (s.sealVersion g v).sec = s.sec := by simp [State.sealVersion]
@[simp] theorem State.commitPub_sec (s : State) (q) : (s.commitPub q).sec = s.sec := by simp [State.commitPub]
@[simp] theorem State.denyPub_sec (s : State) (q why) : (s.denyPub q why).sec = s.sec := by simp [State.denyPub]
@[simp] theorem State.decidePub_sec (s : State) (q) : (s.decidePub q).sec = s.sec := by simp [State.decidePub]
@[simp] theorem execPublishDecide_burns (region) (s : State) : s.sec.burnsIn (execPublishDecide region s) := by
  unfold execPublishDecide; split <;> simp
@[simp] theorem execPubSealed_burns (region version) (s : State) : s.sec.burnsIn (execPubSealed region version s) := by
  unfold execPubSealed; split <;> simp
@[simp] theorem execPubReleased_burns (region version) (s : State) : s.sec.burnsIn (execPubReleased region version s) := by
  unfold execPubReleased; dsimp only; (repeat' split) <;> simp
@[simp] theorem State.denyOpen_sec (s : State) (o w why) : (s.denyOpen o w why).sec = s.sec := by simp [State.denyOpen]
@[simp] theorem State.decideOpen_sec (s : State) (o) : (s.decideOpen o).sec = s.sec := by
  unfold State.decideOpen; dsimp only; (repeat' split) <;> simp
@[simp] theorem execOpenView_burns (port tag room line region version close) (s : State) :
    s.sec.burnsIn (execOpenView port tag room line region version close s) := by
  unfold execOpenView
  split
  next t h => simp [State.turned_sec h]
  · split
    · simp
    · split <;> simp
@[simp] theorem State.decideOpens_sec (s : State) : s.decideOpens.sec = s.sec := by simp [State.decideOpens]
@[simp] theorem State.voidVersions_sec (s : State) : (s.voidVersions).2.sec = s.sec := by simp [State.voidVersions]
@[simp] theorem actHostFailed_sec (v) (s : State) : (actHostFailed v s).2.sec = s.sec := by
  unfold actHostFailed; (repeat' split) <;> simp
@[simp] theorem execHostFailed_burns (rq payload) (s : State) : s.sec.burnsIn (execHostFailed rq payload s) := by simp [execHostFailed]
@[simp] theorem getCrashBlock_sec (a) (s : State) : (getCrashBlock a s).2.sec = s.sec := by simp [getCrashBlock]
@[simp] theorem execCrashBlock_burns (rq) (s : State) : s.sec.burnsIn (execCrashBlock rq s) := by simp [execCrashBlock]

/- ## Calls and programs -/

@[simp] theorem State.setCalls_sec (s : State) (l) : (s.setCalls l).sec = s.sec := by simp [State.setCalls]
@[simp] theorem State.updCall_sec (s : State) (id f) : (s.updCall id f).sec = s.sec := by simp [State.updCall]
@[simp] theorem State.updCore_sec (s : State) (c f) : (s.updCore c f).sec = s.sec := by simp [State.updCore]
@[simp] theorem State.endCall_sec (s : State) (id e) : (s.endCall id e).sec = s.sec := by simp [State.endCall]
@[simp] theorem State.ownWrite_sec (s : State) (room line d) : (s.ownWrite room line d).2.sec = s.sec := by
  unfold State.ownWrite
  extract_lets l k bk r
  split
  · rfl
  split
  · split <;> next h => simp [snd_sec_of_eq h]
  split
  · rfl
  split
  · simp
  split
  next h => simp [snd_sec_of_eq h]
  next h => simp [snd_sec_of_eq h]
  next v u _ _ h =>
  have hu : u.sec = s.sec := by simp [snd_sec_of_eq h]
  split
  · exact hu
  split
  · exact hu
  extract_lets first s1 s2
  have h1 : s1.sec = s.sec := by simp only [s1]; split <;> simp [hu]
  have h2 : s2.sec = s.sec := by
    simp only [s2]
    split
    · rw [getD_sec fun t => State.splitPage_sec, h1]
    · exact h1
  clear_value s2
  split
  · extract_lets o s3
    have h3 : s3.sec = s.sec := by simp [s3, h2]
    clear_value s3
    dsimp only
    split <;> simp [h3]
  · exact h2
  · simp [h2]
@[simp] theorem State.freeProgs_sec (s : State) : s.freeProgs.sec = s.sec := by simp [State.freeProgs]
@[simp] theorem State.paidLine_sec (s : State) (c) : (s.paidLine c).sec = s.sec := by simp [State.paidLine]
@[simp] theorem execCallCompletion_burns (call) (s : State) : s.sec.burnsIn (execCallCompletion call s) := by
  unfold execCallCompletion
  extract_lets id
  split
  · simp
  split
  · split
    · simp
    · split
      next c _ e _ _ ok u hu =>
      have hu : u.sec = s.sec := by
        split at hu
        · rw [snd_sec_of_eq hu]; dsimp only; split <;> simp
        · rw [snd_sec_of_eq hu]
      split
      · simp [hu]
      · split <;> next h => simp [snd_sec_of_eq h, hu]
  · simp
@[simp] theorem execCallUnpark_burns (call) (s : State) : s.sec.burnsIn (execCallUnpark call s) := by
  unfold execCallUnpark; split <;> simp
@[simp] theorem execCallTimeout_burns (call) (s : State) : s.sec.burnsIn (execCallTimeout call s) := by
  unfold execCallTimeout; (repeat' split) <;> simp
@[simp] theorem State.progRefuse_sec (s : State) (h st) : (s.progRefuse h st).2.sec = s.sec := by simp [State.progRefuse]
@[simp] theorem actProgInstall_sec (src v) (s : State) : (actProgInstall src v s).2.sec = s.sec := by
  unfold actProgInstall; dsimp only; (repeat' split) <;> simp
@[simp] theorem execProgInstall_burns (rq payload) (s : State) : s.sec.burnsIn (execProgInstall rq payload s) := by simp [execProgInstall]
@[simp] theorem actProgRemove_sec (src v) (s : State) : (actProgRemove src v s).2.sec = s.sec := by
  unfold actProgRemove; dsimp only; (repeat' split) <;> simp
@[simp] theorem execProgRemove_burns (rq payload) (s : State) : s.sec.burnsIn (execProgRemove rq payload s) := by simp [execProgRemove]
@[simp] theorem State.acceptCall_sec (s : State) (port tag : Nat) (c : Call) : (s.acceptCall port tag c).2.sec = s.sec := by
  simp [State.acceptCall, State.respond]

/- ## Shelves -/

@[simp] theorem State.setShelf_sec (s : State) (n f) : (s.setShelf n f).sec = s.sec := by simp [State.setShelf]
@[simp] theorem State.updShelf_sec (s : State) (n g) : (s.updShelf n g).sec = s.sec := by simp [State.updShelf]
@[simp] theorem State.updJob_sec (s : State) (n g) : (s.updJob n g).sec = s.sec := by simp [State.updJob]
@[simp] theorem getManifestBlock_sec (a) (s : State) : (getManifestBlock a s).2.sec = s.sec := by simp [getManifestBlock]
@[simp] theorem execManifestBlock_burns (rq) (s : State) : s.sec.burnsIn (execManifestBlock rq s) := by simp [execManifestBlock]
@[simp] theorem actShelfRoom_sec (src v) (s : State) : (actShelfRoom src v s).2.sec = s.sec := by
  unfold actShelfRoom; dsimp only; (repeat' split) <;> simp
@[simp] theorem execShelfRoom_burns (rq payload) (s : State) : s.sec.burnsIn (execShelfRoom rq payload s) := by simp [execShelfRoom]
@[simp] theorem actShelfRanges_sec (src payload) (s : State) : (actShelfRanges src payload s).2.sec = s.sec := by
  unfold actShelfRanges; dsimp only; (repeat' split) <;> simp
@[simp] theorem execShelfRanges_burns (rq payload) (s : State) : s.sec.burnsIn (execShelfRanges rq payload s) := by simp [execShelfRanges]
@[simp] theorem actShelfField_sec (src e v) (s : State) : (actShelfField src e v s).2.sec = s.sec := by
  unfold actShelfField; dsimp only; (repeat' split) <;> simp
@[simp] theorem State.endShelfCall_sec (s : State) (id result digest) : (s.endShelfCall id result digest).sec = s.sec := by simp [State.endShelfCall]
@[simp] theorem State.endJob_sec (s : State) (n outcome pages digest) : (s.endJob n outcome pages digest).sec = s.sec := by
  unfold State.endJob; dsimp only; (repeat' split) <;> simp
@[simp] theorem State.refuseShelf_sec (s : State) (n op version outcome from_) : (s.refuseShelf n op version outcome from_).sec = s.sec := by
  unfold State.refuseShelf; (repeat' split) <;> simp
@[simp] theorem State.startShelve_sec (s : State) (n from_) : (s.startShelve n from_).2.sec = s.sec := by
  unfold State.startShelve; dsimp only; (repeat' split) <;> simp
@[simp] theorem State.freezeShelf_sec (s : State) (n f j) : (s.freezeShelf n f j).sec = s.sec := by simp [State.freezeShelf]
@[simp] theorem execShelveFreeze_burns (shelf) (s : State) : s.sec.burnsIn (execShelveFreeze shelf s) := by
  unfold execShelveFreeze; dsimp only; (repeat' split) <;> simp
@[simp] theorem State.codePage_sec (s : State) (n : Nat) (f : Shelf) (m : MarkedPage) : (s.codePage n f m).2.2.sec = s.sec := by
  unfold State.codePage
  extract_lets k new drawn s1 gen kept bs foot
  have hnew : new.2.sec = s.sec := by
    simp only [new]
    rw [foldl_pair_sec fun x b => ?_]
    · simp
    · split <;> simp
  have h1 : s1.sec = s.sec := by
    simp only [s1]
    rw [foldl_sec fun u b => ?_, hnew]
    simp only [drawn]
    split <;> simp
  exact h1
theorem State.programMarked_sec {s t : State} {n b : Nat} {f : Shelf} {m : MarkedPage} {mp : Option ManPage}
    (h : s.programMarked n f m = some (mp, b, t)) : t.sec = s.sec := by
  unfold State.programMarked at h
  extract_lets k p asIs at h
  clear_value asIs
  split at h
  · cases h; simp
  · split at h
    · cases h; rfl
    · split at h
      next bs foot u hu =>
      have hu : u.sec = s.sec := by simpa [hu] using s.codePage_sec n f m
      extract_lets p1 here s1 slot set at h
      have h1 : s1.sec = s.sec := by simp only [s1]; split <;> simp [hu]
      clear_value s1 here set
      split at h
      · cases h
      · rename_i sg q qs sw sx moved laid _
        have hg : sg.sec = s.sec := by simp [sg, h1]
        have hx : sx.sec = s.sec := by simp [sx, sw, h1]
        have hmoved v (hv : moved = some v) : v.sec = s.sec := by
          simp only [moved] at hv
          split at hv
          · rw [State.reRun_sec hv, hx]
          · cases hv; exact hx
        clear_value sg sx moved
        have hlaid form v (hv : laid = some (form, v)) : v.sec = s.sec := by
          simp only [laid] at hv
          split at hv
          · cases hv; simp [hg]
          · obtain ⟨w, hw, he⟩ := Option.map_eq_some_iff.mp hv
            cases he
            exact hmoved _ hw
        clear_value laid
        obtain ⟨⟨form, v⟩, hv, h⟩ := Option.bind_eq_some_iff.mp h
        obtain ⟨w, hw, he⟩ := Option.map_eq_some_iff.mp h
        cases he
        have hw : w.sec = s.sec := by rw [State.placeItem_sec hw, hlaid form v hv]
        split <;> simp [hw]
@[simp] theorem State.programOne_sec (s : State) (n : Nat) (m : MarkedPage) : (s.programOne n m).sec = s.sec := by
  unfold State.programOne
  split
  · next mp bytes u h => simp [State.programMarked_sec h]
  · rfl
@[simp] theorem State.dropKept_sec (s : State) (pages) : (s.dropKept pages).sec = s.sec := by simp [State.dropKept]
@[simp] theorem State.settleCoded_sec (s : State) (n) : (s.settleCoded n).sec = s.sec := by
  unfold State.settleCoded; split <;> simp
@[simp] theorem State.drainMarked_sec (s : State) (n) : (s.drainMarked n).sec = s.sec := by
  unfold State.drainMarked; split <;> simp
@[simp] theorem State.serveItems_sec (s : State) (left : Nat) (l : List Program) : (s.serveItems left l).2.sec = s.sec := by
  induction l generalizing s left with
  | nil => rfl
  | cons x l ih =>
    unfold State.serveItems
    split
    · rfl
    · split
      · dsimp only; rw [ih]; split <;> simp
      · dsimp only; rw [ih]; split <;> simp
      · dsimp only; rw [ih]; simp
@[simp] theorem State.serveCellar_sec (s : State) : (s.serveCellar).2.sec = s.sec := by simp [State.serveCellar]
@[simp] theorem State.evict_sec (s : State) (f) : (s.evict f).sec = s.sec := by simp [State.evict]
@[simp] theorem execShelveCommit_burns (shelf) (s : State) : s.sec.burnsIn (execShelveCommit shelf s) := by
  unfold execShelveCommit; dsimp only; (repeat' split) <;> simp
theorem State.shelfByOd_sec {run : Nat → Nat → Nat → State → Nat × State} (hrun : ∀ a b c u, (run a b c u).2.sec = u.sec) (s : State)
    (src : Arrival) (p : List Byte) : (s.shelfByOd src p run).2.sec = s.sec := by
  unfold State.shelfByOd
  extract_lets op n version room may
  split
  · rfl
  · split
    · rfl
    · split
      · rfl
      · split
        · next u h => rw [snd_sec_of_eq h, hrun]
        · next u h => simp [snd_sec_of_eq h, hrun]
        · next u _ _ h => simp [snd_sec_of_eq h, hrun]
@[simp] theorem State.startUnshelve_sec (s : State) (n version from_) : (s.startUnshelve n version from_).2.sec = s.sec := by
  unfold State.startUnshelve; dsimp only; (repeat' split) <;> simp
@[simp] theorem State.dropLive_sec (s : State) (k : Nat) : (s.dropLive k).sec = s.sec := by
  unfold State.dropLive
  extract_lets s1 s2 brought dir s3 s4 tier s5
  have h1 : s1.sec = s.sec := by
    simp only [s1]
    split
    · exact getD_sec fun t => State.splitPage_sec
    · rfl
  clear_value s1
  simp [s5, s4, s3, s2, h1]
@[simp] theorem State.switchShelf_sec (s : State) (n : Nat) (f : Shelf) (j : ShelfJob) (v : ShelfVer) : (s.switchShelf n f j v).sec = s.sec := by
  unfold State.switchShelf
  extract_lets same s0 news s1 put s2 used src s3 stair s4
  have h1 : s1.sec = s.sec := by simp only [s1]; exact foldl_sec (fun u k => by split <;> simp) _ s
  have hput u e : (put u e).sec = u.sec := by
    simp only [put]
    split
    · rfl
    · split <;> simp
  have h2 : s2.sec = s.sec := by simp [s2, foldl_sec hput, h1]
  clear_value s2
  have h4 : s4.sec = s.sec := by simp [s4, s3, h2]
  clear_value s4
  rw [foldl_sec (fun u e => by split <;> simp), h4]
@[simp] theorem execUnshelveSwitch_burns (shelf) (s : State) : s.sec.burnsIn (execUnshelveSwitch shelf s) := by
  unfold execUnshelveSwitch; dsimp only; (repeat' split) <;> simp
@[simp] theorem State.endStair_sec (s : State) (n) : (s.endStair n).sec = s.sec := by simp [State.endStair]
@[simp] theorem execUnshelveEnd_burns (shelf) (s : State) : s.sec.burnsIn (execUnshelveEnd shelf s) := by
  unfold execUnshelveEnd; dsimp only; (repeat' split) <;> simp
@[simp] theorem State.voidUnshelve_sec (s : State) (room : Nat) : (s.voidUnshelve room).sec = s.sec := by
  refine foldl_sec (fun u e => ?_) _ _
  split
  · split <;> simp
  · rfl
@[simp] theorem State.abandonShelve_sec (s : State) (n) : (s.abandonShelve n).sec = s.sec := by
  unfold State.abandonShelve; split <;> simp
@[simp] theorem State.releaseShelf_sec (s : State) (n v) : (s.releaseShelf n v).2.sec = s.sec := by simp [State.releaseShelf]
@[simp] theorem State.settleBases_sec (s : State) : s.settleBases.sec = s.sec := by simp [State.settleBases]
@[simp] theorem State.startRelease_sec (s : State) (n version from_) : (s.startRelease n version from_).2.sec = s.sec := by
  unfold State.startRelease; dsimp only; (repeat' split) <;> simp
@[simp] theorem State.dropShelf_sec (s : State) (n) : (s.dropShelf n).sec = s.sec := by
  unfold State.dropShelf; dsimp only; (repeat' split) <;> simp
@[simp] theorem State.shelfOp_sec (s : State) (op n version from_) : (s.shelfOp op n version from_).2.sec = s.sec := by
  unfold State.shelfOp; split <;> simp
@[simp] theorem actShelfCommand_sec (src payload) (s : State) : (actShelfCommand src payload s).2.sec = s.sec :=
  State.shelfByOd_sec (fun a b c u => State.shelfOp_sec u a b c .od) s src payload
@[simp] theorem State.shelfCommand_sec (s : State) (rq payload) : (s.shelfCommand rq payload).sec = s.sec := by simp [State.shelfCommand]
@[simp] theorem execShelve_burns (rq payload) (s : State) : s.sec.burnsIn (execShelve rq payload s) := by simp [execShelve]
@[simp] theorem execUnshelve_burns (rq payload) (s : State) : s.sec.burnsIn (execUnshelve rq payload s) := by simp [execUnshelve]
@[simp] theorem execShelfRelease_burns (rq payload) (s : State) : s.sec.burnsIn (execShelfRelease rq payload s) := by simp [execShelfRelease]
@[simp] theorem State.callShelf_sec (s : State) (port tag room line h cls args) : (s.callShelf port tag room line h cls args).sec = s.sec := by
  unfold State.callShelf
  extract_lets op n version c
  split
  next id u hu =>
  have hu : u.sec = s.sec := by simp [snd_sec_of_eq hu]
  extract_lets src bad
  split
  · simp [hu]
  · split <;> next h => simp [snd_sec_of_eq h, hu]
@[simp] theorem execCall_burns (port tag room line w1 args) (s : State) : s.sec.burnsIn (execCall port tag room line w1 args s) := by
  unfold execCall
  split
  next t h => simp [State.turned_sec h]
  · dsimp only; (repeat' split) <;> simp

/- ## The regulator, the staging copy and ROOM_ERASE -/

@[simp] theorem State.missSaid_sec (s : State) (k c kind served) : (s.missSaid k c kind served).sec = s.sec := by simp [State.missSaid]
@[simp] theorem State.putFloor_sec (s : State) (cause announce x) : (s.putFloor cause announce x).sec = s.sec := by simp [State.putFloor]
@[simp] theorem State.settleFloors_sec (s : State) (cause announce) : (s.settleFloors cause announce).sec = s.sec := by simp [State.settleFloors]
@[simp] theorem State.settleBudget_sec (s : State) : s.settleBudget.sec = s.sec := by simp [State.settleBudget]
@[simp] theorem State.closePair_sec (s : State) (k c) : (s.closePair k c).sec = s.sec := by simp [State.closePair]
@[simp] theorem State.closePairs_sec (s : State) : s.closePairs.sec = s.sec := by simp [State.closePairs]
@[simp] theorem State.openPairs_sec (s : State) : s.openPairs.sec = s.sec := by simp [State.openPairs]
@[simp] theorem State.shareOut_sec (s : State) : s.shareOut.sec = s.sec := by simp [State.shareOut]
@[simp] theorem State.regulate_sec (s : State) : s.regulate.sec = s.sec := by simp [State.regulate]
@[simp] theorem State.settleQuotas_sec (s was : State) : (s.settleQuotas was).sec = s.sec := by simp [State.settleQuotas]
@[simp] theorem actStage_sec (e i j payload) (s : State) : (actStage e i j payload s).2.sec = s.sec := by
  unfold actStage; dsimp only; (repeat' split) <;> simp
@[simp] theorem State.staged_sec (s : State) : s.staged.sec = s.sec := by simp [State.staged]
@[simp] theorem actCommit_sec (v) (s : State) : (actCommit v s).2.sec = s.sec := by
  unfold actCommit; (repeat' split) <;> simp
@[simp] theorem execConfigCommit_burns (rq payload) (s : State) : s.sec.burnsIn (execConfigCommit rq payload s) := by simp [execConfigCommit]
@[simp] theorem actDiscard_sec (v) (s : State) : (actDiscard v s).2.sec = s.sec := by
  unfold actDiscard; (repeat' split) <;> simp
@[simp] theorem execConfigDiscard_burns (rq payload) (s : State) : s.sec.burnsIn (execConfigDiscard rq payload s) := by simp [execConfigDiscard]
@[simp] theorem State.pinWindow_sec (s : State) (k w) : (s.pinWindow k w).sec = s.sec := by simp [State.pinWindow]
@[simp] theorem State.applyWindows_sec (s old : State) (k w : Nat) : (s.applyWindows old k w).sec = s.sec := by
  unfold State.applyWindows
  extract_lets a b s1 s2 s3
  have h1 : s1.sec = s.sec := by simp only [s1]; split <;> simp
  split
  · exact h1
  · split <;> simp [s2, s3, h1]
@[simp] theorem State.applied_sec (s : State) : s.applied.sec = s.sec := by simp [State.applied]
@[simp] theorem execConfigApply_burns (s : State) : s.sec.burnsIn (execConfigApply s) := by
  unfold execConfigApply; (repeat' split) <;> simp
@[simp] theorem State.eraseRoom_fuses (s : State) (k) : (s.eraseRoom k).sec.log = s.sec.log ∧ (s.eraseRoom k).sec.epoch = s.sec.epoch := by
  simp [State.eraseRoom]
@[simp] theorem actRoomErase_fuses (k v) (s : State) :
    (actRoomErase k v s).2.sec.log = s.sec.log ∧ (actRoomErase k v s).2.sec.epoch = s.sec.epoch := by
  unfold actRoomErase; dsimp only; (repeat' split) <;> simp
@[simp] theorem execRoomErase_burns (rq room payload) (s : State) : s.sec.burnsIn (execRoomErase rq room payload s) :=
  State.odWrite_burnsIn (act := actRoomErase room (ofLe payload)) (fun u => by simp) s rq .roomErase room 0 payload noCalls

/- ## Streams -/

@[simp] theorem State.keepStop_sec (s : State) (r why ready) : (s.keepStop r why ready).sec = s.sec := by simp [State.keepStop]
@[simp] theorem State.endStop_sec (s : State) (r) : (s.endStop r).sec = s.sec := by simp [State.endStop]
@[simp] theorem State.lapseStops_sec (s : State) : s.lapseStops.sec = s.sec := by simp [State.lapseStops]
@[simp] theorem State.streamRead_sec (s : State) (t k bk j) : (s.streamRead t k bk j).2.sec = s.sec := by
  unfold State.streamRead; dsimp only; (repeat' split) <;> simp
@[simp] theorem State.streamDir_sec (s : State) (t write l) : (s.streamDir t write l).2.sec = s.sec := by
  unfold State.streamDir; (repeat' split) <;> simp
@[simp] theorem State.noteLane_sec (s : State) (core t k bk) : (s.noteLane core t k bk).sec = s.sec := by simp [State.noteLane]
@[simp] theorem State.readLine_sec (s : State) (core cl t) : (s.readLine core cl t).2.sec = s.sec := by
  unfold State.readLine
  extract_lets addr line
  split
  · rfl
  · split
    · rfl
    · rfl
    · simp
    · split
      · split; next v u h =>
        have hu := snd_sec_of_eq h
        split <;> simp [hu]
      · split <;> next h => simp [snd_sec_of_eq h]
@[simp] theorem State.bricksDir_sec (s : State) (t l n) : (s.bricksDir t l n).2.sec = s.sec := by
  induction n generalizing s with
  | zero => rfl
  | succ n ih =>
    unfold State.bricksDir
    split
    next h => simp [snd_sec_of_eq h]
    next h => rw [ih]; simp [snd_sec_of_eq h]
@[simp] theorem State.writeLines_sec (s : State) (core cl media line ds) : (s.writeLines core cl media line ds).2.sec = s.sec := by
  induction ds generalizing s media line with
  | nil => rfl
  | cons d ds ih =>
    unfold State.writeLines
    extract_lets k
    split
    next u h =>
      have hu : u.sec = s.sec := by simp [snd_sec_of_eq h]
      dsimp only
      rw [ih]
      split <;> simp [hu]
    next h => simp
@[simp] theorem State.writeBrick_sec (s : State) (core cl c t) : (s.writeBrick core cl c t).2.sec = s.sec := by
  unfold State.writeBrick
  extract_lets n line l data
  clear_value data
  split
  · rfl
  split
  · split
    · split; next v u h =>
      have hu := snd_sec_of_eq h
      split <;> simp [hu]
    · split
      · rfl
      · split
        next h => simp [snd_sec_of_eq h]
        next u h =>
          have hu : u.sec = s.sec := by simp [snd_sec_of_eq h]
          split; next v w h =>
          have hw : w.sec = s.sec := by simp [snd_sec_of_eq h, hu]
          split <;> simp [hw]
  · rfl
@[simp] theorem State.flowed_sec (s : State) (id k n) : (s.flowed id k n).sec = s.sec := by simp [State.flowed]
@[simp] theorem State.streamPiece_sec (s : State) (core x) : (s.streamPiece core x).2.sec = s.sec := by
  unfold State.streamPiece
  extract_lets c
  split
  · rfl
  extract_lets r t
  split
  · rfl
  split
  · simp
  split
  next m u hm =>
  have hu : u.sec = s.sec := by
    rw [snd_sec_of_eq hm]
    split <;> simp
  clear hm
  split
  · exact hu
  · extract_lets s1
    have h1 : s1.sec = s.sec := by
      simp only [s1]
      split
      · split <;> simp [hu]
      · exact hu
    clear_value s1
    simp [h1]
  · extract_lets s1 s2 s3
    have h1 : s1.sec = s.sec := by simp [s1, hu]
    have h2 : s2.sec = s.sec := by simp only [s2]; rw [getD_sec fun t => State.chargeN_sec, h1]
    have h3 : s3.sec = s.sec := by simp only [s3]; split <;> simp [h2]
    clear_value s3
    simp [h3]
@[simp] theorem State.runStream_sec (s : State) (core x goal fuel) : (s.runStream core x goal fuel).sec = s.sec := by
  induction fuel generalizing s with
  | zero => rfl
  | succ n ih =>
    unfold State.runStream
    split
    · rfl
    · split; next more u h =>
      have hu : u.sec = s.sec := by simp [snd_sec_of_eq h]
      split <;> simp [ih, hu]
@[simp] theorem State.streamTo_sec (s : State) (core x goal) : (s.streamTo core x goal).sec = s.sec := by simp [State.streamTo]
@[simp] theorem State.streamOut_sec (s : State) (core x) : (s.streamOut core x).sec = s.sec := by simp [State.streamOut]
@[simp] theorem State.streamsOut_sec (s : State) (core xs) : (s.streamsOut core xs).sec = s.sec := by
  induction xs generalizing s with
  | nil => rfl
  | cons x xs ih => simp [State.streamsOut, ih]
@[simp] theorem State.stallCounted_sec (s : State) (core) : (s.stallCounted core).sec = s.sec := by
  unfold State.stallCounted; dsimp only; (repeat' split) <;> simp
@[simp] theorem State.stepOver_sec (s : State) (core) : (s.stepOver core).sec = s.sec := by
  unfold State.stepOver; dsimp only; (repeat' split) <;> simp
@[simp] theorem State.settleCall_sec (s : State) (id) : (s.settleCall id).sec = s.sec := by
  unfold State.settleCall; split <;> simp
@[simp] theorem State.stepEnds_sec (s : State) (core status stamp) : (s.stepEnds core status stamp).sec = s.sec := by
  unfold State.stepEnds; dsimp only; (repeat' split) <;> simp
@[simp] theorem State.tryEnd_sec (s : State) (core) : (s.tryEnd core).sec = s.sec := by
  unfold State.tryEnd; dsimp only; (repeat' split) <;> simp
@[simp] theorem execStreamEnd_burns (core ctx) (s : State) : s.sec.burnsIn (execStreamEnd core ctx s) := by
  unfold execStreamEnd; dsimp only; (repeat' split) <;> simp
@[simp] theorem execStreamStop_burns (core ctx) (s : State) : s.sec.burnsIn (execStreamStop core ctx s) := by
  unfold execStreamStop; dsimp only; (repeat' split) <;> simp

/- ## Issue, control and scalar instructions -/

@[simp] theorem State.faultStep_sec (s : State) (core code) : (s.faultStep core code).sec = s.sec := by
  unfold State.faultStep; dsimp only; (repeat' split) <;> simp
@[simp] theorem State.settle_sec (s : State) (core d) : (s.settle core d).sec = s.sec := by
  unfold State.settle; split <;> simp
@[simp] theorem State.payOwed_sec (s : State) (core l) : (s.payOwed core l).sec = s.sec := by
  induction l generalizing s with
  | nil => rfl
  | cons x xs ih => simp [State.payOwed, ih]
@[simp] theorem State.issue_burns (s : State) (core check regs body) : s.sec.burnsIn (s.issue core check regs body) := by
  unfold State.issue
  split
  · simp
  · split <;> simp
/-- So does an instruction issued once its streams have moved. -/
@[simp] theorem State.issue_burnsIn {s t : State} (h : t.sec = s.sec) (core : Fin 32) (check : Option Nat) (regs : List Nat) (body : Core → Did) :
    s.sec.burnsIn (t.issue core check regs body) := h ▸ State.issue_burns t core check regs body
@[simp] theorem execNop_burns (core f) (s : State) : s.sec.burnsIn (execNop core f s) := by simp [execNop]
@[simp] theorem execJ_burns (core f) (s : State) : s.sec.burnsIn (execJ core f s) := by simp [execJ]
@[simp] theorem execJal_burns (core f) (s : State) : s.sec.burnsIn (execJal core f s) := by simp [execJal]
@[simp] theorem execJr_burns (core f) (s : State) : s.sec.burnsIn (execJr core f s) := by simp [execJr]
@[simp] theorem execBr_burns (core f) (s : State) : s.sec.burnsIn (execBr core f s) := by simp [execBr]
@[simp] theorem execFence_burns (core f) (s : State) : s.sec.burnsIn (execFence core f s) := by
  simp [execFence]
@[simp] theorem execStepend_burns (core f) (s : State) : s.sec.burnsIn (execStepend core f s) := by
  unfold execStepend; dsimp only; (repeat' split) <;> simp
@[simp] theorem execCyc_burns (core f) (s : State) : s.sec.burnsIn (execCyc core f s) := by simp [execCyc]
@[simp] theorem execStamp_burns (core f) (s : State) : s.sec.burnsIn (execStamp core f s) := by simp [execStamp]
@[simp] theorem State.alu_burns (s : State) (core f op) : s.sec.burnsIn (s.alu core f op) := by simp [State.alu]
@[simp] theorem execAdd_burns (core f) (s : State) : s.sec.burnsIn (execAdd core f s) := by simp [execAdd]
@[simp] theorem execSub_burns (core f) (s : State) : s.sec.burnsIn (execSub core f s) := by simp [execSub]
@[simp] theorem execMul_burns (core f) (s : State) : s.sec.burnsIn (execMul core f s) := by simp [execMul]
@[simp] theorem execMulh_burns (core f) (s : State) : s.sec.burnsIn (execMulh core f s) := by simp [execMulh]
@[simp] theorem execMulhu_burns (core f) (s : State) : s.sec.burnsIn (execMulhu core f s) := by simp [execMulhu]
@[simp] theorem execDiv_burns (core f) (s : State) : s.sec.burnsIn (execDiv core f s) := by simp [execDiv]
@[simp] theorem execDivu_burns (core f) (s : State) : s.sec.burnsIn (execDivu core f s) := by simp [execDivu]
@[simp] theorem execRem_burns (core f) (s : State) : s.sec.burnsIn (execRem core f s) := by simp [execRem]
@[simp] theorem execRemu_burns (core f) (s : State) : s.sec.burnsIn (execRemu core f s) := by simp [execRemu]
@[simp] theorem execAnd_burns (core f) (s : State) : s.sec.burnsIn (execAnd core f s) := by simp [execAnd]
@[simp] theorem execOr_burns (core f) (s : State) : s.sec.burnsIn (execOr core f s) := by simp [execOr]
@[simp] theorem execXor_burns (core f) (s : State) : s.sec.burnsIn (execXor core f s) := by simp [execXor]
@[simp] theorem execShl_burns (core f) (s : State) : s.sec.burnsIn (execShl core f s) := by simp [execShl]
@[simp] theorem execShr_burns (core f) (s : State) : s.sec.burnsIn (execShr core f s) := by simp [execShr]
@[simp] theorem execSar_burns (core f) (s : State) : s.sec.burnsIn (execSar core f s) := by simp [execSar]
@[simp] theorem execSlt_burns (core f) (s : State) : s.sec.burnsIn (execSlt core f s) := by simp [execSlt]
@[simp] theorem execSltu_burns (core f) (s : State) : s.sec.burnsIn (execSltu core f s) := by simp [execSltu]
@[simp] theorem execMin_burns (core f) (s : State) : s.sec.burnsIn (execMin core f s) := by simp [execMin]
@[simp] theorem execMax_burns (core f) (s : State) : s.sec.burnsIn (execMax core f s) := by simp [execMax]
@[simp] theorem execLi_burns (core f) (s : State) : s.sec.burnsIn (execLi core f s) := by simp [execLi]
@[simp] theorem State.fpu_burns (s : State) (core f op) : s.sec.burnsIn (s.fpu core f op) := by simp [State.fpu]
@[simp] theorem execFadd_burns (core f) (s : State) : s.sec.burnsIn (execFadd core f s) := by simp [execFadd]
@[simp] theorem execFmul_burns (core f) (s : State) : s.sec.burnsIn (execFmul core f s) := by simp [execFmul]
@[simp] theorem execFmax_burns (core f) (s : State) : s.sec.burnsIn (execFmax core f s) := by simp [execFmax]
@[simp] theorem execLds_burns (core f) (s : State) : s.sec.burnsIn (execLds core f s) := by simp [execLds]
@[simp] theorem execSts_burns (core f) (s : State) : s.sec.burnsIn (execSts core f s) := by simp [execSts]
@[simp] theorem execLdw_burns (core f) (s : State) : s.sec.burnsIn (execLdw core f s) := by simp [execLdw]
@[simp] theorem execStw_burns (core f) (s : State) : s.sec.burnsIn (execStw core f s) := by simp [execStw]
@[simp] theorem execMvw_burns (core f) (s : State) : s.sec.burnsIn (execMvw core f s) := by simp [execMvw]
@[simp] theorem execWins_burns (core f) (s : State) : s.sec.burnsIn (execWins core f s) := by simp [execWins]
@[simp] theorem execWext_burns (core f) (s : State) : s.sec.burnsIn (execWext core f s) := by simp [execWext]

/- ## Wide registers -/

@[simp] theorem State.elementwise_burns (s : State) (core f op) : s.sec.burnsIn (s.elementwise core f op) := by simp [State.elementwise]
@[simp] theorem execVadd_burns (core f) (s : State) : s.sec.burnsIn (execVadd core f s) := by simp [execVadd]
@[simp] theorem execVsub_burns (core f) (s : State) : s.sec.burnsIn (execVsub core f s) := by simp [execVsub]
@[simp] theorem execVmul_burns (core f) (s : State) : s.sec.burnsIn (execVmul core f s) := by simp [execVmul]
@[simp] theorem execVfma_burns (core f) (s : State) : s.sec.burnsIn (execVfma core f s) := by simp [execVfma]
@[simp] theorem execVmax_burns (core f) (s : State) : s.sec.burnsIn (execVmax core f s) := by simp [execVmax]
@[simp] theorem execVmin_burns (core f) (s : State) : s.sec.burnsIn (execVmin core f s) := by simp [execVmin]
@[simp] theorem execVbcast_burns (core f) (s : State) : s.sec.burnsIn (execVbcast core f s) := by simp [execVbcast]
@[simp] theorem execVcvt_burns (core f) (s : State) : s.sec.burnsIn (execVcvt core f s) := by simp [execVcvt]
theorem State.drawWhere_sec (p : Prop) [Decidable p] (s : State) : (if p then s.draw else (0, s)).2.sec = s.sec := by split <;> simp
@[simp] theorem execVrsum_burns (core f) (s : State) : s.sec.burnsIn (execVrsum core f s) := by
  unfold execVrsum
  dsimp only
  exact State.issue_burnsIn (State.drawWhere_sec _ s) _ _ _ _
@[simp] theorem execVrmax_burns (core f) (s : State) : s.sec.burnsIn (execVrmax core f s) := by simp [execVrmax]
@[simp] theorem execVqmx_burns (core f) (s : State) : s.sec.burnsIn (execVqmx core f s) := by simp [execVqmx]
@[simp] theorem execMxsplit_burns (core f) (s : State) : s.sec.burnsIn (execMxsplit core f s) := by simp [execMxsplit]

/- ## The engine -/

@[simp] theorem State.fillFeed_sec (s : State) (core n x) : (s.fillFeed core n x).sec = s.sec := by
  unfold State.fillFeed; split <;> simp
@[simp] theorem execMma_burns (core f) (s : State) : s.sec.burnsIn (execMma core f s) := by
  simp [execMma]
@[simp] theorem execMvaw_burns (core f) (s : State) : s.sec.burnsIn (execMvaw core f s) := by simp [execMvaw]
@[simp] theorem execMvwa_burns (core f) (s : State) : s.sec.burnsIn (execMvwa core f s) := by simp [execMvwa]
@[simp] theorem execMvat_burns (core f) (s : State) : s.sec.burnsIn (execMvat core f s) := by simp [execMvat]
@[simp] theorem execMvta_burns (core f) (s : State) : s.sec.burnsIn (execMvta core f s) := by simp [execMvta]
@[simp] theorem execTclr_burns (core f) (s : State) : s.sec.burnsIn (execTclr core f s) := by simp [execTclr]
@[simp] theorem execTstat_burns (core f) (s : State) : s.sec.burnsIn (execTstat core f s) := by simp [execTstat]
@[simp] theorem execSmx_burns (core f) (s : State) : s.sec.burnsIn (execSmx core f s) := by
  unfold execSmx
  dsimp only
  exact State.issue_burnsIn (State.drawWhere_sec _ s) _ _ _ _
@[simp] theorem execExp2_burns (core f) (s : State) : s.sec.burnsIn (execExp2 core f s) := by
  unfold execExp2
  dsimp only
  exact State.issue_burnsIn (State.drawWhere_sec _ s) _ _ _ _
@[simp] theorem execTkinit_burns (core f) (s : State) : s.sec.burnsIn (execTkinit core f s) := by simp [execTkinit]
@[simp] theorem execTopk_burns (core f) (s : State) : s.sec.burnsIn (execTopk core f s) := by simp [execTopk]

/- ## Stream instructions -/

@[simp] theorem execScfg_burns (core f) (s : State) : s.sec.burnsIn (execScfg core f s) := by simp [execScfg]
@[simp] theorem execSgo_burns (core f) (s : State) : s.sec.burnsIn (execSgo core f s) := by simp [execSgo]
@[simp] theorem execSwait_burns (core f) (s : State) : s.sec.burnsIn (execSwait core f s) := by
  simp [execSwait]
@[simp] theorem execSstat_burns (core f) (s : State) : s.sec.burnsIn (execSstat core f s) := by simp [execSstat]
@[simp] theorem execSstop_burns (core f) (s : State) : s.sec.burnsIn (execSstop core f s) := by simp [execSstop]

/- ## Leases and the starts of steps -/

@[simp] theorem State.loseStep_sec (s : State) (core) : (s.loseStep core).sec = s.sec := by
  unfold State.loseStep; dsimp only; (repeat' split) <;> simp
@[simp] theorem State.overrun_sec (s : State) (core) : (s.overrun core).sec = s.sec := by
  unfold State.overrun; dsimp only; (repeat' split) <;> simp
@[simp] theorem State.endSteps_sec (s : State) : s.endSteps.sec = s.sec := by simp [State.endSteps]
@[simp] theorem State.startStep_sec (s : State) (cl core rank n index) : (s.startStep cl core rank n index).sec = s.sec := by simp [State.startStep]
@[simp] theorem State.startSteps_sec (s : State) (cl n rank cs) : (s.startSteps cl n rank cs).sec = s.sec := by
  induction cs generalizing s rank with
  | nil => rfl
  | cons c cs ih => simp [State.startSteps, ih]
@[simp] theorem State.leaseTo_sec (s : State) (free used cls) : (s.leaseTo free used cls).sec = s.sec := by
  induction cls generalizing s free used with
  | nil => rfl
  | cons cl rest ih =>
    unfold State.leaseTo
    dsimp only
    rw [ih]
    simp
@[simp] theorem State.leases_sec (s : State) : s.leases.sec = s.sec := by simp [State.leases]
@[simp] theorem State.voidCalls_sec (s : State) : s.voidCalls.sec = s.sec := by simp [State.voidCalls]

/- ## Function states -/

@[simp] theorem State.fnRefused_sec (s : State) (f cause) : (s.fnRefused f cause).sec = s.sec := by simp [State.fnRefused]
@[simp] theorem actFunction_sec (f v) (s : State) : (actFunction f v s).2.sec = s.sec := by
  unfold actFunction; dsimp only; (repeat' split) <;> simp
@[simp] theorem State.fnWrite_sec (s : State) (rq f v) : (s.fnWrite rq f v).sec = s.sec := by simp [State.fnWrite]
@[simp] theorem execFunctionEnable_burns (rq fn) (s : State) : s.sec.burnsIn (execFunctionEnable rq fn s) := by simp [execFunctionEnable]
@[simp] theorem execFunctionDisable_burns (rq fn) (s : State) : s.sec.burnsIn (execFunctionDisable rq fn s) := by simp [execFunctionDisable]
@[simp] theorem State.fnBegin_sec (s : State) (f cause) : (s.fnBegin f cause).sec = s.sec := by
  unfold State.fnBegin; (repeat' split) <;> simp
@[simp] theorem State.fnStop_sec (s : State) (f cause) : (s.fnStop f cause).sec = s.sec := by simp [State.fnStop]
@[simp] theorem State.fnEnable_sec (s : State) (f cause) : (s.fnEnable f cause).sec = s.sec := by simp [State.fnEnable]
@[simp] theorem State.fnLatched_sec (s : State) (f) : (s.fnLatched f).sec = s.sec := by
  unfold State.fnLatched; dsimp only; (repeat' split) <;> simp
@[simp] theorem State.followRoom_sec (s : State) (k) : (s.followRoom k).sec = s.sec := by
  unfold State.followRoom
  split
  · rfl
  · dsimp only
    rw [foldl_sec fun u t => ?_]
    · simp
    · split
      · rfl
      · split <;> simp
@[simp] theorem State.boundaryFns_sec (s : State) : s.boundaryFns.sec = s.sec := by simp [State.boundaryFns]
@[simp] theorem State.roomOnline_sec (s : State) (k) : (s.roomOnline k).sec = s.sec := by simp [State.roomOnline]
@[simp] theorem State.fnOn_sec (s : State) (f) : (s.fnOn f).sec = s.sec := by
  unfold State.fnOn; dsimp only; (repeat' split) <;> simp
@[simp] theorem execFunctionStarted_burns (fn) (s : State) : s.sec.burnsIn (execFunctionStarted fn s) := by simp [execFunctionStarted]
@[simp] theorem execFunctionSafePoint_burns (fn) (s : State) : s.sec.burnsIn (execFunctionSafePoint fn s) := by simp [execFunctionSafePoint]
@[simp] theorem State.fnOff_sec (s : State) (f) : (s.fnOff f).sec = s.sec := by
  unfold State.fnOff; split <;> simp
@[simp] theorem execFunctionStopped_burns (fn) (s : State) : s.sec.burnsIn (execFunctionStopped fn s) := by simp [execFunctionStopped]

/- ## Restarts -/

@[simp] theorem State.portsQuiet_sec (s : State) : s.portsQuiet.sec = s.sec := by simp [State.portsQuiet]
@[simp] theorem State.startAsk_sec (s : State) (cause) : (s.startAsk cause).sec = s.sec := by simp [State.startAsk]

/- ## The lifecycle, firmware, room keys and alarms -/

@[simp] theorem State.updSec_sec (s : State) (f : Sec → Sec) : (s.updSec f).sec = f s.sec := rfl
@[simp] theorem State.failOpen_sec (s : State) : s.failOpen.sec = s.sec := by simp [State.failOpen]
@[simp] theorem State.roomErased_sec (s : State) (k) : (s.roomErased k).sec = s.sec := by simp [State.roomErased]
@[simp] theorem State.eraseNow_fuses (s : State) (sensor target) :
    (s.eraseNow sensor target).sec.log = s.sec.log ∧ (s.eraseNow sensor target).sec.epoch = s.sec.epoch := by
  simp [State.eraseNow]
@[simp] theorem State.discardAll_fuses (s : State) : s.discardAll.sec.log = s.sec.log ∧ s.discardAll.sec.epoch = s.sec.epoch := by
  simp [State.discardAll]
/-- An erase that ends burns a further entry, and SEAL_EPOCH goes up by one as far as 32. -/
theorem Sec.burnsTo_erased {x y : Sec} {l : Nat} (hlog : y.log = x.log ++ [l]) (hepoch : y.epoch = min 32 (x.epoch + 1)) : x.burnsTo y := by
  refine ⟨hlog ▸ List.prefix_append _ _, fun hx => ?_⟩
  omega
@[simp] theorem execEraseDone_burns (s : State) : s.sec.burnsIn (execEraseDone s) := by
  unfold execEraseDone
  split
  · simp
  · dsimp only
    rw [Sec.burnsIn_next, State.startAsk_sec, State.raise_sec, State.raise_sec, State.updSec_sec]
    exact Sec.burnsTo_erased rfl rfl
/-- LC_ADVANCE burns a further entry and leaves SEAL_EPOCH. -/
theorem Sec.burnsTo_advanced {x y : Sec} {l : Nat} (hlog : y.log = x.log ++ [l]) (hepoch : y.epoch = x.epoch) : x.burnsTo y := by
  refine ⟨hlog ▸ List.prefix_append _ _, fun hx => ?_⟩
  omega
@[simp] theorem actLcAdvance_burns (target) (s : State) : s.sec.burnsTo (actLcAdvance target s).2.sec := by
  unfold actLcAdvance
  split
  · simp
  split
  · simp
  · dsimp only
    rw [State.startAsk_sec, State.raise_sec, State.updSec_sec]
    exact Sec.burnsTo_advanced rfl rfl
@[simp] theorem execLcAdvance_burns (rq payload) (s : State) : s.sec.burnsIn (execLcAdvance rq payload s) :=
  State.odWrite_burnsIn (act := actLcAdvance (ofLe payload)) (by simp) s rq .lcAdvance 0 0 payload noCalls
@[simp] theorem State.setSlot_fuses (s : State) (i x) : (s.setSlot i x).sec.log = s.sec.log ∧ (s.setSlot i x).sec.epoch = s.sec.epoch := by
  simp [State.setSlot]
@[simp] theorem actFwStage_fuses (img) (s : State) : (actFwStage img s).2.sec.log = s.sec.log ∧ (actFwStage img s).2.sec.epoch = s.sec.epoch := by
  unfold actFwStage; dsimp only; (repeat' split) <;> simp
@[simp] theorem execFwStage_burns (rq image) (s : State) : s.sec.burnsIn (execFwStage rq image s) :=
  (Sec.burnsIn_next _ _).mpr (State.odWhole_burns (act := actFwStage image) (by simp) s rq .fwStage 0 0 image noCalls)
@[simp] theorem actFwActivate_fuses (v) (s : State) :
    (actFwActivate v s).2.sec.log = s.sec.log ∧ (actFwActivate v s).2.sec.epoch = s.sec.epoch := by
  unfold actFwActivate; (repeat' split) <;> simp
@[simp] theorem execFwActivate_burns (rq payload) (s : State) : s.sec.burnsIn (execFwActivate rq payload s) :=
  State.odWrite_burnsIn (act := actFwActivate (ofLe payload)) (by simp) s rq .fwActivate 0 0 payload noCalls
@[simp] theorem actFwRestart_sec (v) (s : State) : (actFwRestart v s).2.sec = s.sec := by
  unfold actFwRestart; (repeat' split) <;> simp
@[simp] theorem execFwRestart_burns (rq payload) (s : State) : s.sec.burnsIn (execFwRestart rq payload s) := by simp [execFwRestart]
@[simp] theorem actFwCommit_fuses (v) (s : State) : (actFwCommit v s).2.sec.log = s.sec.log ∧ (actFwCommit v s).2.sec.epoch = s.sec.epoch := by
  unfold actFwCommit; dsimp only; (repeat' split) <;> simp
@[simp] theorem execFwCommit_burns (rq payload) (s : State) : s.sec.burnsIn (execFwCommit rq payload s) :=
  State.odWrite_burnsIn (act := actFwCommit (ofLe payload)) (by simp) s rq .fwCommit 0 0 payload noCalls
@[simp] theorem State.loadKey_fuses (s : State) (k key source) :
    (s.loadKey k key source).sec.log = s.sec.log ∧ (s.loadKey k key source).sec.epoch = s.sec.epoch := by
  simp [State.loadKey]
@[simp] theorem State.drawKey_sec (s : State) : (s.drawKey).2.sec = s.sec := (State.draw_sec _).trans s.draw_sec
@[simp] theorem actKeyGenerate_fuses (k v) (s : State) :
    (actKeyGenerate k v s).2.sec.log = s.sec.log ∧ (actKeyGenerate k v s).2.sec.epoch = s.sec.epoch := by
  unfold actKeyGenerate; dsimp only; (repeat' split) <;> simp
@[simp] theorem execRoomKeyGenerate_burns (rq room payload) (s : State) : s.sec.burnsIn (execRoomKeyGenerate rq room payload s) :=
  State.odWrite_burnsIn (act := actKeyGenerate room (ofLe payload)) (by simp) s rq .roomKeyGenerate room 0 payload noCalls
@[simp] theorem actKeyImport_fuses (k inside keys) (s : State) :
    (actKeyImport k inside keys s).2.sec.log = s.sec.log ∧ (actKeyImport k inside keys s).2.sec.epoch = s.sec.epoch := by
  unfold actKeyImport; dsimp only; (repeat' split) <;> simp
@[simp] theorem execRoomKeyImport_burns (rq room payload) (s : State) : s.sec.burnsIn (execRoomKeyImport rq room payload s) :=
  State.odWrite_burnsIn (act := actKeyImport room (s.secured rq.src) payload) (by simp) s rq .roomKeyImport room 0 payload noCalls
@[simp] theorem State.unwrapKey_fuses (s : State) (k) : (s.unwrapKey k).sec.log = s.sec.log ∧ (s.unwrapKey k).sec.epoch = s.sec.epoch := by
  unfold State.unwrapKey; (repeat' split) <;> simp
@[simp] theorem State.lockNow_fuses (s : State) (sensor) : (s.lockNow sensor).sec.log = s.sec.log ∧ (s.lockNow sensor).sec.epoch = s.sec.epoch := by
  simp [State.lockNow]
@[simp] theorem State.applyTrips_fuses (s : State) (sensors latched) :
    (s.applyTrips sensors latched).sec.log = s.sec.log ∧ (s.applyTrips sensors latched).sec.epoch = s.sec.epoch := by
  unfold State.applyTrips; dsimp only; (repeat' split) <;> simp
@[simp] theorem State.alarmed_fuses (s : State) (m lidLoop) :
    (s.alarmed m lidLoop).sec.log = s.sec.log ∧ (s.alarmed m lidLoop).sec.epoch = s.sec.epoch := by
  simp [State.alarmed]
@[simp] theorem execAlarm_burns (sensors lidLoop) (s : State) : s.sec.burnsIn (execAlarm sensors lidLoop s) := by simp [execAlarm]
@[simp] theorem State.settleLock_fuses (s : State) : s.settleLock.sec.log = s.sec.log ∧ s.settleLock.sec.epoch = s.sec.epoch := by
  simp [State.settleLock]
@[simp] theorem State.settleRelease_fuses (s : State) : s.settleRelease.sec.log = s.sec.log ∧ s.settleRelease.sec.epoch = s.sec.epoch := by
  unfold State.settleRelease; split <;> simp
@[simp] theorem actLockRelease_fuses (src v) (s : State) :
    (actLockRelease src v s).2.sec.log = s.sec.log ∧ (actLockRelease src v s).2.sec.epoch = s.sec.epoch := by
  unfold actLockRelease; (repeat' split) <;> simp
@[simp] theorem execLockRelease_burns (rq payload) (s : State) : s.sec.burnsIn (execLockRelease rq payload s) :=
  State.odWrite_burnsIn (act := actLockRelease rq.src (ofLe payload)) (by simp) s rq .lockRelease 0 0 payload noCalls
@[simp] theorem actAlarmResponse_sec (src sensor v) (s : State) : (actAlarmResponse src sensor v s).2.sec = s.sec := by
  unfold actAlarmResponse; dsimp only; (repeat' split) <;> simp
@[simp] theorem execAlarmResponse_burns (rq sensor payload) (s : State) : s.sec.burnsIn (execAlarmResponse rq sensor payload s) := by
  simp [execAlarmResponse]

/- ## The Cistern -/

@[simp] theorem State.updCistern_sec (s : State) (f) : (s.updCistern f).sec = s.sec := by simp [State.updCistern]
@[simp] theorem State.enterWriteThrough_sec (s : State) : s.enterWriteThrough.sec = s.sec := by simp [State.enterWriteThrough]
@[simp] theorem State.sayCeiling_sec (s : State) (cause) : (s.sayCeiling cause).sec = s.sec := by simp [State.sayCeiling]
@[simp] theorem State.settleThrough_sec (s : State) : s.settleThrough.sec = s.sec := by simp [State.settleThrough]
@[simp] theorem State.settleBreach_sec (s : State) (before) : (s.settleBreach before).sec = s.sec := by simp [State.settleBreach]
@[simp] theorem State.recomputeCeiling_sec (s : State) (first) : (s.recomputeCeiling first).sec = s.sec := by simp [State.recomputeCeiling]
@[simp] theorem State.ceilingBoundary_sec (s : State) : s.ceilingBoundary.sec = s.sec := by simp [State.ceilingBoundary]
@[simp] theorem execCeilingRecompute_burns (s : State) : s.sec.burnsIn (execCeilingRecompute s) := by simp [execCeilingRecompute]
@[simp] theorem execChargeComplete_burns (s : State) : s.sec.burnsIn (execChargeComplete s) := by simp [execChargeComplete]
@[simp] theorem execChargeResume_burns (steps) (s : State) : s.sec.burnsIn (execChargeResume steps s) := by
  unfold execChargeResume; dsimp only; (repeat' split) <;> simp
@[simp] theorem State.packFault_sec (s : State) (cell cause) : (s.packFault cell cause).sec = s.sec := by simp [State.packFault]
@[simp] theorem execCisternFault_burns (cell cause) (s : State) : s.sec.burnsIn (execCisternFault cell cause s) := by simp [execCisternFault]
@[simp] theorem execCisternFaultClear_burns (s : State) : s.sec.burnsIn (execCisternFaultClear s) := by simp [execCisternFaultClear]
@[simp] theorem State.startCheck_sec (s : State) : s.startCheck.sec = s.sec := by simp [State.startCheck]
@[simp] theorem actCheckNow_sec (v) (s : State) : (actCheckNow v s).2.sec = s.sec := by
  unfold actCheckNow; split <;> simp
@[simp] theorem execCheckNow_burns (rq payload) (s : State) : s.sec.burnsIn (execCheckNow rq payload s) := by simp [execCheckNow]
@[simp] theorem execCheckInterval_burns (s : State) : s.sec.burnsIn (execCheckInterval s) := by simp [execCheckInterval]
@[simp] theorem actCheckEvery_sec (v) (s : State) : (actCheckEvery v s).2.sec = s.sec := by simp [actCheckEvery]
@[simp] theorem execCheckDischargeStart_burns (s : State) : s.sec.burnsIn (execCheckDischargeStart s) := by
  unfold execCheckDischargeStart; split <;> simp
@[simp] theorem execCheckDefer_burns (s : State) : s.sec.burnsIn (execCheckDefer s) := by
  unfold execCheckDefer; split <;> simp
@[simp] theorem State.sayEol_sec (s : State) : s.sayEol.sec = s.sec := by
  unfold State.sayEol; dsimp only; (repeat' split) <;> simp
@[simp] theorem execCisternCheck_burns (cells) (s : State) : s.sec.burnsIn (execCisternCheck cells s) := by
  unfold execCisternCheck; split <;> simp
@[simp] theorem execCisternReserve_burns (rq payload) (s : State) : s.sec.burnsIn (execCisternReserve rq payload s) := by simp [execCisternReserve]
@[simp] theorem State.cisternBoundary_sec (s : State) (env) : (s.cisternBoundary env).sec = s.sec := by simp [State.cisternBoundary]
@[simp] theorem State.assessPack_sec (s : State) : s.assessPack.sec = s.sec := by
  simp only [State.assessPack]; (repeat' split) <;> simp

/- ## The start record -/

@[simp] theorem State.updStart_sec (s : State) (f) : (s.updStart f).sec = s.sec := by simp [State.updStart]
@[simp] theorem State.updRec_sec (s : State) (f) : (s.updRec f).sec = s.sec := by simp [State.updRec]
@[simp] theorem State.updStep_sec (s : State) (n f) : (s.updStep n f).sec = s.sec := by simp [State.updStep]
@[simp] theorem State.stepBegun_sec (s : State) (n) : (s.stepBegun n).sec = s.sec := by simp [State.stepBegun]
@[simp] theorem State.stepEnded_sec (s : State) (n outcome detail items) : (s.stepEnded n outcome detail items).sec = s.sec := by
  simp [State.stepEnded]
@[simp] theorem State.interruptSteps_sec (s : State) : s.interruptSteps.sec = s.sec := by simp [State.interruptSteps]
@[simp] theorem State.setFailCount_sec (s : State) (kind inst n) : (s.setFailCount kind inst n).sec = s.sec := by simp [State.setFailCount]
@[simp] theorem actClearCounts_sec (v) (s : State) : (actClearCounts v s).2.sec = s.sec := by
  unfold actClearCounts; dsimp only; (repeat' split) <;> simp
@[simp] theorem execLedgerClearCounts_burns (rq payload) (s : State) : s.sec.burnsIn (execLedgerClearCounts rq payload s) := by
  simp [execLedgerClearCounts]

/- ## The self-test engine -/

@[simp] theorem State.updTest_sec (s : State) (f) : (s.updTest f).sec = s.sec := by simp [State.updTest]
@[simp] theorem State.endRound_sec (s : State) : s.endRound.sec = s.sec := by simp [State.endRound]
@[simp] theorem State.loopPort_sec (s : State) (x begin_) : (s.loopPort x begin_).sec = s.sec := by simp [State.loopPort]
@[simp] theorem execSliceStart_burns (s : State) : s.sec.burnsIn (execSliceStart s) := by
  unfold execSliceStart; dsimp only; (repeat' split) <;> simp
@[simp] theorem State.abortSlice_sec (s : State) (cause) : (s.abortSlice cause).sec = s.sec := by
  unfold State.abortSlice; split <;> simp
@[simp] theorem State.failUnit_sec (s : State) (kind region unit) : (s.failUnit kind region unit).sec = s.sec := by
  unfold State.failUnit; split <;> simp
@[simp] theorem State.settleSlice_sec (s : State) : s.settleSlice.sec = s.sec := by
  unfold State.settleSlice; dsimp only; (repeat' split) <;> simp
@[simp] theorem execSliceEnd_burns (pass measured limit) (s : State) : s.sec.burnsIn (execSliceEnd pass measured limit s) := by
  unfold execSliceEnd; (repeat' split) <;> simp
@[simp] theorem actSelftestFull_sec (v failed untested) (s : State) : (actSelftestFull v failed untested s).2.sec = s.sec := by
  unfold actSelftestFull
  split
  · rfl
  split
  · rfl
  dsimp only
  rw [foldl_sec fun u x => ?_]
  · simp
  · split
    · split <;> simp
    · rfl
@[simp] theorem execSelftestFull_burns (rq payload failed untested) (s : State) : s.sec.burnsIn (execSelftestFull rq payload failed untested s) := by
  simp [execSelftestFull]
@[simp] theorem State.unholdCluster_sec (s : State) (region unit) : (s.unholdCluster region unit).sec = s.sec := by
  unfold State.unholdCluster; (repeat' split) <;> simp
@[simp] theorem State.restoreUnit_sec (s : State) (region unit) : (s.restoreUnit region unit).sec = s.sec := by
  unfold State.restoreUnit; split <;> simp
@[simp] theorem actBenchRestore_sec (v pass) (s : State) : (actBenchRestore v pass s).2.sec = s.sec := by
  unfold actBenchRestore; dsimp only; (repeat' split) <;> simp
@[simp] theorem execBenchRestore_burns (rq payload pass) (s : State) : s.sec.burnsIn (execBenchRestore rq payload pass s) := by
  simp [execBenchRestore]

/- ## Quiet and the power cap -/

@[simp] theorem State.updPower_sec (s : State) (f) : (s.updPower f).sec = s.sec := by simp [State.updPower]
@[simp] theorem actQuietEnter_sec (v) (s : State) : (actQuietEnter v s).2.sec = s.sec := by
  unfold actQuietEnter; (repeat' split) <;> simp
@[simp] theorem execQuietEnter_burns (rq payload) (s : State) : s.sec.burnsIn (execQuietEnter rq payload s) := by simp [execQuietEnter]
@[simp] theorem State.quietBoundary_sec (s : State) : s.quietBoundary.sec = s.sec := by
  unfold State.quietBoundary; split <;> simp
@[simp] theorem execQuietFreeze_burns (s : State) : s.sec.burnsIn (execQuietFreeze s) := by simp [execQuietFreeze]
@[simp] theorem execQuietEntered_burns (s : State) : s.sec.burnsIn (execQuietEntered s) := by
  unfold execQuietEntered; dsimp only; (repeat' split) <;> simp
@[simp] theorem actQuietExit_sec (v) (s : State) : (actQuietExit v s).2.sec = s.sec := by
  unfold actQuietExit; (repeat' split) <;> simp
@[simp] theorem execQuietExit_burns (rq payload) (s : State) : s.sec.burnsIn (execQuietExit rq payload s) := by simp [execQuietExit]
@[simp] theorem execQuietExitEnd_burns (s : State) : s.sec.burnsIn (execQuietExitEnd s) := by
  unfold execQuietExitEnd; split <;> simp
@[simp] theorem State.advanceFronts_sec (s : State) : s.advanceFronts.sec = s.sec := by simp [State.advanceFronts]
@[simp] theorem execZeroingPassEnd_burns (s : State) : s.sec.burnsIn (execZeroingPassEnd s) := by
  unfold execZeroingPassEnd; split <;> simp
@[simp] theorem actPowerCap_sec (v) (s : State) : (actPowerCap v s).2.sec = s.sec := by
  unfold actPowerCap; split <;> simp
@[simp] theorem execPowerCap_burns (rq payload) (s : State) : s.sec.burnsIn (execPowerCap rq payload s) := by simp [execPowerCap]
@[simp] theorem execCappedReturnFull_burns (s : State) : s.sec.burnsIn (execCappedReturnFull s) := by simp [execCappedReturnFull]

/- ## Time and the tally writer -/

@[simp] theorem State.timeTo_sec (s : State) (new off) : (s.timeTo new off).sec = s.sec := by simp [State.timeTo]
@[simp] theorem State.measured_sec (s : State) (off src) : (s.measured off src).sec = s.sec := by simp [State.measured]
@[simp] theorem State.acquire_sec (s : State) (off tai) : (s.acquire off tai).2.sec = s.sec := by
  unfold State.acquire; dsimp only; (repeat' split) <;> simp
@[simp] theorem execPtpMeasurement_burns (domain offset tai) (s : State) : s.sec.burnsIn (execPtpMeasurement domain offset tai s) := by
  unfold execPtpMeasurement; split <;> simp
@[simp] theorem State.sendBeacon_sec (s : State) (p b) : (s.sendBeacon p b).sec = s.sec := by simp [State.sendBeacon]
@[simp] theorem execTimeBeacon_burns (port b) (s : State) : s.sec.burnsIn (execTimeBeacon port b s) := by
  unfold execTimeBeacon; dsimp only; (repeat' split) <;> simp
@[simp] theorem State.beaconRound_sec (s : State) (ps) : (s.beaconRound ps).sec = s.sec := by
  induction ps generalizing s with
  | nil => rfl
  | cons p ps ih =>
    unfold State.beaconRound
    dsimp only
    rw [ih]
    split <;> simp
@[simp] theorem execBeaconSend_burns (s : State) : s.sec.burnsIn (execBeaconSend s) := by
  unfold execBeaconSend; split <;> simp
@[simp] theorem execTimeHoldover_burns (s : State) : s.sec.burnsIn (execTimeHoldover s) := by
  unfold execTimeHoldover; dsimp only; (repeat' split) <;> simp
@[simp] theorem execHoldoverEstimateAdrift_burns (s : State) : s.sec.burnsIn (execHoldoverEstimateAdrift s) := by
  unfold execHoldoverEstimateAdrift; dsimp only; (repeat' split) <;> simp
@[simp] theorem execPtpAnnounce_burns (domain a) (s : State) : s.sec.burnsIn (execPtpAnnounce domain a s) := by
  unfold execPtpAnnounce; split <;> simp
@[simp] theorem State.overflowEnd_sec (s : State) : s.overflowEnd.sec = s.sec := by simp [State.overflowEnd]
theorem State.drainTo_sec (s : State) (x : Tally) : ((s.setTally x).overflowEnd.unhold).sec = s.sec := by simp
@[simp] theorem execTallyPageDrain_burns (s : State) : s.sec.burnsIn (execTallyPageDrain s) := by
  unfold execTallyPageDrain
  split
  · simp
  · dsimp only
    rw [Sec.burnsIn_next, State.drainTo_sec]
    exact Sec.burnsTo_self _

/- ## Brace, Flush and Sealed -/

@[simp] theorem State.assertFault_sec (s : State) : s.assertFault.sec = s.sec := by simp [State.assertFault]
@[simp] theorem State.voidShelf_sec (s : State) (n) : (s.voidShelf n).sec = s.sec := by
  unfold State.voidShelf; dsimp only; (repeat' split) <;> simp
@[simp] theorem State.onPack_sec (s : State) : s.onPack.sec = s.sec := by simp [State.onPack]
@[simp] theorem State.startBrace_sec (s : State) (cause) : (s.startBrace cause).sec = s.sec := by
  unfold State.startBrace; dsimp only; (repeat' split) <;> simp
@[simp] theorem State.sealStart_sec (s : State) (cause) : (s.sealStart cause).sec = s.sec := by simp [State.sealStart]
@[simp] theorem State.powerLoss_sec (s : State) (cause) : (s.powerLoss cause).sec = s.sec := by simp [State.powerLoss]
@[simp] theorem State.moduleFail_sec (s : State) : s.moduleFail.sec = s.sec := by simp [State.moduleFail]
@[simp] theorem State.setInput_sec (s : State) (i p) : (s.setInput i p).sec = s.sec := by simp [State.setInput]
@[simp] theorem State.takeInput_sec (s : State) (i) : (s.takeInput i).sec = s.sec := by simp [State.takeInput]
@[simp] theorem State.pwrfail_sec (s : State) : s.pwrfail.sec = s.sec := by simp [State.pwrfail]
@[simp] theorem execPwrfailNAsserted_burns (s : State) : s.sec.burnsIn (execPwrfailNAsserted s) := by simp [execPwrfailNAsserted]
@[simp] theorem execInputBelow38v_burns (s : State) : s.sec.burnsIn (execInputBelow38v s) := by simp [execInputBelow38v]
@[simp] theorem execRegionFault_burns (_region) (s : State) : s.sec.burnsIn (execRegionFault _region s) := by simp [execRegionFault]
@[simp] theorem execDieAtLimit_burns (die) (s : State) : s.sec.burnsIn (execDieAtLimit die s) := by
  unfold execDieAtLimit; dsimp only; (repeat' split) <;> simp
@[simp] theorem execKeeperWatchdog_burns (s : State) : s.sec.burnsIn (execKeeperWatchdog s) := by
  unfold execKeeperWatchdog; (repeat' split) <;> simp
@[simp] theorem execKeeperRestartDone_burns (s : State) : s.sec.burnsIn (execKeeperRestartDone s) := by simp [execKeeperRestartDone]
@[simp] theorem State.listPages_sec (s : State) (l) : (s.listPages l).2.sec = s.sec := by
  induction l generalizing s with
  | nil => rfl
  | cons e l ih =>
    obtain ⟨k, p⟩ := e
    unfold State.listPages
    dsimp only
    rw [ih]
    split <;> simp
@[simp] theorem State.flushLanding_fuses (s : State) : s.flushLanding.sec.log = s.sec.log ∧ s.flushLanding.sec.epoch = s.sec.epoch := by
  unfold State.flushLanding
  extract_lets mine s1
  have h1 : s1.sec = s.sec := by
    simp only [s1]
    split
    · rfl
    · exact foldl_sec (fun u e => getD_sec fun t => State.storeSlot_sec) mine s
  clear_value s1
  simp [h1]
theorem State.unheldTo_sec (s : State) (x : Tally) (n : Nat) : ((s.setTally x).unholdN n).sec = s.sec := by simp
theorem State.powerTally_sec (s : State) (f : Power → Power) (x : Tally) : ((s.updPower f).setTally x).sec = s.sec := by simp
theorem State.tallyPower_sec (s : State) (f : Power → Power) (x : Tally) : ((s.setTally x).updPower f).sec = s.sec := by simp
@[simp] theorem State.sealTally_sec (s : State) : s.sealTally.sec = s.sec := by
  unfold State.sealTally
  dsimp only
  rw [State.tallyPower_sec, State.raise_sec, State.unheldTo_sec, State.overflowEnd_sec, State.powerTally_sec]
@[simp] theorem State.startFlush_fuses (s : State) : s.startFlush.sec.log = s.sec.log ∧ s.startFlush.sec.epoch = s.sec.epoch := by
  unfold State.startFlush
  dsimp only
  rw [State.setFlush_sec, State.listPages_sec, State.setCellar_sec, State.sealTally_sec]
  split
  · rw [State.updCistern_sec, State.updPower_sec]
    exact ⟨rfl, rfl⟩
  · rw [(State.flushLanding_fuses _).1, (State.flushLanding_fuses _).2, State.updCistern_sec, State.updPower_sec]
    exact ⟨rfl, rfl⟩
@[simp] theorem execBraceEnd_burns (s : State) : s.sec.burnsIn (execBraceEnd s) := by simp [execBraceEnd]
@[simp] theorem execBraceLimit_burns (s : State) : s.sec.burnsIn (execBraceLimit s) := by simp [execBraceLimit]
@[simp] theorem State.sealZone_sec (s : State) (set rows) : (s.sealZone set rows).sec = s.sec := by simp [State.sealZone]
@[simp] theorem State.enterSealed_sec (s : State) : s.enterSealed.sec = s.sec := by simp [State.enterSealed]
@[simp] theorem execFlushComplete_burns (drawn zone) (s : State) : s.sec.burnsIn (execFlushComplete drawn zone s) := by
  unfold execFlushComplete; split <;> simp
@[simp] theorem State.railsLost_sec (s : State) : s.railsLost.sec = s.sec := by simp [State.railsLost]
@[simp] theorem State.goOff_sec (s : State) : s.goOff.sec = s.sec := by simp [State.goOff]
@[simp] theorem execRailsFall_burns (listed programmed) (s : State) : s.sec.burnsIn (execRailsFall listed programmed s) := by
  unfold execRailsFall; (repeat' split) <;> simp
@[simp] theorem execPowerReturn_burns (s : State) : s.sec.burnsIn (execPowerReturn s) := by simp [execPowerReturn]

/- ## Link training -/

@[simp] theorem actPortRole_sec (p v) (s : State) : (actPortRole p v s).2.sec = s.sec := by
  unfold actPortRole; dsimp only; (repeat' split) <;> simp
@[simp] theorem execPortRole_burns (rq port payload) (s : State) : s.sec.burnsIn (execPortRole rq port payload s) := by simp [execPortRole]
@[simp] theorem State.portFailed_sec (s : State) (p) : (s.portFailed p).sec = s.sec := by
  unfold State.portFailed; split <;> simp
@[simp] theorem State.linkTo_sec (s : State) (p m) : (s.linkTo p m).sec = s.sec := by simp [State.linkTo]
@[simp] theorem execReceiverDetected_burns (port lanes) (s : State) : s.sec.burnsIn (execReceiverDetected port lanes s) := by
  simp [execReceiverDetected]
@[simp] theorem execDetectTimeout_burns (port) (s : State) : s.sec.burnsIn (execDetectTimeout port s) := by simp [execDetectTimeout]
@[simp] theorem execDetectRetry_burns (port) (s : State) : s.sec.burnsIn (execDetectRetry port s) := by simp [execDetectRetry]
@[simp] theorem execEqualiseDone_burns (port) (s : State) : s.sec.burnsIn (execEqualiseDone port s) := by simp [execEqualiseDone]
@[simp] theorem execEqualiseLimit_burns (port agreed) (s : State) : s.sec.burnsIn (execEqualiseLimit port agreed s) := by
  unfold execEqualiseLimit; dsimp only; (repeat' split) <;> simp
@[simp] theorem State.portUp_sec (s : State) (p partner reversed polarity width at_) :
    (s.portUp p partner reversed polarity width at_).sec = s.sec := by
  simp [State.portUp]
@[simp] theorem execConfigureExchange_burns (port partner reversed polarity) (s : State) :
    s.sec.burnsIn (execConfigureExchange port partner reversed polarity s) := by
  unfold execConfigureExchange; dsimp only; (repeat' split) <;> simp
@[simp] theorem execConfigureTimeout_burns (port) (s : State) : s.sec.burnsIn (execConfigureTimeout port s) := by simp [execConfigureTimeout]
@[simp] theorem State.startRetrain_sec (s : State) (p trigger) : (s.startRetrain p trigger).sec = s.sec := by simp [State.startRetrain]
@[simp] theorem execRetrain_burns (port cause) (s : State) : s.sec.burnsIn (execRetrain port cause s) := by simp [execRetrain]
@[simp] theorem State.retrained_sec (s : State) (p w) : (s.retrained p w).sec = s.sec := by simp [State.retrained]
@[simp] theorem execRetrainDone_burns (port lanes) (s : State) : s.sec.burnsIn (execRetrainDone port lanes s) := by
  unfold execRetrainDone; dsimp only; (repeat' split) <;> simp
@[simp] theorem execRetrainTimeout_burns (port) (s : State) : s.sec.burnsIn (execRetrainTimeout port s) := by simp [execRetrainTimeout]
@[simp] theorem State.nacked_sec (s : State) (p ackSeq) : (s.nacked p ackSeq).sec = s.sec := by simp [State.nacked]
@[simp] theorem execNack_burns (port ackSeq) (s : State) : s.sec.burnsIn (execNack port ackSeq s) := by simp [execNack]
@[simp] theorem execAckTimeout_burns (port) (s : State) : s.sec.burnsIn (execAckTimeout port s) := by simp [execAckTimeout]
@[simp] theorem execLaneFecLimit_burns (port lane) (s : State) : s.sec.burnsIn (execLaneFecLimit port lane s) := by
  unfold execLaneFecLimit; dsimp only; (repeat' split) <;> simp

/- ## Scrubbers and the blocks that are read -/

@[simp] theorem State.loftLost_sec (s : State) (x) : (s.loftLost x).sec = s.sec := by
  unfold State.loftLost; dsimp only; (repeat' split) <;> simp
@[simp] theorem State.loftBad_sec (s : State) (b) : (s.loftBad b).sec = s.sec := by simp [State.loftBad]
@[simp] theorem State.loftCount_sec (s : State) (c) : (s.loftCount c).sec = s.sec := by simp [State.loftCount]
@[simp] theorem execLoftScrubPass_burns (counts bad) (s : State) : s.sec.burnsIn (execLoftScrubPass counts bad s) := by
  unfold execLoftScrubPass; split <;> simp
@[simp] theorem getTallyBlock_sec (a) (s : State) : (getTallyBlock a s).2.sec = s.sec := by simp [getTallyBlock]
@[simp] theorem execTallyBlock_burns (rq) (s : State) : s.sec.burnsIn (execTallyBlock rq s) := by simp [execTallyBlock]
@[simp] theorem getRubbleBlock_sec (a) (s : State) : (getRubbleBlock a s).2.sec = s.sec := by simp [getRubbleBlock]
@[simp] theorem execRubbleBlock_burns (rq) (s : State) : s.sec.burnsIn (execRubbleBlock rq s) := by simp [execRubbleBlock]
@[simp] theorem actBankMask_sec (payload) (s : State) : (actBankMask payload s).2.sec = s.sec := by
  unfold actBankMask; (repeat' split) <;> simp
@[simp] theorem execBankMask_burns (rq payload) (s : State) : s.sec.burnsIn (execBankMask rq payload s) := by simp [execBankMask]
@[simp] theorem execStoreSetPointMax_burns (rq payload) (s : State) : s.sec.burnsIn (execStoreSetPointMax rq payload s) := by
  simp [execStoreSetPointMax]

/- ## The board -/

@[simp] theorem State.boardEvent_sec (s : State) (code sev args) : (s.boardEvent code sev args).sec = s.sec := by simp [State.boardEvent]
@[simp] theorem State.boardTrip_sec (s : State) (input) : (s.boardTrip input).sec = s.sec := by simp [State.boardTrip]
@[simp] theorem State.thermTrip_sec (s : State) : s.thermTrip.sec = s.sec := by simp [State.thermTrip]
@[simp] theorem execThermTripNAsserted_burns (s : State) : s.sec.burnsIn (execThermTripNAsserted s) := by simp [execThermTripNAsserted]
@[simp] theorem State.resetAsserted_sec (s : State) : s.resetAsserted.sec = s.sec := by simp [State.resetAsserted]
@[simp] theorem execResetNAsserted_burns (s : State) : s.sec.burnsIn (execResetNAsserted s) := by simp [execResetNAsserted]
@[simp] theorem State.resetDeasserted_sec (s : State) : s.resetDeasserted.sec = s.sec := by
  unfold State.resetDeasserted; dsimp only; (repeat' split) <;> simp
@[simp] theorem execResetNDeasserted_burns (s : State) : s.sec.burnsIn (execResetNDeasserted s) := by simp [execResetNDeasserted]
@[simp] theorem State.unseated_sec (s : State) : s.unseated.sec = s.sec := by simp [State.unseated]
@[simp] theorem execSeatLost_burns (s : State) : s.sec.burnsIn (execSeatLost s) := by simp [execSeatLost]
@[simp] theorem execPresentNAsserted_burns (s : State) : s.sec.burnsIn (execPresentNAsserted s) := by simp [execPresentNAsserted]
@[simp] theorem State.inputAsserted_fuses (s : State) (i) :
    (s.inputAsserted i).sec.log = s.sec.log ∧ (s.inputAsserted i).sec.epoch = s.sec.epoch := by
  unfold State.inputAsserted; split <;> simp
@[simp] theorem execInputToggling_burns (input edges) (s : State) : s.sec.burnsIn (execInputToggling input edges s) := by
  unfold execInputToggling; dsimp only; (repeat' split) <;> simp
@[simp] theorem execInputDeasserted_burns (input) (s : State) : s.sec.burnsIn (execInputDeasserted input s) := by
  unfold execInputDeasserted; split <;> simp
@[simp] theorem execInputFaulty_burns (input) (s : State) : s.sec.burnsIn (execInputFaulty input s) := by
  unfold execInputFaulty; dsimp only; (repeat' split) <;> simp
@[simp] theorem State.rearm_fuses (s : State) (port i) : (s.rearm port i).sec.log = s.sec.log ∧ (s.rearm port i).sec.epoch = s.sec.epoch := by
  simp [State.rearm]
@[simp] theorem actInputRearm_fuses (src v) (s : State) :
    (actInputRearm src v s).2.sec.log = s.sec.log ∧ (actInputRearm src v s).2.sec.epoch = s.sec.epoch := by
  unfold actInputRearm
  extract_lets port l
  clear_value port
  split
  · simp
  · split
    · exact foldl_fuses (by simp) (by simp) l s
    · simp
@[simp] theorem execInputRearm_burns (rq payload) (s : State) : s.sec.burnsIn (execInputRearm rq payload s) :=
  State.odWrite_burnsIn (act := actInputRearm rq.src (ofLe payload)) (by simp) s rq .inputRearm 0 0 payload noCalls
@[simp] theorem execInputOvervoltage_burns (peak) (s : State) : s.sec.burnsIn (execInputOvervoltage peak s) := by
  unfold execInputOvervoltage; split <;> simp
@[simp] theorem execInputSwitchClose_burns (s : State) : s.sec.burnsIn (execInputSwitchClose s) := by simp [execInputSwitchClose]
@[simp] theorem execAuxLost_burns (mv) (s : State) : s.sec.burnsIn (execAuxLost mv s) := by
  unfold execAuxLost; dsimp only; (repeat' split) <;> simp
@[simp] theorem execBenchEnNAsserted_burns (s : State) : s.sec.burnsIn (execBenchEnNAsserted s) := by simp [execBenchEnNAsserted]
@[simp] theorem execBenchEnNDeasserted_burns (s : State) : s.sec.burnsIn (execBenchEnNDeasserted s) := by simp [execBenchEnNDeasserted]
@[simp] theorem State.jtagRuns_sec (s : State) (ir bits) : (s.jtagRuns ir bits).sec = s.sec := by simp [State.jtagRuns]
@[simp] theorem execBypass_burns (s : State) : s.sec.burnsIn (execBypass s) := by simp [execBypass]
@[simp] theorem execIdcode_burns (s : State) : s.sec.burnsIn (execIdcode s) := by simp [execIdcode]
@[simp] theorem execSamplePreload_burns (data) (s : State) : s.sec.burnsIn (execSamplePreload data s) := by
  unfold execSamplePreload; split <;> simp
@[simp] theorem execExtest_burns (s : State) : s.sec.burnsIn (execExtest s) := by simp [execExtest]

/- ## Vaults -/

@[simp] theorem State.joinRefused_sec (s : State) (m cause) : (s.joinRefused m cause).sec = s.sec := by simp [State.joinRefused]
@[simp] theorem State.epochChange_sec (s : State) : s.epochChange.sec = s.sec := by simp [State.epochChange]
@[simp] theorem State.joinSelf_sec (s : State) : s.joinSelf.sec = s.sec := by simp [State.joinSelf]
@[simp] theorem State.fencedSaid_sec (s : State) (m side) : (s.fencedSaid m side).sec = s.sec := by simp [State.fencedSaid]
@[simp] theorem State.fenceSelf_sec (s : State) (m) : (s.fenceSelf m).sec = s.sec := by simp [State.fenceSelf]
@[simp] theorem State.fencePeer_sec (s : State) (m) : (s.fencePeer m).sec = s.sec := by simp [State.fencePeer]
@[simp] theorem State.refusePeer_sec (s : State) (m cause) : (s.refusePeer m cause).sec = s.sec := by simp [State.refusePeer]
@[simp] theorem State.checkPeer_sec (s : State) (v) : (s.checkPeer v).sec = s.sec := by simp [State.checkPeer]
@[simp] theorem State.tryPeers_sec (s : State) (may views) : (s.tryPeers may views).sec = s.sec := by
  unfold State.tryPeers
  refine foldl_sec (fun u v => ?_) _ s
  dsimp only
  split <;> simp
@[simp] theorem actVaultJoin_sec (v views) (s : State) : (actVaultJoin v views s).2.sec = s.sec := by
  unfold actVaultJoin
  split
  · rfl
  · split <;> simp
@[simp] theorem execVaultJoin_burns (rq payload views) (s : State) : s.sec.burnsIn (execVaultJoin rq payload views s) := by simp [execVaultJoin]
@[simp] theorem execJoinRetry_burns (views) (s : State) : s.sec.burnsIn (execJoinRetry views s) := by
  unfold execJoinRetry
  extract_lets due may s1
  have h1 : s1.sec = s.sec := by simp [s1]
  clear_value s1
  simp [h1]
@[simp] theorem actVaultLeave_sec (v) (s : State) : (actVaultLeave v s).2.sec = s.sec := by
  unfold actVaultLeave; dsimp only; (repeat' split) <;> simp
@[simp] theorem execVaultLeave_burns (rq payload) (s : State) : s.sec.burnsIn (execVaultLeave rq payload s) := by simp [execVaultLeave]
@[simp] theorem State.losePeer_sec (s : State) (m cause) : (s.losePeer m cause).sec = s.sec := by simp [State.losePeer]
@[simp] theorem actPeerFailed_sec (m) (s : State) : (actPeerFailed m s).2.sec = s.sec := by
  unfold actPeerFailed; split <;> simp
@[simp] theorem execPeerFailed_burns (rq payload) (s : State) : s.sec.burnsIn (execPeerFailed rq payload s) := by simp [execPeerFailed]
@[simp] theorem execPeerSilence_burns (member) (s : State) : s.sec.burnsIn (execPeerSilence member s) := by simp [execPeerSilence]
theorem State.tellWhere_sec (s : State) (p : State → Nat → Prop) [∀ u m, Decidable (p u m)] (subject : State → Nat)
    (data : State → List Byte) (l : List Nat) :
    (l.foldl (fun s m => if p s m then s.tell m 11 (subject s) 0 0 (data s) else s) s).sec = s.sec := by simp
@[simp] theorem execAliveSend_burns (s : State) : s.sec.burnsIn (execAliveSend s) := by
  unfold execAliveSend
  split
  · simp
  · rw [Sec.burnsIn_next, State.tellWhere_sec]
    exact Sec.burnsTo_self _
@[simp] theorem State.settleGather_sec (s : State) : s.settleGather.sec = s.sec := by simp [State.settleGather]
@[simp] theorem actPoolGather_sec (room v) (s : State) : (actPoolGather room v s).2.sec = s.sec := by
  unfold actPoolGather; (repeat' split) <;> simp
@[simp] theorem execPoolGather_burns (rq room payload) (s : State) : s.sec.burnsIn (execPoolGather rq room payload s) := by simp [execPoolGather]
@[simp] theorem execPageMoveResend_burns (s : State) : s.sec.burnsIn (execPageMoveResend s) := by simp [execPageMoveResend]
@[simp] theorem State.hear_sec (s : State) (m) : (s.hear m).sec = s.sec := by simp [State.hear]
@[simp] theorem State.moveIn_sec {act : State → State} (hact : ∀ u, (act u).sec = u.sec) (s : State) (port tag src kind) (takes) :
    (s.moveIn port tag src kind act takes).sec = s.sec := by
  unfold State.moveIn
  split
  · rfl
  split
  · simp
  split
  · simp
  split
  · simp
  · dsimp only
    split
    · simp
    · split <;> simp [hact]
theorem State.moveIn_burnsIn {act : State → State} (hact : ∀ u, (act u).sec = u.sec) (s : State) (port tag src kind) (takes) :
    s.sec.burnsIn (.next (s.moveIn port tag src kind act takes)) := by simp [hact]
@[simp] theorem execMoveReq_burns (port tag src room page) (s : State) : s.sec.burnsIn (execMoveReq port tag src room page s) := by
  refine State.moveIn_burnsIn (fun u => ?_) s _ _ _ _ _
  simp
@[simp] theorem execMoveOrder_burns (port tag src room page target) (s : State) : s.sec.burnsIn (execMoveOrder port tag src room page target s) := by
  refine State.moveIn_burnsIn (fun u => ?_) s _ _ _ _ _
  split <;> simp
@[simp] theorem execMoveData_burns (port tag src room page generation data) (s : State) :
    s.sec.burnsIn (execMoveData port tag src room page generation data s) := by
  refine State.moveIn_burnsIn (fun u => ?_) s _ _ _ _ _
  split <;> simp
@[simp] theorem execMoveEmpty_burns (port tag src room page) (s : State) : s.sec.burnsIn (execMoveEmpty port tag src room page s) := by
  refine State.moveIn_burnsIn (fun u => ?_) s _ _ _ _ _
  split <;> simp
@[simp] theorem execMoveSoon_burns (port tag src room page landing) (s : State) : s.sec.burnsIn (execMoveSoon port tag src room page landing s) := by
  refine State.moveIn_burnsIn (fun u => ?_) s _ _ _ _ _
  split <;> simp
@[simp] theorem execMoveAck_burns (port tag src room page pinEnd) (s : State) : s.sec.burnsIn (execMoveAck port tag src room page pinEnd s) := by
  refine State.moveIn_burnsIn (fun u => ?_) s _ _ _ _ _
  split
  · split <;> simp
  · rfl
@[simp] theorem execMoveRelease_burns (port tag src room page done) (s : State) : s.sec.burnsIn (execMoveRelease port tag src room page done s) := by
  refine State.moveIn_burnsIn (fun u => ?_) s _ _ _ _ _
  split
  · rfl
  split
  · split <;> simp
  · split <;> simp
@[simp] theorem execMoveDefer_burns (port tag src room page cause retry) (s : State) :
    s.sec.burnsIn (execMoveDefer port tag src room page cause retry s) := by
  refine State.moveIn_burnsIn (fun u => ?_) s _ _ _ _ _
  split <;> simp
@[simp] theorem State.moveRefused_sec (s : State) (k src cause) : (s.moveRefused k src cause).sec = s.sec := by
  unfold State.moveRefused; (repeat' split) <;> simp
@[simp] theorem execMoveRefused_burns (port tag src room page cause) (s : State) :
    s.sec.burnsIn (execMoveRefused port tag src room page cause s) := by
  refine State.moveIn_burnsIn (fun u => ?_) s _ _ _ _ _
  simp
@[simp] theorem State.moveQuery_sec (s : State) (k src) : (s.moveQuery k src).sec = s.sec := by
  unfold State.moveQuery; (repeat' split) <;> simp
@[simp] theorem execMoveQuery_burns (port tag src room page) (s : State) : s.sec.burnsIn (execMoveQuery port tag src room page s) := by
  refine State.moveIn_burnsIn (fun u => ?_) s _ _ _ _ _
  simp
@[simp] theorem State.aliveFrom_sec (s : State) (m epoch) : (s.aliveFrom m epoch).sec = s.sec := by simp [State.aliveFrom]
@[simp] theorem execAlive_burns (port tag src epoch) (s : State) : s.sec.burnsIn (execAlive port tag src epoch s) := by
  refine State.moveIn_burnsIn (fun u => ?_) s _ _ _ _ _
  simp

/- ## SPDM -/

@[simp] theorem State.putSpdm_fuses (s : State) (x) : (s.putSpdm x).sec.log = s.sec.log ∧ (s.putSpdm x).sec.epoch = s.sec.epoch := by
  simp [State.putSpdm]
@[simp] theorem State.sessionSaid_sec (s : State) (a what) : (s.sessionSaid a what).sec = s.sec := by simp [State.sessionSaid]
@[simp] theorem State.closeSession_fuses (s : State) (a) : (s.closeSession a).sec.log = s.sec.log ∧ (s.closeSession a).sec.epoch = s.sec.epoch := by
  simp [State.closeSession]
@[simp] theorem State.sweepSpdm_fuses (s : State) : s.sweepSpdm.sec.log = s.sec.log ∧ s.sweepSpdm.sec.epoch = s.sec.epoch := by
  unfold State.sweepSpdm
  extract_lets gone s1
  have h1 : s1.sec.log = s.sec.log ∧ s1.sec.epoch = s.sec.epoch := foldl_fuses (by simp) (by simp) gone s
  clear_value s1
  simp [h1]
/-- What an SPDM request does keeps the fuses where its handler does. -/
theorem State.spdmTake_fuses {act : SpdmAct} (hact : ∀ x u, (act x u).2.2.sec.log = u.sec.log ∧ (act x u).2.2.sec.epoch = u.sec.epoch)
    (rq : Rq) (sid msg) (s : State) :
    (State.spdmTake rq sid msg act s).2.sec.log = s.sec.log ∧ (State.spdmTake rq sid msg act s).2.sec.epoch = s.sec.epoch := by
  unfold State.spdmTake
  extract_lets x mine x1 outside early r y s1
  have hr : r.2.2.sec.log = s.sec.log ∧ r.2.2.sec.epoch = s.sec.epoch := by
    simp only [r]
    generalize (if field msg 1 1 = 0x84 then 0x10 else 0x13) = version
    split
    · simp
    split
    · simp
    split
    · simp
    · exact hact x1 s
  clear_value r
  simp [s1, hr]
theorem State.spdmCommand_burns {act : SpdmAct} (hact : ∀ x u, (act x u).2.2.sec.log = u.sec.log ∧ (act x u).2.2.sec.epoch = u.sec.epoch)
    (s : State) (rq sid msg) : s.sec.burnsIn (.next (s.spdmCommand rq sid msg act)) :=
  (Sec.burnsIn_next _ _).mpr (State.odWhole_burns (act := State.spdmTake rq sid msg act)
    (fun u => Sec.burnsTo_of_same (State.spdmTake_fuses hact rq sid msg u).1 (State.spdmTake_fuses hact rq sid msg u).2)
    s rq .spdmMessage 0 0 msg noCalls)
theorem negotiated_sec {act : SpdmAct} (hact : ∀ x u, (act x u).2.2.sec = u.sec) (x : Spdm) (s : State) : (negotiated act x s).2.2.sec = s.sec := by
  unfold negotiated
  split
  · exact hact _ s
  · rfl
theorem negotiated_fuses {act : SpdmAct} (hact : ∀ x u, (act x u).2.2.sec.log = u.sec.log ∧ (act x u).2.2.sec.epoch = u.sec.epoch) (x : Spdm)
    (s : State) : (negotiated act x s).2.2.sec.log = s.sec.log ∧ (negotiated act x s).2.2.sec.epoch = s.sec.epoch := by
  unfold negotiated
  split
  · exact hact _ s
  · simp
@[simp] theorem spdmGetVersion_fuses (a msg x) (s : State) :
    (spdmGetVersion a msg x s).2.2.sec.log = s.sec.log ∧ (spdmGetVersion a msg x s).2.2.sec.epoch = s.sec.epoch := by
  simp [spdmGetVersion]
@[simp] theorem spdmGetCapabilities_sec (a msg x) (s : State) : (spdmGetCapabilities a msg x s).2.2.sec = s.sec := by
  unfold spdmGetCapabilities; split <;> simp
@[simp] theorem spdmNegotiate_sec (a msg x) (s : State) : (spdmNegotiate a msg x s).2.2.sec = s.sec := by
  unfold spdmNegotiate; (repeat' split) <;> simp
@[simp] theorem spdmGetDigests_sec (x) (s : State) : (spdmGetDigests x s).2.2.sec = s.sec :=
  negotiated_sec (fun _ _ => rfl) x s
@[simp] theorem spdmGetCertificate_sec (msg x) (s : State) : (spdmGetCertificate msg x s).2.2.sec = s.sec := by
  refine negotiated_sec (fun y u => ?_) x s
  dsimp only
  split <;> rfl
@[simp] theorem State.nonce_sec (s : State) : (s.nonce).2.sec = s.sec := by simp [State.nonce]
@[simp] theorem spdmSign_sec (what context transcript body x) (s : State) : (spdmSign what context transcript body x s).2.2.sec = s.sec := by
  simp [spdmSign]
@[simp] theorem spdmChallenge_sec (msg x) (s : State) : (spdmChallenge msg x s).2.2.sec = s.sec := by
  refine negotiated_sec (fun y u => ?_) x s
  split
  · rfl
  · simp
@[simp] theorem spdmGetMeasurements_sec (msg x) (s : State) : (spdmGetMeasurements msg x s).2.2.sec = s.sec := by
  refine negotiated_sec (fun y u => ?_) x s
  extract_lets wanted op all blocks
  clear_value wanted blocks
  split
  · rfl
  · dsimp only
    split <;> simp
@[simp] theorem spdmKeyExchange_fuses (a msg x) (s : State) :
    (spdmKeyExchange a msg x s).2.2.sec.log = s.sec.log ∧ (spdmKeyExchange a msg x s).2.2.sec.epoch = s.sec.epoch := by
  refine negotiated_fuses (fun y u => ?_) x s
  split
  · simp
  split
  · simp
  · simp
@[simp] theorem spdmFinish_sec (a sid msg x) (s : State) : (spdmFinish a sid msg x s).2.2.sec = s.sec := by
  refine negotiated_sec (fun y u => ?_) x s
  split
  · rfl
  · extract_lets sig head mac both rsp master th2
    clear_value head mac both rsp master th2
    split
    · simp
    · rfl
@[simp] theorem spdmHeartbeat_sec (x) (s : State) : (spdmHeartbeat x s).2.2.sec = s.sec := by
  unfold spdmHeartbeat; split <;> simp
@[simp] theorem spdmKeyUpdate_sec (msg x) (s : State) : (spdmKeyUpdate msg x s).2.2.sec = s.sec := by
  unfold spdmKeyUpdate; dsimp only; (repeat' split) <;> simp
@[simp] theorem spdmEndSession_fuses (a x) (s : State) :
    (spdmEndSession a x s).2.2.sec.log = s.sec.log ∧ (spdmEndSession a x s).2.2.sec.epoch = s.sec.epoch := by
  unfold spdmEndSession; split <;> simp
@[simp] theorem spdmPqChain_sec (msg x) (s : State) : (spdmPqChain msg x s).2.2.sec = s.sec := by
  unfold spdmPqChain; (repeat' split) <;> simp
@[simp] theorem spdmPqSignature_sec (msg x) (s : State) : (spdmPqSignature msg x s).2.2.sec = s.sec := by
  unfold spdmPqSignature; dsimp only; (repeat' split) <;> simp
@[simp] theorem execGetVersion_burns (rq sid msg) (s : State) : s.sec.burnsIn (execGetVersion rq sid msg s) :=
  State.spdmCommand_burns (act := spdmGetVersion rq.src msg) (by simp) s rq sid msg
@[simp] theorem execGetCapabilities_burns (rq sid msg) (s : State) : s.sec.burnsIn (execGetCapabilities rq sid msg s) :=
  State.spdmCommand_burns (act := spdmGetCapabilities rq.src msg) (by simp) s rq sid msg
@[simp] theorem execNegotiateAlgorithms_burns (rq sid msg) (s : State) : s.sec.burnsIn (execNegotiateAlgorithms rq sid msg s) :=
  State.spdmCommand_burns (act := spdmNegotiate rq.src msg) (by simp) s rq sid msg
@[simp] theorem execGetDigests_burns (rq sid msg) (s : State) : s.sec.burnsIn (execGetDigests rq sid msg s) :=
  State.spdmCommand_burns (act := spdmGetDigests) (by simp) s rq sid msg
@[simp] theorem execGetCertificate_burns (rq sid msg) (s : State) : s.sec.burnsIn (execGetCertificate rq sid msg s) :=
  State.spdmCommand_burns (act := spdmGetCertificate msg) (by simp) s rq sid msg
@[simp] theorem execChallenge_burns (rq sid msg) (s : State) : s.sec.burnsIn (execChallenge rq sid msg s) :=
  State.spdmCommand_burns (act := spdmChallenge msg) (by simp) s rq sid msg
@[simp] theorem execGetMeasurements_burns (rq sid msg) (s : State) : s.sec.burnsIn (execGetMeasurements rq sid msg s) :=
  State.spdmCommand_burns (act := spdmGetMeasurements msg) (by simp) s rq sid msg
@[simp] theorem execKeyExchange_burns (rq sid msg) (s : State) : s.sec.burnsIn (execKeyExchange rq sid msg s) :=
  State.spdmCommand_burns (act := spdmKeyExchange rq.src msg) (by simp) s rq sid msg
@[simp] theorem execFinish_burns (rq sid msg) (s : State) : s.sec.burnsIn (execFinish rq sid msg s) :=
  State.spdmCommand_burns (act := spdmFinish rq.src sid msg) (by simp) s rq sid msg
@[simp] theorem execHeartbeat_burns (rq sid msg) (s : State) : s.sec.burnsIn (execHeartbeat rq sid msg s) :=
  State.spdmCommand_burns (act := spdmHeartbeat) (by simp) s rq sid msg
@[simp] theorem execKeyUpdate_burns (rq sid msg) (s : State) : s.sec.burnsIn (execKeyUpdate rq sid msg s) :=
  State.spdmCommand_burns (act := spdmKeyUpdate msg) (by simp) s rq sid msg
@[simp] theorem execEndSession_burns (rq sid msg) (s : State) : s.sec.burnsIn (execEndSession rq sid msg s) :=
  State.spdmCommand_burns (act := spdmEndSession rq.src) (by simp) s rq sid msg
@[simp] theorem execGetPqChain_burns (rq sid msg) (s : State) : s.sec.burnsIn (execGetPqChain rq sid msg s) :=
  State.spdmCommand_burns (act := spdmPqChain msg) (by simp) s rq sid msg
@[simp] theorem execGetPqSignature_burns (rq sid msg) (s : State) : s.sec.burnsIn (execGetPqSignature rq sid msg s) :=
  State.spdmCommand_burns (act := spdmPqSignature msg) (by simp) s rq sid msg
@[simp] theorem execSpdmUnsupportedRequest_burns (rq sid msg) (s : State) : s.sec.burnsIn (execSpdmUnsupportedRequest rq sid msg s) :=
  State.spdmCommand_burns (act := fun x s => (spdmErr 0x07 (field msg 1 1), x, s)) (by simp) s rq sid msg
@[simp] theorem spdmDispatch_fuses (a sid msg x) (s : State) :
    (spdmDispatch a sid msg x s).2.2.sec.log = s.sec.log ∧ (spdmDispatch a sid msg x s).2.2.sec.epoch = s.sec.epoch := by
  unfold spdmDispatch
  generalize field msg 1 1 = code, (vendorPayload msg).map (fun p => field p 0 1) = vendor
  split
  case h_13 => split <;> simp
  all_goals simp
@[simp] theorem State.spdmIn_fuses (rq msg) (s : State) :
    (State.spdmIn rq msg s).2.sec.log = s.sec.log ∧ (State.spdmIn rq msg s).2.sec.epoch = s.sec.epoch := by
  unfold State.spdmIn
  extract_lets x
  split
  · split
    · exact State.spdmTake_fuses (by simp) rq _ _ s
    · simp
  · exact State.spdmTake_fuses (by simp) rq none msg s

/- ## Recovery of the last flush -/

@[simp] theorem State.recoverItem_sec (s : State) (mode x) : (s.recoverItem mode x).sec = s.sec := by
  unfold State.recoverItem; dsimp only; (repeat' split) <;> simp
@[simp] theorem State.tearPage_sec (s : State) (x) : (s.tearPage x).sec = s.sec := by
  unfold State.tearPage; dsimp only; (repeat' split) <;> simp
@[simp] theorem State.loseList_sec (s : State) : s.loseList.sec = s.sec := by simp [State.loseList]
@[simp] theorem State.settleVolatile_sec (s : State) : s.settleVolatile.sec = s.sec := by simp [State.settleVolatile]
@[simp] theorem State.sayVoids_sec (s : State) : s.sayVoids.sec = s.sec := by simp [State.sayVoids]
@[simp] theorem State.measureJ_sec (s : State) : s.measureJ.sec = s.sec := by
  unfold State.measureJ; split <;> simp
@[simp] theorem State.recoverFlush_sec (s : State) : s.recoverFlush.sec = s.sec := by simp [State.recoverFlush]
@[simp] theorem State.fullShares_sec (s : State) : s.fullShares.sec = s.sec := by simp [State.fullShares]
@[simp] theorem Sec.atStart_log (x : Sec) : x.atStart.log = x.log := rfl
@[simp] theorem Sec.atStart_epoch (x : Sec) : x.atStart.epoch = x.epoch := rfl
@[simp] theorem State.clearVolatile_fuses (s : State) : s.clearVolatile.sec.log = s.sec.log ∧ s.clearVolatile.sec.epoch = s.sec.epoch := by
  unfold State.clearVolatile
  extract_lets s1 s2 s3 s4 s5 adm s6 s7 s8 s9 pubs s10 s11 cores s12 codec s13 s14 s15 board
  have h9 : s9.sec = s.sec := by simp [s9, s8, s7, s6, s5, s4, s3, s2, s1]
  clear_value s9
  have h11 : s11.sec = s.sec.atStart := by simp [s11, s10, h9]
  clear_value s11
  simp [s15, s14, s13, s12, h11]

/- ## The start sequence -/

@[simp] theorem State.halt_sec (s : State) (n) : (s.halt n).sec = s.sec := by simp [State.halt]
@[simp] theorem State.addItems_sec (s : State) (n) : (s.addItems n).sec = s.sec := by simp [State.addItems]
@[simp] theorem State.stepPassed_sec (s : State) (n) : (s.stepPassed n).sec = s.sec := by simp [State.stepPassed]
@[simp] theorem State.stepFailed_sec (s : State) (n) : (s.stepFailed n).sec = s.sec := by simp [State.stepFailed]
@[simp] theorem State.startComplete_sec (s : State) : s.startComplete.sec = s.sec := by simp [State.startComplete]
@[simp] theorem State.openStep_sec (s : State) (n) : (s.openStep n).sec = s.sec := by simp [State.openStep]
@[simp] theorem State.settleMigration_sec (s : State) (region slot source spare) : (s.settleMigration region slot source spare).sec = s.sec := by
  simp [State.settleMigration]
@[simp] theorem State.takeSpare_sec (s : State) (region) : (s.takeSpare region).2.sec = s.sec := by
  unfold State.takeSpare; split <;> simp
@[simp] theorem State.settleMigrations_sec (s : State) : s.settleMigrations.sec = s.sec := by
  unfold State.settleMigrations
  extract_lets running waiting store s1 s2
  have h2 : s2.sec = s.sec := by simp [s2, s1]
  clear_value s2
  rw [foldl_sec fun u w => ?_, h2]
  split <;> simp
@[simp] theorem State.mapOut_sec (s : State) (region rank) : (s.mapOut region rank).sec = s.sec := by
  unfold State.mapOut; dsimp only; (repeat' split) <;> simp
@[simp] theorem State.disabledSaid_sec (s : State) (kind inst step) : (s.disabledSaid kind inst step).sec = s.sec := by simp [State.disabledSaid]
@[simp] theorem State.chanFailed_sec (s : State) (ch) : (s.chanFailed ch).sec = s.sec := by simp [State.chanFailed]
@[simp] theorem State.cchanFailed_sec (s : State) (c) : (s.cchanFailed c).sec = s.sec := by simp [State.cchanFailed]
@[simp] theorem State.beginWork_sec (s : State) (n) : (s.beginWork n).sec = s.sec := by
  unfold State.beginWork; split <;> simp
@[simp] theorem State.beginStep_sec (s : State) (n) : (s.beginStep n).sec = s.sec := by simp [State.beginStep]
@[simp] theorem State.begin13_sec (s : State) : s.begin13.sec = s.sec := by simp [State.begin13]
@[simp] theorem State.begin12_sec (s : State) : s.begin12.sec = s.sec := by simp [State.begin12]
@[simp] theorem State.begin11_sec (s : State) : s.begin11.sec = s.sec := by simp [State.begin11]
@[simp] theorem State.nextStep_sec (s : State) (n) : (s.nextStep n).sec = s.sec := by
  unfold State.nextStep; split <;> simp
@[simp] theorem State.passOn_sec (s : State) (n) : (s.passOn n).sec = s.sec := by simp [State.passOn]
@[simp] theorem State.endS01_sec (s : State) : s.endS01.sec = s.sec := by simp [State.endS01]
@[simp] theorem State.loadDefaults_sec (s : State) : s.loadDefaults.sec = s.sec := by simp [State.loadDefaults]
@[simp] theorem State.endS02_fuses (s : State) (persistOk) :
    (s.endS02 persistOk).sec.log = s.sec.log ∧ (s.endS02 persistOk).sec.epoch = s.sec.epoch := by
  unfold State.endS02; dsimp only; (repeat' split) <;> simp
@[simp] theorem State.endS03_sec (s : State) (blocks) : (s.endS03 blocks).sec = s.sec := by simp [State.endS03]
@[simp] theorem State.endS04_sec (s : State) (groups) : (s.endS04 groups).sec = s.sec := by simp [State.endS04]
@[simp] theorem State.serveChans_sec (s : State) : s.serveChans.sec = s.sec := by simp [State.serveChans]
@[simp] theorem State.endS05_sec (s : State) (failed) : (s.endS05 failed).sec = s.sec := by simp [State.endS05]
@[simp] theorem State.repairRow_sec (s : State) (region word) : (s.repairRow region word).sec = s.sec := by simp [State.repairRow]
@[simp] theorem State.endS06_sec (s : State) (repaired) : (s.endS06 repaired).sec = s.sec := by simp [State.endS06]
@[simp] theorem State.serveCchans_sec (s : State) : s.serveCchans.sec = s.sec := by simp [State.serveCchans]
@[simp] theorem State.endS07_sec (s : State) (failed) : (s.endS07 failed).sec = s.sec := by simp [State.endS07]
@[simp] theorem State.endS08_sec (s : State) (mv temps esr fault) : (s.endS08 mv temps esr fault).sec = s.sec := by
  simp only [State.endS08]; (repeat' split) <;> simp
@[simp] theorem State.endS12_sec (s : State) (views) : (s.endS12 views).sec = s.sec := by
  unfold State.endS12
  extract_lets s1 moving ask
  have hask u e : (ask u e).sec = u.sec := by
    simp only [ask]
    split
    · split <;> simp
    · rfl
  clear_value ask
  have h1 : s1.sec = s.sec := by simp [s1]
  clear_value s1
  simp [foldl_sec hask, h1]
@[simp] theorem State.startRoom_sec (s : State) (k) : (s.startRoom k).sec = s.sec := by
  unfold State.startRoom; split <;> simp
@[simp] theorem State.enterS13_fuses (s : State) (removed) :
    (s.enterS13 removed).sec.log = s.sec.log ∧ (s.enterS13 removed).sec.epoch = s.sec.epoch := by
  unfold State.enterS13
  extract_lets bad gone cores s1 s2 s3 s4 s5 s6 left
  have h2 : s2.sec = s.sec := by simp [s2, s1]
  clear_value s2
  have h3 : s3.sec.log = s.sec.log ∧ s3.sec.epoch = s.sec.epoch := by
    rw [← h2]
    simp only [s3]
    split
    · simp
    · exact foldl_fuses (by simp) (by simp) (upTo 64) s2
  clear_value s3
  have h5 : s5.sec = s3.sec := by simp [s5, s4]
  clear_value s5
  have h6 : s6.sec = s3.sec := by simp [s6, h5]
  clear_value s6 left
  split <;> simp [h5, h6, h3]
@[simp] theorem State.goS13_fuses (s : State) (removed) : (s.goS13 removed).sec.log = s.sec.log ∧ (s.goS13 removed).sec.epoch = s.sec.epoch := by
  unfold State.goS13; (repeat' split) <;> simp
@[simp] theorem execStartStep_burns (e) (s : State) : s.sec.burnsIn (execStartStep e s) := by
  unfold execStartStep; (repeat' split) <;> simp
@[simp] theorem State.chanLate_sec (s : State) (ch) : (s.chanLate ch).sec = s.sec := by simp [State.chanLate]
@[simp] theorem State.cchanLate_sec (s : State) (c) : (s.cchanLate c).sec = s.sec := by
  unfold State.cchanLate; split <;> simp
@[simp] theorem State.stepLate_sec (s : State) (n unfinished) : (s.stepLate n unfinished).sec = s.sec := by
  unfold State.stepLate; split <;> simp
@[simp] theorem execStartStepLimit_burns (step unfinished) (s : State) : s.sec.burnsIn (execStartStepLimit step unfinished s) := by
  unfold execStartStepLimit; split <;> simp
@[simp] theorem State.clearCount_sec (s : State) (v) : (s.clearCount v).sec = s.sec := by
  unfold State.clearCount; dsimp only; (repeat' split) <;> simp
@[simp] theorem State.saidFaulty_sec (s : State) (i) : (s.saidFaulty i).sec = s.sec := by
  unfold State.saidFaulty; dsimp only; (repeat' split) <;> simp
@[simp] theorem State.startBegin_fuses (s : State) (cause) :
    (s.startBegin cause).sec.log = s.sec.log ∧ (s.startBegin cause).sec.epoch = s.sec.epoch := by
  simp [State.startBegin]
@[simp] theorem execStartBegin_burns (s : State) : s.sec.burnsIn (execStartBegin s) := by
  unfold execStartBegin; split <;> simp

/- ## Reads of the dictionary -/

@[simp] theorem readEnt_sec (a e i j) (s : State) : (readEnt a e i j s).2.sec = s.sec := by
  unfold readEnt; split <;> simp

/- ## Writes, block transfers and frames -/

@[simp] theorem actSession_sec (rq e v) (s : State) : (actSession rq e v s).2.sec = s.sec := by simp [actSession]
@[simp] theorem actOctets_sec (e i j payload) (s : State) : (actOctets e i j payload s).2.sec = s.sec := by
  unfold actOctets; split <;> simp
@[simp] theorem actTxEq_sec (port payload) (s : State) : (actTxEq port payload s).2.sec = s.sec := by
  unfold actTxEq; (repeat' split) <;> simp
@[simp] theorem actWriteBack_sec (e v) (s : State) : (actWriteBack e v s).2.sec = s.sec := by
  unfold actWriteBack; dsimp only; (repeat' split) <;> simp
@[simp] theorem actStair_sec (e t j payload) (s : State) : (actStair e t j payload s).2.sec = s.sec := by
  unfold actStair; (repeat' split) <;> simp
@[simp] theorem actStaticAddr_sec (v) (s : State) : (actStaticAddr v s).2.sec = s.sec := by
  unfold actStaticAddr; split <;> simp
@[simp] theorem actVault_sec (e i payload) (s : State) : (actVault e i payload s).2.sec = s.sec := by
  unfold actVault; (repeat' split) <;> simp
theorem actDrawn_sec {act : Nat → Act} (hact : ∀ n u, (act n u).2.sec = u.sec) (s : State) : (actDrawn act s).2.sec = s.sec :=
  (hact s.draw.1 s.draw.2).trans s.draw_sec
@[simp] theorem actHostGone_sec (v) (s : State) : (actHostGone v s).2.sec = s.sec := by simp [actHostGone]
theorem actRoom_burns {act : Fin 64 → Act} (hact : ∀ (k : Fin 64) (u : State), u.sec.burnsTo (act k u).2.sec) (k : Nat) (s : State) :
    s.sec.burnsTo (actRoom k act s).2.sec := by
  unfold actRoom
  split
  · exact hact _ s
  · simp
theorem actLow_burns {rq : Rq} {e : Ent} {i j : Nat} {payload : List Byte} {act : Act} (h : actLow rq e i j payload = some act) (s : State) :
    s.sec.burnsTo (act s).2.sec := by
  unfold actLow at h
  split at h
  case h_28 => cases h; exact actRoom_burns (by simp) i s
  case h_29 => cases h; exact actRoom_burns (by simp) i s
  case h_30 => cases h
  all_goals cases h; simp
theorem actHigh_burns {rq : Rq} {e : Ent} {i j : Nat} {payload : List Byte} {act : Act} (h : actHigh rq e i j payload = some act) (s : State) :
    s.sec.burnsTo (act s).2.sec := by
  unfold actHigh at h
  split at h
  all_goals cases h
  all_goals simp [actDrawn_sec]
@[simp] theorem actOf_burns (rq : Rq) (e : Ent) (i j : Nat) (payload : List Byte) (s : State) : s.sec.burnsTo (actOf rq e i j payload s).2.sec := by
  unfold actOf
  cases entryFn e j with
  | some f => simp
  | none =>
    cases hlow : actLow rq e i j payload with
    | some low => exact actLow_burns hlow s
    | none =>
      cases hhigh : actHigh rq e i j payload with
      | some high => exact actHigh_burns hhigh s
      | none =>
        dsimp only [Option.orElse]
        split
        · simp
        · split <;> simp
@[simp] theorem State.noEntry_sec (s : State) (rq index sub) : (s.noEntry rq index sub).sec = s.sec := by simp [State.noEntry]
@[simp] theorem State.writeFrame_burns (s : State) (rq index sub payload) : s.sec.burnsTo (s.writeFrame rq index sub payload).sec := by
  unfold State.writeFrame
  split
  · simp
  · exact State.odWrite_burns (actOf_burns rq _ _ _ payload) s rq _ _ _ payload _
@[simp] theorem execWrite_burns (rq index sub payload) (s : State) : s.sec.burnsIn (execWrite rq index sub payload s) := by simp [execWrite]
@[simp] theorem State.readFrame_sec (s : State) (rq index sub payload) : (s.readFrame rq index sub payload).sec = s.sec := by
  unfold State.readFrame; split <;> simp
theorem State.blockFrame_burns {act : Ent → Nat → Nat → Act} (hact : ∀ e i j (u : State), u.sec.burnsTo (act e i j u).2.sec) (s : State)
    (rq : Rq) (index sub : Nat) : s.sec.burnsTo (s.blockFrame rq index sub act).sec := by
  unfold State.blockFrame
  split
  · simp
  · split
    · simp
    · simpa using hact _ _ _ (s.openSess rq.src)
@[simp] theorem State.dropTransfer_sec (s : State) (a key) : (s.dropTransfer a key).sec = s.sec := by simp [State.dropTransfer]
@[simp] theorem State.putTransfer_sec (s : State) (a t) : (s.putTransfer a t).sec = s.sec := by simp [State.putTransfer]
@[simp] theorem actBlockStart_sec (rq payload e i j) (s : State) : (actBlockStart rq payload e i j s).2.sec = s.sec := by
  unfold actBlockStart; dsimp only; (repeat' split) <;> simp
@[simp] theorem execBlockStart_burns (rq index sub payload) (s : State) : s.sec.burnsIn (execBlockStart rq index sub payload s) :=
  (Sec.burnsIn_next _ _).mpr (State.blockFrame_burns (act := actBlockStart rq payload) (by simp) s rq index.toNat sub.toNat)
@[simp] theorem actBlockData_sec (rq payload e i j) (s : State) : (actBlockData rq payload e i j s).2.sec = s.sec := by
  unfold actBlockData; dsimp only; (repeat' split) <;> simp
@[simp] theorem execBlockData_burns (rq index sub payload) (s : State) : s.sec.burnsIn (execBlockData rq index sub payload s) :=
  (Sec.burnsIn_next _ _).mpr (State.blockFrame_burns (act := actBlockData rq payload) (by simp) s rq index.toNat sub.toNat)
theorem actBlockEnd_burns (rq : Rq) (payload : List Byte) (e : Ent) (i j : Nat) (s : State) :
    s.sec.burnsTo (actBlockEnd rq payload e i j s).2.sec := by
  unfold actBlockEnd
  extract_lets key
  split
  · simp
  split
  · simp
  next t _ =>
  split
  · simp
  · rename_i s1 _ _ _ _
    have h1 : s1.sec = s.sec := State.dropTransfer_sec s rq.src key
    split
    · simp [h1]
    · exact h1 ▸ State.judgeWrite_burns (actOf_burns rq e i j t.got) s1 rq e i j t.got s1.callRooms
@[simp] theorem execBlockEnd_burns (rq index sub payload) (s : State) : s.sec.burnsIn (execBlockEnd rq index sub payload s) :=
  (Sec.burnsIn_next _ _).mpr (State.blockFrame_burns (actBlockEnd_burns rq payload) s rq index.toNat sub.toNat)
@[simp] theorem actBlockRead_sec (rq payload e i j) (s : State) : (actBlockRead rq payload e i j s).2.sec = s.sec := by
  unfold actBlockRead
  split
  · rfl
  · exact State.judgeRead_sec (fun u => readEnt_sec rq.src e i j u) s rq e i j _
@[simp] theorem execBlockRead_burns (rq index sub payload) (s : State) : s.sec.burnsIn (execBlockRead rq index sub payload s) :=
  (Sec.burnsIn_next _ _).mpr (State.blockFrame_burns (act := actBlockRead rq payload) (by simp) s rq index.toNat sub.toNat)
@[simp] theorem execBlockTransferTimeout_burns (src index sub) (s : State) : s.sec.burnsIn (execBlockTransferTimeout src index sub s) := by
  unfold execBlockTransferTimeout; dsimp only; (repeat' split) <;> simp
@[simp] theorem execSessionIdleTimeout_burns (mac) (s : State) : s.sec.burnsIn (execSessionIdleTimeout mac s) := by
  unfold execSessionIdleTimeout; split <;> simp
@[simp] theorem execUartFrameGap_burns (s : State) : s.sec.burnsIn (execUartFrameGap s) := by simp [execUartFrameGap]
@[simp] theorem State.serveFrame_burns (s : State) (a f) : s.sec.burnsTo (s.serveFrame a f).sec := by
  unfold State.serveFrame
  extract_lets rq
  split
  · simp
  · simp
  · exact State.blockFrame_burns (by simp) s rq _ _
  · exact State.blockFrame_burns (by simp) s rq _ _
  · exact State.blockFrame_burns (actBlockEnd_burns rq _) s rq _ _
  · exact State.blockFrame_burns (by simp) s rq _ _
@[simp] theorem State.frameIn_burns (s : State) (a padded bs) : s.sec.burnsTo (s.frameIn a padded bs).sec := by
  unfold State.frameIn
  split
  · simp
  · split <;> simp
theorem State.moveIn_burns {act : State → State} (hact : ∀ u : State, u.sec.burnsTo (act u).sec) (s : State) (port tag src kind) (takes) :
    s.sec.burnsTo (s.moveIn port tag src kind act takes).sec := by
  unfold State.moveIn
  split
  · simp
  split
  · simp
  split
  · simp
  split
  · simp
  · dsimp only
    split
    · simp
    · split
      · simpa using hact ((s.hear src).respond port tag 0 none 0)
      · simp
@[simp] theorem execRelay_burns (port tag src frame) (s : State) : s.sec.burnsIn (execRelay port tag src frame s) :=
  (Sec.burnsIn_next _ _).mpr (State.moveIn_burns (fun u => State.frameIn_burns u (.relay src) true frame) s _ _ _ _ _)

/- ## The I3C target -/

@[simp] theorem State.droppedSaid_sec (s : State) (d) : (s.droppedSaid d).sec = s.sec := by simp [State.droppedSaid]
@[simp] theorem State.takeNotify_sec (s : State) (d) : (s.takeNotify d).2.sec = s.sec := by
  unfold State.takeNotify; dsimp only; (repeat' split) <;> simp
@[simp] theorem State.updI3c_sec (s : State) (f) : (s.updI3c f).sec = s.sec := by simp [State.updI3c]
@[simp] theorem State.i3cAddress_sec (s : State) (addr) : (s.i3cAddress addr).sec = s.sec := by simp [State.i3cAddress]
@[simp] theorem execEntdaa_burns (addr) (s : State) : s.sec.burnsIn (execEntdaa addr s) := by simp [execEntdaa]
@[simp] theorem execSetdasa_burns (target addr) (s : State) : s.sec.burnsIn (execSetdasa target addr s) := by simp [execSetdasa]
@[simp] theorem execRstdaa_burns (s : State) : s.sec.burnsIn (execRstdaa s) := by simp [execRstdaa]
@[simp] theorem execEnec_burns (events) (s : State) : s.sec.burnsIn (execEnec events s) := by simp [execEnec]
@[simp] theorem execDisec_burns (events) (s : State) : s.sec.burnsIn (execDisec events s) := by simp [execDisec]
@[simp] theorem State.i3cReads_sec (s : State) (n v) : (s.i3cReads n v).sec = s.sec := by simp [State.i3cReads]
@[simp] theorem execGetpid_burns (s : State) : s.sec.burnsIn (execGetpid s) := by simp [execGetpid]
@[simp] theorem execGetbcr_burns (s : State) : s.sec.burnsIn (execGetbcr s) := by simp [execGetbcr]
@[simp] theorem execGetdcr_burns (s : State) : s.sec.burnsIn (execGetdcr s) := by simp [execGetdcr]
@[simp] theorem execGetmwl_burns (s : State) : s.sec.burnsIn (execGetmwl s) := by simp [execGetmwl]
@[simp] theorem execSetmwl_burns (len) (s : State) : s.sec.burnsIn (execSetmwl len s) := by simp [execSetmwl]
@[simp] theorem execGetmrl_burns (s : State) : s.sec.burnsIn (execGetmrl s) := by simp [execGetmrl]
@[simp] theorem execSetmrl_burns (len) (s : State) : s.sec.burnsIn (execSetmrl len s) := by simp [execSetmrl]
@[simp] theorem execGetstatus_burns (s : State) : s.sec.burnsIn (execGetstatus s) := by simp [execGetstatus]
@[simp] theorem execRstact_burns (action) (s : State) : s.sec.burnsIn (execRstact action s) := by simp [execRstact]
@[simp] theorem State.i3cNext_sec (s : State) : (s.i3cNext).2.sec = s.sec := by
  unfold State.i3cNext; dsimp only; (repeat' split) <;> simp
@[simp] theorem execPrivateRead_burns (s : State) : s.sec.burnsIn (execPrivateRead s) := by
  unfold execPrivateRead; split <;> simp

/- ## Flits received -/

@[simp] theorem State.takeCredits_sec (s : State) (p cost) : (s.takeCredits p cost).sec = s.sec := by simp [State.takeCredits]
@[simp] theorem State.returnCredits_sec (s : State) (p) : (s.returnCredits p).sec = s.sec := by simp [State.returnCredits]
@[simp] theorem State.creditsIn_sec (s : State) (p type count) : (s.creditsIn p type count).sec = s.sec := by simp [State.creditsIn]
theorem State.after_burns (s : State) (o : Host.Outcome State Fault Refusal) (h : s.sec.burnsIn o) : s.sec.burnsTo (s.after o).sec := by
  cases o with
  | next t => exact h t rfl
  | fault f => simp [State.after]
  | refused r => simp [State.after]
@[simp] theorem State.odMessage_burns (s : State) (p tag data) : s.sec.burnsTo (s.odMessage p tag data).sec := by
  unfold State.odMessage
  split
  · simp
  split
  · simp
  · simpa using State.frameIn_burns (s.respond p tag 0 none 0) (.port p) true data
@[simp] theorem State.beaconMessage_burns (s : State) (p arg data) : s.sec.burnsTo (s.beaconMessage p arg data).sec := by
  unfold State.beaconMessage
  dsimp only
  split
  · exact State.after_burns s _ (execTimeBeacon_burns p _ s)
  · simp
@[simp] theorem State.moveMessage_burns (s : State) (p m) : s.sec.burnsTo (s.moveMessage p m).sec := by
  unfold State.moveMessage
  extract_lets kind page
  split
  · extract_lets room src
    clear_value kind src
    split
    · simp
    · split
      case h_13 => simp
      all_goals exact State.after_burns s _ (by simp)
  · simp
@[simp] theorem State.responseIn_burns (s : State) (p code tag data) : s.sec.burnsTo (s.responseIn p code tag data).sec := by
  unfold State.responseIn
  extract_lets q
  split
  · exact State.after_burns s _ (by simp)
  split
  · simp
  · simp
@[simp] theorem State.deliver_burns (s : State) (p m) : s.sec.burnsTo (s.deliver p m).sec := by
  unfold State.deliver
  extract_lets tag line data region version
  split
  · extract_lets room
    split
    case h_6 => simp
    case h_7 => simp
    case h_8 => simp
    case h_9 => simp
    case h_12 => simp
    case h_13 => simp
    all_goals exact State.after_burns s _ (by simp)
  · simp
@[simp] theorem State.deliverHeads_burns (s : State) (p n) : s.sec.burnsTo (s.deliverHeads p n).sec := by
  induction n generalizing s with
  | zero => simp [State.deliverHeads]
  | succ n ih =>
    unfold State.deliverHeads
    split
    · split
      · refine Sec.burnsTo_trans ?_ (ih _)
        simpa using State.deliver_burns (s.updPort p _) p _
      · simp
    · simp
@[simp] theorem State.announce_burns (s : State) (p m) : s.sec.burnsTo (s.announce p m).sec := by
  unfold State.announce
  dsimp only
  split <;> simp
theorem State.announce_burns_of {s t : State} (h : t.sec = s.sec) (p : Fin 32) (m : Msg) : s.sec.burnsTo (t.announce p m).sec :=
  h ▸ State.announce_burns t p m
@[simp] theorem State.headerIn_burns (s : State) (p m) : s.sec.burnsTo (s.headerIn p m).sec := by
  unfold State.headerIn
  extract_lets cost known lines peerOnly used
  split
  · simp
  split
  · simp
  rename_i s1 _ _
  have h1 : s1.sec = s.sec := State.takeCredits_sec s p cost
  clear_value s1
  split
  · exact State.announce_burns_of (by simp [h1]) p _
  split
  · exact State.announce_burns_of (by simp [h1]) p _
  · exact State.announce_burns_of h1 p _
@[simp] theorem State.respHeader_burns (s : State) (p code tag data) : s.sec.burnsTo (s.respHeader p code tag data).sec := by
  unfold State.respHeader
  dsimp only
  split
  · simp
  · split <;> simp
theorem foldl_burns {α : Type} {g : State → α → State} (h : ∀ (s : State) x, s.sec.burnsTo (g s x).sec) (l : List α) (s : State) :
    s.sec.burnsTo (l.foldl g s).sec := by
  induction l generalizing s with
  | nil => exact Sec.burnsTo_self _
  | cons x l ih => exact Sec.burnsTo_trans (h s x) (ih (g s x))
@[simp] theorem State.headerSlot_burns (s : State) (p bs) : s.sec.burnsTo (s.headerSlot p bs).sec := by
  unfold State.headerSlot
  dsimp only
  split
  · simp
  split
  · simp
  split
  · exact foldl_burns (fun u e => by simp) _ s
  · simp
@[simp] theorem State.dataSlot_burns (s : State) (p bs) : s.sec.burnsTo (s.dataSlot p bs).sec := by
  unfold State.dataSlot
  extract_lets l
  split
  · simp
  · extract_lets len more cost
    clear_value cost
    split
    · simp
    · have h (u : State) (hu : u.sec = s.sec) (n : Nat) : s.sec.burnsTo (u.deliverHeads p n).sec := hu ▸ State.deliverHeads_burns u p n
      exact h _ (by simp) _
@[simp] theorem State.takeSlots_burns (s : State) (p map body) : s.sec.burnsTo (s.takeSlots p map body).sec := by
  refine foldl_burns (fun u i => ?_) _ s
  dsimp only
  split
  · simp
  · split <;> simp
@[simp] theorem State.fecCounted_sec (s : State) (p corrected) : (s.fecCounted p corrected).sec = s.sec := by simp [State.fecCounted]
@[simp] theorem State.nackFlit_sec (s : State) (p) : (s.nackFlit p).sec = s.sec := by simp [State.nackFlit]
@[simp] theorem State.ackIn_sec (s : State) (p ack) : (s.ackIn p ack).sec = s.sec := by simp [State.ackIn]
@[simp] theorem State.framingCredits_sec (s : State) (p w) : (s.framingCredits p w).sec = s.sec := by simp [State.framingCredits]
@[simp] theorem execFlitReceived_burns (port flit corrected fecOk) (s : State) : s.sec.burnsIn (execFlitReceived port flit corrected fecOk s) := by
  unfold execFlitReceived
  split
  · simp
  extract_lets s1 w
  have h1 : s1.sec = s.sec := State.fecCounted_sec s port corrected
  clear_value s1 w
  split
  · simp [h1]
  split
  · split
    · simp [h1]
    · rename_i s2 _ _ _ _
      have h2 : s2.sec = s.sec := by simp [s2, h1]
      clear_value s2
      rw [Sec.burnsIn_next, State.returnCredits_sec, ← h2]
      exact State.takeSlots_burns s2 _ _ _
  all_goals simp [h1]

/- ## The course boundary -/

@[simp] theorem State.boardRead_sec (s : State) (env) : (s.boardRead env).sec = s.sec := by simp [State.boardRead]
@[simp] theorem State.readings_fuses (s : State) (env) : (s.readings env).sec.log = s.sec.log ∧ (s.readings env).sec.epoch = s.sec.epoch := by
  unfold State.readings; dsimp only; (repeat' split) <;> simp
@[simp] theorem State.retrainAt_sec (s : State) (width) : (s.retrainAt width).sec = s.sec := by simp [State.retrainAt]
@[simp] theorem State.governUp_sec (s : State) : s.governUp.sec = s.sec := by simp [State.governUp]
@[simp] theorem State.governDown_sec (s : State) : s.governDown.sec = s.sec := by simp [State.governDown]
@[simp] theorem State.govern_sec (s : State) : s.govern.sec = s.sec := by simp [State.govern]
@[simp] theorem State.throttleCores_sec (s : State) : s.throttleCores.sec = s.sec := by simp [State.throttleCores]
@[simp] theorem State.divideShares_sec (s : State) : s.divideShares.sec = s.sec := by simp [State.divideShares]
@[simp] theorem State.drainZone_sec (s : State) (left l) : (s.drainZone left l).sec = s.sec := by
  induction l generalizing s left with
  | nil => rfl
  | cons k ks ih =>
    unfold State.drainZone
    extract_lets b set
    clear_value set
    split
    · rfl
    · split
      · rfl
      · rw [ih]
        exact getD_sec fun t => State.placeItem_sec
@[simp] theorem State.eraseZone_sec (s : State) : s.eraseZone.sec = s.sec := by simp [State.eraseZone]
@[simp] theorem State.zoneDrain_sec (s : State) (left) : (s.zoneDrain left).sec = s.sec := by simp [State.zoneDrain]
@[simp] theorem State.divideCourse_sec (s : State) : s.divideCourse.sec = s.sec := by simp [State.divideCourse]
@[simp] theorem State.storeBoundary_sec (s : State) : s.storeBoundary.sec = s.sec := by simp [State.storeBoundary]
@[simp] theorem State.tierBoundary_sec (s : State) : s.tierBoundary.sec = s.sec := by
  unfold State.tierBoundary
  split
  · split; next left u h =>
    have hu : u.sec = s.sec := by simp [snd_sec_of_eq h]
    clear h
    rw [State.advanceFronts_sec, State.settleBases_sec, State.cellarShortages_sec, State.tendBlocks_sec, State.zoneDrain_sec, hu]
  · split
    · rw [State.zoneDrain_sec]
    · rfl
@[simp] theorem State.callBoundary_sec (s : State) : s.callBoundary.sec = s.sec := by simp [State.callBoundary]
@[simp] theorem State.sendNotify_sec (s : State) : s.sendNotify.sec = s.sec := by
  unfold State.sendNotify
  split
  · rfl
  · extract_lets one s1
    have hone u p : (one u p).sec = u.sec := by
      simp only [one]
      split
      · rfl
      · split <;> next h => simp [snd_sec_of_eq h]
    have h1 : s1.sec = s.sec := foldl_sec hone _ s
    clear_value s1
    split <;> next h => simp [snd_sec_of_eq h, h1]
@[simp] theorem State.decideCourse_fuses (s : State) : s.decideCourse.sec.log = s.sec.log ∧ s.decideCourse.sec.epoch = s.sec.epoch := by
  simp [State.decideCourse]
@[simp] theorem State.walkOn_sec (s : State) : s.walkOn.sec = s.sec := by simp [State.walkOn]
@[simp] theorem State.tick_sec (s : State) : s.tick.sec = s.sec := by simp [State.tick]
@[simp] theorem execCourseBoundary_burns (env) (s : State) : s.sec.burnsIn (execCourseBoundary env s) := by
  unfold execCourseBoundary; split <;> simp

/- ## Every instruction -/

/-- Whatever instruction is executed, the fuses stay burnt. -/
theorem exec_burns (i : Instr) (s : State) : s.sec.burnsIn (exec i s) := by
  cases i <;> simp [exec]

/- ## A step -/

/-- Whatever a step does, the fuses stay burnt. -/
theorem step_burns (s : State) : s.sec.burnsIn (step s) := by
  unfold step
  split
  · simp
  next i rest _ => exact State.setPending_sec s rest ▸ exec_burns i (s.setPending rest)


/-- Settles O56: whatever instruction the step executes, and when time passes, the Keystone's fuses stay burnt. -/
theorem fusesStayBurnt : Obligations.FusesStayBurnt := by
  intro s t hepoch hstep
  obtain ⟨hlog, hfuse⟩ := step_burns s t hstep
  exact ⟨hlog, hfuse hepoch⟩

end Sys2Proof.Machine
